-- ==== Sys2Proof/Word.lean ====
section
/-! DEFINITION. The word types of the model. -/

namespace Sys2Proof

/-- A byte of memory. -/
abbrev Byte := BitVec 8
/-- One lane's 32-bit word of a V or T register. -/
abbrev Word := BitVec 32
/-- A scalar register, an address, a 64-bit state register. -/
abbrev Word64 := BitVec 64
/-- A set of lanes of a gang: bit `i` is lane `i`. -/
abbrev LaneMask := BitVec 64
/-- A set of slices of a gang: bit `i` is slice `i`. -/
abbrev SliceMask := BitVec 16
/-- The 64 bytes of a memory line, byte `i` at bits `8 i + 7` to `8 i`. -/
abbrev Line := BitVec 512

end Sys2Proof
end

