-- ==== Sys2Proof/Syntax.lean ====
section
/-! DEFINITION. The instructions: one constructor for each row of spec/opcode_table.json.
The first rows are the 32-bit instruction words (03_encoding.md); their arguments are the
fields of the word, as wide as the table gives them.  The later rows are the steps that the
device, the host and the management controller take by themselves; they have no bits, and
their arguments name what the step acts on. -/

namespace Sys2Proof

/-- An instruction of the opcode table. -/
inductive Instr where
  /-- HDR (R65). -/
  | hdr (l : BitVec 5) (w : BitVec 12) (p : BitVec 1)
  /-- SETMODE (R123). -/
  | setmode (i : BitVec 18)
  /-- BR (R322). -/
  | br (c : BitVec 4) (d : BitVec 22)
  /-- BR_NEVER (R322). -/
  | brNever (d : BitVec 22)
  /-- CALL (R323). -/
  | call (d : BitVec 22)
  /-- JMP (R324). -/
  | jmp (a : BitVec 6)
  /-- CALLR (R324). -/
  | callr (a : BitVec 6)
  /-- REGANG (R36). -/
  | regang (d : BitVec 6)
  /-- SADD (R119). -/
  | sadd (d : BitVec 6) (a : BitVec 6) (b : BitVec 6)
  /-- SSUB (R119). -/
  | ssub (d : BitVec 6) (a : BitVec 6) (b : BitVec 6)
  /-- SMUL (R119). -/
  | smul (d : BitVec 6) (a : BitVec 6) (b : BitVec 6)
  /-- SMULH (R119). -/
  | smulh (d : BitVec 6) (a : BitVec 6) (b : BitVec 6)
  /-- SMULHN (R119). -/
  | smulhn (d : BitVec 6) (a : BitVec 6) (b : BitVec 6)
  /-- SDIV (R119). -/
  | sdiv (d : BitVec 6) (a : BitVec 6) (b : BitVec 6)
  /-- SDIVN (R119). -/
  | sdivn (d : BitVec 6) (a : BitVec 6) (b : BitVec 6)
  /-- SREM (R119). -/
  | srem (d : BitVec 6) (a : BitVec 6) (b : BitVec 6)
  /-- SREMN (R119). -/
  | sremn (d : BitVec 6) (a : BitVec 6) (b : BitVec 6)
  /-- SAND (R119). -/
  | sand (d : BitVec 6) (a : BitVec 6) (b : BitVec 6)
  /-- SOR (R119). -/
  | sor (d : BitVec 6) (a : BitVec 6) (b : BitVec 6)
  /-- SXOR (R119). -/
  | sxor (d : BitVec 6) (a : BitVec 6) (b : BitVec 6)
  /-- SANDN (R119). -/
  | sandn (d : BitVec 6) (a : BitVec 6) (b : BitVec 6)
  /-- SSHL (R119). -/
  | sshl (d : BitVec 6) (a : BitVec 6) (b : BitVec 6)
  /-- SSHR (R119). -/
  | sshr (d : BitVec 6) (a : BitVec 6) (b : BitVec 6)
  /-- SSRA (R119). -/
  | ssra (d : BitVec 6) (a : BitVec 6) (b : BitVec 6)
  /-- SROL (R119). -/
  | srol (d : BitVec 6) (a : BitVec 6) (b : BitVec 6)
  /-- SMIN (R119). -/
  | smin (d : BitVec 6) (a : BitVec 6) (b : BitVec 6)
  /-- SMAX (R119). -/
  | smax (d : BitVec 6) (a : BitVec 6) (b : BitVec 6)
  /-- SMINN (R119). -/
  | sminn (d : BitVec 6) (a : BitVec 6) (b : BitVec 6)
  /-- SMAXN (R119). -/
  | smaxn (d : BitVec 6) (a : BitVec 6) (b : BitVec 6)
  /-- SCEQ (R120). -/
  | sceq (d : BitVec 6) (a : BitVec 6) (b : BitVec 6)
  /-- SCNE (R120). -/
  | scne (d : BitVec 6) (a : BitVec 6) (b : BitVec 6)
  /-- SCLT (R120). -/
  | sclt (d : BitVec 6) (a : BitVec 6) (b : BitVec 6)
  /-- SCLE (R120). -/
  | scle (d : BitVec 6) (a : BitVec 6) (b : BitVec 6)
  /-- SCLTN (R120). -/
  | scltn (d : BitVec 6) (a : BitVec 6) (b : BitVec 6)
  /-- SCLEN (R120). -/
  | sclen (d : BitVec 6) (a : BitVec 6) (b : BitVec 6)
  /-- SSEL (R119). -/
  | ssel (d : BitVec 6) (a : BitVec 6) (b : BitVec 6)
  /-- SPOPC (R119). -/
  | spopc (d : BitVec 6) (a : BitVec 6)
  /-- SCLZ (R119). -/
  | sclz (d : BitVec 6) (a : BitVec 6)
  /-- SCTZ (R119). -/
  | sctz (d : BitVec 6) (a : BitVec 6)
  /-- SBREV (R119). -/
  | sbrev (d : BitVec 6) (a : BitVec 6)
  /-- SEXTB (R119). -/
  | sextb (d : BitVec 6) (a : BitVec 6)
  /-- SEXTH (R119). -/
  | sexth (d : BitVec 6) (a : BitVec 6)
  /-- SEXTW (R119). -/
  | sextw (d : BitVec 6) (a : BitVec 6)
  /-- SADDI (R121). -/
  | saddi (d : BitVec 6) (a : BitVec 6) (i : BitVec 12)
  /-- SANDI (R121). -/
  | sandi (d : BitVec 6) (a : BitVec 6) (i : BitVec 12)
  /-- SORI (R121). -/
  | sori (d : BitVec 6) (a : BitVec 6) (i : BitVec 12)
  /-- SXORI (R121). -/
  | sxori (d : BitVec 6) (a : BitVec 6) (i : BitVec 12)
  /-- SSHLI (R121). -/
  | sshli (d : BitVec 6) (a : BitVec 6) (i : BitVec 6)
  /-- SSHRI (R121). -/
  | sshri (d : BitVec 6) (a : BitVec 6) (i : BitVec 6)
  /-- SSRAI (R121). -/
  | ssrai (d : BitVec 6) (a : BitVec 6) (i : BitVec 6)
  /-- SCEQI (R121). -/
  | sceqi (d : BitVec 6) (a : BitVec 6) (i : BitVec 12)
  /-- SLI (R122). -/
  | sli (d : BitVec 6) (p : BitVec 2) (i : BitVec 16)
  /-- SLIK (R122). -/
  | slik (d : BitVec 6) (p : BitVec 2) (i : BitVec 16)
  /-- SLIS (R122). -/
  | slis (d : BitVec 6) (p : BitVec 2) (i : BitVec 16)
  /-- MAND (R127). -/
  | mand (d : BitVec 4) (a : BitVec 4) (b : BitVec 4)
  /-- MOR (R127). -/
  | mor (d : BitVec 4) (a : BitVec 4) (b : BitVec 4)
  /-- MXOR (R127). -/
  | mxor (d : BitVec 4) (a : BitVec 4) (b : BitVec 4)
  /-- MANDN (R127). -/
  | mandn (d : BitVec 4) (a : BitVec 4) (b : BitVec 4)
  /-- MNOT (R127). -/
  | mnot (d : BitVec 4) (a : BitVec 4)
  /-- MMOV (R127). -/
  | mmov (d : BitVec 4) (a : BitVec 4)
  /-- MTOS (R127). -/
  | mtos (d : BitVec 6) (a : BitVec 4)
  /-- STOM (R127). -/
  | stom (d : BitVec 4) (a : BitVec 6)
  /-- MPOPC (R127). -/
  | mpopc (d : BitVec 6) (a : BitVec 4)
  /-- MFIRST (R127). -/
  | mfirst (d : BitVec 6) (a : BitVec 4)
  /-- MSLICE (R127). -/
  | mslice (d : BitVec 4) (a : BitVec 6)
  /-- SRD (R124). -/
  | srd (d : BitVec 6) (i : BitVec 12)
  /-- SWR (R124). -/
  | swr (a : BitVec 6) (i : BitVec 12)
  /-- SXCH (R124). -/
  | sxch (d : BitVec 6) (a : BitVec 6) (i : BitVec 12)
  /-- VADD (R132). -/
  | vadd (d : BitVec 8) (a : BitVec 8) (b : BitVec 8)
  /-- VSUB (R132). -/
  | vsub (d : BitVec 8) (a : BitVec 8) (b : BitVec 8)
  /-- VMUL (R132). -/
  | vmul (d : BitVec 8) (a : BitVec 8) (b : BitVec 8)
  /-- VMULH (R132). -/
  | vmulh (d : BitVec 8) (a : BitVec 8) (b : BitVec 8)
  /-- VFMA (R133). -/
  | vfma (d : BitVec 8) (a : BitVec 8) (b : BitVec 8)
  /-- VFMS (R133). -/
  | vfms (d : BitVec 8) (a : BitVec 8) (b : BitVec 8)
  /-- VFNMA (R133). -/
  | vfnma (d : BitVec 8) (a : BitVec 8) (b : BitVec 8)
  /-- VFNMS (R133). -/
  | vfnms (d : BitVec 8) (a : BitVec 8) (b : BitVec 8)
  /-- VMIN (R134). -/
  | vmin (d : BitVec 8) (a : BitVec 8) (b : BitVec 8)
  /-- VMAX (R134). -/
  | vmax (d : BitVec 8) (a : BitVec 8) (b : BitVec 8)
  /-- VADDS (R134). -/
  | vadds (d : BitVec 8) (a : BitVec 8) (b : BitVec 8)
  /-- VSUBS (R134). -/
  | vsubs (d : BitVec 8) (a : BitVec 8) (b : BitVec 8)
  /-- VAND (R135). -/
  | vand (d : BitVec 8) (a : BitVec 8) (b : BitVec 8)
  /-- VOR (R135). -/
  | vor (d : BitVec 8) (a : BitVec 8) (b : BitVec 8)
  /-- VXOR (R135). -/
  | vxor (d : BitVec 8) (a : BitVec 8) (b : BitVec 8)
  /-- VANDN (R135). -/
  | vandn (d : BitVec 8) (a : BitVec 8) (b : BitVec 8)
  /-- VSHL (R136). -/
  | vshl (d : BitVec 8) (a : BitVec 8) (b : BitVec 8)
  /-- VSHR (R136). -/
  | vshr (d : BitVec 8) (a : BitVec 8) (b : BitVec 8)
  /-- VSRA (R136). -/
  | vsra (d : BitVec 8) (a : BitVec 8) (b : BitVec 8)
  /-- VROL (R136). -/
  | vrol (d : BitVec 8) (a : BitVec 8) (b : BitVec 8)
  /-- VCMP (R139). -/
  | vcmp (c : BitVec 4) (m : BitVec 4) (a : BitVec 8) (b : BitVec 8)
  /-- VCMPN (R139). -/
  | vcmpn (c : BitVec 4) (m : BitVec 4) (a : BitVec 8) (b : BitVec 8)
  /-- VCLASS (R140). -/
  | vclass (n : BitVec 1) (m : BitVec 4) (a : BitVec 8) (s : BitVec 8)
  /-- VTEST (R141). -/
  | vtest (t : BitVec 1) (m : BitVec 4) (a : BitVec 8) (b : BitVec 8)
  /-- VSEL (R142). -/
  | vsel (d : BitVec 8) (a : BitVec 8) (b : BitVec 8)
  /-- VMOV (R142). -/
  | vmov (d : BitVec 8) (a : BitVec 8)
  /-- VNEG (R142). -/
  | vneg (d : BitVec 8) (a : BitVec 8)
  /-- VABS (R142). -/
  | vabs (d : BitVec 8) (a : BitVec 8)
  /-- VNOT (R143). -/
  | vnot (d : BitVec 8) (a : BitVec 8)
  /-- VPOPC (R143). -/
  | vpopc (d : BitVec 8) (a : BitVec 8)
  /-- VCLZ (R143). -/
  | vclz (d : BitVec 8) (a : BitVec 8)
  /-- VBREV (R143). -/
  | vbrev (d : BitVec 8) (a : BitVec 8)
  /-- VFLOOR (R143). -/
  | vfloor (d : BitVec 8) (a : BitVec 8)
  /-- VCEIL (R143). -/
  | vceil (d : BitVec 8) (a : BitVec 8)
  /-- VTRUNC (R143). -/
  | vtrunc (d : BitVec 8) (a : BitVec 8)
  /-- VRINT (R143). -/
  | vrint (d : BitVec 8) (a : BitVec 8)
  /-- VFRAC (R143). -/
  | vfrac (d : BitVec 8) (a : BitVec 8)
  /-- VSQRT (R143). -/
  | vsqrt (d : BitVec 8) (a : BitVec 8)
  /-- VRCP (R144). -/
  | vrcp (d : BitVec 8) (a : BitVec 8)
  /-- VRSQ (R144). -/
  | vrsq (d : BitVec 8) (a : BitVec 8)
  /-- VEXP2 (R144). -/
  | vexp2 (d : BitVec 8) (a : BitVec 8)
  /-- VLOG2 (R144). -/
  | vlog2 (d : BitVec 8) (a : BitVec 8)
  /-- VSIN (R144). -/
  | vsin (d : BitVec 8) (a : BitVec 8)
  /-- VCOS (R144). -/
  | vcos (d : BitVec 8) (a : BitVec 8)
  /-- VTANH (R144). -/
  | vtanh (d : BitVec 8) (a : BitVec 8)
  /-- VSIGM (R144). -/
  | vsigm (d : BitVec 8) (a : BitVec 8)
  /-- VGELU (R144). -/
  | vgelu (d : BitVec 8) (a : BitVec 8)
  /-- VERF (R144). -/
  | verf (d : BitVec 8) (a : BitVec 8)
  /-- VCVT (R146). -/
  | vcvt (d : BitVec 8) (a : BitVec 8) (s : BitVec 4) (t : BitVec 4)
  /-- VCVT_TO64 (R151). -/
  | vcvtTo64 (d : BitVec 8) (a : BitVec 8) (c : BitVec 4)
  /-- VCVT_FROM64 (R151). -/
  | vcvtFrom64 (d : BitVec 8) (a : BitVec 8) (c : BitVec 4)
  /-- VCVT_X64 (R151). -/
  | vcvtX64 (d : BitVec 8) (a : BitVec 8) (c : BitVec 4)
  /-- VPACK (R147). -/
  | vpack (d : BitVec 8) (a : BitVec 8) (s : BitVec 4) (t : BitVec 4)
  /-- VUNPKL (R148). -/
  | vunpkl (d : BitVec 8) (a : BitVec 8) (s : BitVec 4) (t : BitVec 4)
  /-- VUNPKH (R148). -/
  | vunpkh (d : BitVec 8) (a : BitVec 8) (s : BitVec 4) (t : BitVec 4)
  /-- VADDI (R137). -/
  | vaddi (d : BitVec 8) (a : BitVec 8) (i : BitVec 8)
  /-- VANDI (R137). -/
  | vandi (d : BitVec 8) (a : BitVec 8) (i : BitVec 8)
  /-- VORI (R137). -/
  | vori (d : BitVec 8) (a : BitVec 8) (i : BitVec 8)
  /-- VSHLI (R137). -/
  | vshli (d : BitVec 8) (a : BitVec 8) (i : BitVec 6)
  /-- VMULI (R137). -/
  | vmuli (d : BitVec 8) (a : BitVec 8) (i : BitVec 8)
  /-- VSHRI (R137). -/
  | vshri (d : BitVec 8) (a : BitVec 8) (i : BitVec 6)
  /-- VSRAI (R137). -/
  | vsrai (d : BitVec 8) (a : BitVec 8) (i : BitVec 6)
  /-- VCMPI (R139). -/
  | vcmpi (c : BitVec 4) (m : BitVec 4) (a : BitVec 8) (i : BitVec 8)
  /-- VXORL (R153). -/
  | vxorl (d : BitVec 8) (a : BitVec 8) (m : BitVec 4) (k : BitVec 4)
  /-- VROTL (R153). -/
  | vrotl (d : BitVec 8) (a : BitVec 8) (m : BitVec 4) (k : BitVec 4)
  /-- VBCL (R153). -/
  | vbcl (d : BitVec 8) (a : BitVec 8) (m : BitVec 4) (k : BitVec 4)
  /-- VLSTEP (R153). -/
  | vlstep (d : BitVec 8) (a : BitVec 8) (m : BitVec 4) (k : BitVec 4)
  /-- VSCAN (R154). -/
  | vscan (d : BitVec 8) (a : BitVec 8) (m : BitVec 4) (o : BitVec 4)
  /-- VREDS (R154). -/
  | vreds (d : BitVec 6) (a : BitVec 8) (m : BitVec 4) (o : BitVec 4)
  /-- VVOTE (R155). -/
  | vvote (d : BitVec 6) (a : BitVec 4) (m : BitVec 4) (o : BitVec 4)
  /-- VMATCH (R155). -/
  | vmatch (d : BitVec 4) (a : BitVec 8) (m : BitVec 4) (o : BitVec 4)
  /-- VDIV (R138). -/
  | vdiv (d : BitVec 8) (a : BitVec 8) (b : BitVec 8)
  /-- VDOT4 (R138). -/
  | vdot4 (d : BitVec 8) (a : BitVec 8) (b : BitVec 8)
  /-- VADDC (R138). -/
  | vaddc (d : BitVec 8) (a : BitVec 8) (b : BitVec 8)
  /-- VMULW (R138). -/
  | vmulw (d : BitVec 8) (a : BitVec 8) (b : BitVec 8)
  /-- VRNG (R157). -/
  | vrng (d : BitVec 8) (a : BitVec 8) (b : BitVec 8)
  /-- VDROP (R157). -/
  | vdrop (d : BitVec 8) (a : BitVec 8) (b : BitVec 8)
  /-- VBCST (R157). -/
  | vbcst (d : BitVec 8) (a : BitVec 6)
  /-- VLANE (R157). -/
  | vlane (d : BitVec 8)
  /-- LD (R261). -/
  | ld (d : BitVec 8) (x : BitVec 8) (b : BitVec 4) (f : BitVec 4)
  /-- LDA (R261). -/
  | lda (d : BitVec 8) (x : BitVec 8) (b : BitVec 4) (f : BitVec 4)
  /-- LDW (R261). -/
  | ldw (d : BitVec 8) (x : BitVec 8) (b : BitVec 4) (f : BitVec 4)
  /-- LDNT (R261). -/
  | ldnt (d : BitVec 8) (x : BitVec 8) (b : BitVec 4) (f : BitVec 4)
  /-- ST (R261). -/
  | st (d : BitVec 8) (x : BitVec 8) (b : BitVec 4) (f : BitVec 4)
  /-- STL (R261). -/
  | stl (d : BitVec 8) (x : BitVec 8) (b : BitVec 4) (f : BitVec 4)
  /-- STW (R261). -/
  | stw (d : BitVec 8) (x : BitVec 8) (b : BitVec 4) (f : BitVec 4)
  /-- STNT (R261). -/
  | stnt (d : BitVec 8) (x : BitVec 8) (b : BitVec 4) (f : BitVec 4)
  /-- LDB (R261). -/
  | ldb (d : BitVec 8) (x : BitVec 8) (b : BitVec 4) (f : BitVec 4)
  /-- LDBS (R261). -/
  | ldbs (d : BitVec 8) (x : BitVec 8) (b : BitVec 4) (f : BitVec 4)
  /-- LDH (R261). -/
  | ldh (d : BitVec 8) (x : BitVec 8) (b : BitVec 4) (f : BitVec 4)
  /-- LDHS (R261). -/
  | ldhs (d : BitVec 8) (x : BitVec 8) (b : BitVec 4) (f : BitVec 4)
  /-- STB (R261). -/
  | stb (d : BitVec 8) (x : BitVec 8) (b : BitVec 4) (f : BitVec 4)
  /-- STH (R261). -/
  | sth (d : BitVec 8) (x : BitVec 8) (b : BitVec 4) (f : BitVec 4)
  /-- LDD (R261). -/
  | ldd (d : BitVec 8) (x : BitVec 8) (b : BitVec 4) (f : BitVec 4)
  /-- STD (R261). -/
  | std (d : BitVec 8) (x : BitVec 8) (b : BitVec 4) (f : BitVec 4)
  /-- LDF (R263). -/
  | ldf (d : BitVec 8) (x : BitVec 8) (b : BitVec 4) (f : BitVec 4)
  /-- LDF2 (R263). -/
  | ldf2 (d : BitVec 8) (x : BitVec 8) (b : BitVec 4) (f : BitVec 4)
  /-- LDFS (R263). -/
  | ldfs (d : BitVec 8) (x : BitVec 8) (b : BitVec 4) (f : BitVec 4)
  /-- LDFX (R263). -/
  | ldfx (d : BitVec 8) (x : BitVec 8) (b : BitVec 4) (f : BitVec 4)
  /-- LDS (R262). -/
  | lds (d : BitVec 8) (x : BitVec 8) (b : BitVec 4) (f : BitVec 4)
  /-- STS (R262). -/
  | sts (d : BitVec 8) (x : BitVec 8) (b : BitVec 4) (f : BitVec 4)
  /-- LDP (R262). -/
  | ldp (d : BitVec 8) (x : BitVec 8) (b : BitVec 4) (f : BitVec 4)
  /-- STP (R262). -/
  | stp (d : BitVec 8) (x : BitVec 8) (b : BitVec 4) (f : BitVec 4)
  /-- ATOM_ADD (R264). -/
  | atomAdd (d : BitVec 8) (x : BitVec 8) (b : BitVec 4) (f : BitVec 4)
  /-- ATOM_MIN (R264). -/
  | atomMin (d : BitVec 8) (x : BitVec 8) (b : BitVec 4) (f : BitVec 4)
  /-- ATOM_MAX (R264). -/
  | atomMax (d : BitVec 8) (x : BitVec 8) (b : BitVec 4) (f : BitVec 4)
  /-- ATOM_XCHG (R264). -/
  | atomXchg (d : BitVec 8) (x : BitVec 8) (b : BitVec 4) (f : BitVec 4)
  /-- ATOM_AND (R264). -/
  | atomAnd (d : BitVec 8) (x : BitVec 8) (b : BitVec 4) (f : BitVec 4)
  /-- ATOM_OR (R264). -/
  | atomOr (d : BitVec 8) (x : BitVec 8) (b : BitVec 4) (f : BitVec 4)
  /-- ATOM_XOR (R264). -/
  | atomXor (d : BitVec 8) (x : BitVec 8) (b : BitVec 4) (f : BitVec 4)
  /-- ATOM_CAS (R264). -/
  | atomCas (d : BitVec 8) (x : BitVec 8) (b : BitVec 4) (f : BitVec 4)
  /-- ATOM_FADD (R264). -/
  | atomFadd (d : BitVec 8) (x : BitVec 8) (b : BitVec 4) (f : BitVec 4)
  /-- ATOM_FMIN (R264). -/
  | atomFmin (d : BitVec 8) (x : BitVec 8) (b : BitVec 4) (f : BitVec 4)
  /-- ATOM_FMAX (R264). -/
  | atomFmax (d : BitVec 8) (x : BitVec 8) (b : BitVec 4) (f : BitVec 4)
  /-- ATOM_INC (R264). -/
  | atomInc (d : BitVec 8) (x : BitVec 8) (b : BitVec 4) (f : BitVec 4)
  /-- RED_ADD (R264). -/
  | redAdd (d : BitVec 8) (x : BitVec 8) (b : BitVec 4) (f : BitVec 4)
  /-- RED_MIN (R264). -/
  | redMin (d : BitVec 8) (x : BitVec 8) (b : BitVec 4) (f : BitVec 4)
  /-- RED_MAX (R264). -/
  | redMax (d : BitVec 8) (x : BitVec 8) (b : BitVec 4) (f : BitVec 4)
  /-- RED_FADD (R264). -/
  | redFadd (d : BitVec 8) (x : BitVec 8) (b : BitVec 4) (f : BitVec 4)
  /-- RED_AND (R264). -/
  | redAnd (d : BitVec 8) (x : BitVec 8) (b : BitVec 4) (f : BitVec 4)
  /-- RED_OR (R264). -/
  | redOr (d : BitVec 8) (x : BitVec 8) (b : BitVec 4) (f : BitVec 4)
  /-- RED_XOR (R264). -/
  | redXor (d : BitVec 8) (x : BitVec 8) (b : BitVec 4) (f : BitVec 4)
  /-- RED_FMAX (R264). -/
  | redFmax (d : BitVec 8) (x : BitVec 8) (b : BitVec 4) (f : BitVec 4)
  /-- SLD (R267). -/
  | sld (d : BitVec 6) (a : BitVec 6) (i : BitVec 12)
  /-- SLDA (R267). -/
  | slda (d : BitVec 6) (a : BitVec 6) (i : BitVec 12)
  /-- SST (R267). -/
  | sst (d : BitVec 6) (a : BitVec 6) (i : BitVec 12)
  /-- SSTL (R267). -/
  | sstl (d : BitVec 6) (a : BitVec 6) (i : BitVec 12)
  /-- SATOM_ADD (R268). -/
  | satomAdd (d : BitVec 6) (a : BitVec 6) (b : BitVec 6) (o : BitVec 2)
  /-- SATOM_MIN (R268). -/
  | satomMin (d : BitVec 6) (a : BitVec 6) (b : BitVec 6) (o : BitVec 2)
  /-- SATOM_MAX (R268). -/
  | satomMax (d : BitVec 6) (a : BitVec 6) (b : BitVec 6) (o : BitVec 2)
  /-- SATOM_XCHG (R268). -/
  | satomXchg (d : BitVec 6) (a : BitVec 6) (b : BitVec 6) (o : BitVec 2)
  /-- SATOM_AND (R268). -/
  | satomAnd (d : BitVec 6) (a : BitVec 6) (b : BitVec 6) (o : BitVec 2)
  /-- SATOM_OR (R268). -/
  | satomOr (d : BitVec 6) (a : BitVec 6) (b : BitVec 6) (o : BitVec 2)
  /-- SATOM_XOR (R268). -/
  | satomXor (d : BitVec 6) (a : BitVec 6) (b : BitVec 6) (o : BitVec 2)
  /-- SATOM_CAS (R268). -/
  | satomCas (d : BitVec 6) (a : BitVec 6) (b : BitVec 6) (o : BitVec 2)
  /-- SATOM_FADD (R268). -/
  | satomFadd (d : BitVec 6) (a : BitVec 6) (b : BitVec 6) (o : BitVec 2)
  /-- SATOM_FMIN (R268). -/
  | satomFmin (d : BitVec 6) (a : BitVec 6) (b : BitVec 6) (o : BitVec 2)
  /-- SATOM_FMAX (R268). -/
  | satomFmax (d : BitVec 6) (a : BitVec 6) (b : BitVec 6) (o : BitVec 2)
  /-- SATOM_INC (R268). -/
  | satomInc (d : BitVec 6) (a : BitVec 6) (b : BitVec 6) (o : BitVec 2)
  /-- SATOM_MINN (R268). -/
  | satomMinn (d : BitVec 6) (a : BitVec 6) (b : BitVec 6) (o : BitVec 2)
  /-- SATOM_MAXN (R268). -/
  | satomMaxn (d : BitVec 6) (a : BitVec 6) (b : BitVec 6) (o : BitVec 2)
  /-- FENCE (R270). -/
  | fence (s : BitVec 3)
  /-- FENCE_ENG (R271). -/
  | fenceEng (s : BitVec 3)
  /-- PREF (R273). -/
  | pref (a : BitVec 6) (l : BitVec 2)
  /-- LEASE (R273). -/
  | lease (a : BitVec 6) (n : BitVec 4)
  /-- WBR (R274). -/
  | wbr (s : BitVec 3) (a : BitVec 6) (b : BitVec 6)
  /-- DRAIN (R275). -/
  | drain (s : BitVec 3)
  /-- MMA (R182). -/
  | mma (c : BitVec 5) (a : BitVec 6) (b : BitVec 6) (n : BitVec 1) (t : BitVec 1) (s : BitVec 1) (f : BitVec 4)
  /-- WLOAD (R183). -/
  | wload (d : BitVec 6) (a : BitVec 6) (f : BitVec 4)
  /-- WLOADW (R183). -/
  | wloadw (d : BitVec 6) (a : BitVec 6) (f : BitVec 4)
  /-- WCLR (R184). -/
  | wclr (d : BitVec 6)
  /-- MCOMP_S24 (R185). -/
  | mcompS24 (d : BitVec 6) (a : BitVec 6) (f : BitVec 4)
  /-- MCOMP_S48 (R185). -/
  | mcompS48 (d : BitVec 6) (a : BitVec 6) (f : BitVec 4)
  /-- ACCZ (R186). -/
  | accz (d : BitVec 5)
  /-- ACCRD (R187). -/
  | accrd (d : BitVec 5) (a : BitVec 6) (b : BitVec 6) (f : BitVec 4)
  /-- ACCWR (R188). -/
  | accwr (d : BitVec 5) (a : BitVec 6) (b : BitVec 6) (f : BitVec 4)
  /-- ACCCHK (R189). -/
  | accchk (d : BitVec 5)
  /-- LAYER (R196). -/
  | layer (a : BitVec 6)
  /-- DMMA (R203). -/
  | dmma (d : BitVec 5) (a : BitVec 6) (b : BitVec 6) (f : BitVec 4)
  /-- DREFRESH (R203). -/
  | drefresh (d : BitVec 5) (a : BitVec 6) (b : BitVec 6) (f : BitVec 4)
  /-- DINVAL (R207). -/
  | dinval (a : BitVec 6) (b : BitVec 6)
  /-- DSTAT (R208). -/
  | dstat (d : BitVec 6) (a : BitVec 6)
  /-- ACOPY (R295). -/
  | acopy (d : BitVec 6) (a : BitVec 6) (b : BitVec 6) (f : BitVec 4)
  /-- AGATH (R295). -/
  | agath (d : BitVec 6) (a : BitVec 6) (b : BitVec 6) (f : BitVec 4)
  /-- ASCAT (R295). -/
  | ascat (d : BitVec 6) (a : BitVec 6) (b : BitVec 6) (f : BitVec 4)
  /-- AFILL (R295). -/
  | afill (d : BitVec 6) (a : BitVec 6) (b : BitVec 6) (f : BitVec 4)
  /-- RTKT (R340). -/
  | rtkt (d : BitVec 6) (a : BitVec 6)
  /-- RFILL (R340). -/
  | rfill (a : BitVec 6) (b : BitVec 6)
  /-- RHEAD (R340). -/
  | rhead (d : BitVec 6) (a : BitVec 6) (b : BitVec 6)
  /-- POST (R341). -/
  | post (a : BitVec 6)
  /-- POSTN (R341). -/
  | postn (a : BitVec 6)
  /-- WALK (R343). -/
  | walk (d : BitVec 6)
  /-- WDONE (R344). -/
  | wdone (a : BitVec 6)
  /-- EPHRD (R342). -/
  | ephrd (d : BitVec 6) (b : BitVec 6)
  /-- EPHWR (R342). -/
  | ephwr (a : BitVec 6) (b : BitVec 6)
  /-- EPHCOMMIT (R311). -/
  | ephcommit (d : BitVec 6)
  /-- COVQ (R345). -/
  | covq (d : BitVec 6) (a : BitVec 6)
  /-- BARINIT (R330). -/
  | barinit (a : BitVec 6) (b : BitVec 6)
  /-- BARARR (R331). -/
  | bararr (a : BitVec 6)
  /-- BAREXP (R330). -/
  | barexp (a : BitVec 6) (b : BitVec 6)
  /-- BARWAIT (R331). -/
  | barwait (n : BitVec 1) (a : BitVec 6) (b : BitVec 6)
  /-- BARTRY (R330). -/
  | bartry (d : BitVec 6) (a : BitVec 6) (b : BitVec 6)
  /-- WATCH (R335). -/
  | watch (d : BitVec 6) (a : BitVec 6) (b : BitVec 6)
  /-- UNWATCH (R337). -/
  | unwatch (a : BitVec 6) (b : BitVec 6)
  /-- CLAIM (R339). -/
  | claim (a : BitVec 6)
  /-- GIVE (R339). -/
  | give (a : BitVec 6)
  /-- POOLQ (R339). -/
  | poolq (d : BitVec 6)
  /-- AMSG (R346). -/
  | amsg (d : BitVec 6) (a : BitVec 6) (b : BitVec 6)
  /-- ABUMP (R347). -/
  | abump (d : BitVec 6) (a : BitVec 6) (b : BitVec 6)
  /-- SVC (R368). -/
  | svc (d : BitVec 6) (a : BitVec 6)
  /-- TRAP (R369). -/
  | trap (a : BitVec 6)
  /-- ERET (R370). -/
  | eret (a : BitVec 6) (b : BitVec 6)
  /-- TLBINV (R371). -/
  | tlbinv (a : BitVec 6) (b : BitVec 6)
  /-- TLBINVA (R371). -/
  | tlbinva (a : BitVec 6)
  /-- HALTG (R372). -/
  | haltg (a : BitVec 6)
  /-- WAKEG (R372). -/
  | wakeg (a : BitVec 6)
  /-- RET (R324). -/
  | ret
  /-- EXIT (R326). -/
  | exit
  /-- YIELD (R327). -/
  | yield
  /-- NOP (R79). -/
  | nop
  /-- FENCE_IO (R272). -/
  | fenceIo
  /-- BARARR_GRID (R332). -/
  | bararrGrid
  /-- BARWAIT_GRID (R332). -/
  | barwaitGrid
  /-- ILLEGAL (R80). -/
  | illegal
  /-- STALLED_WORD_ISSUE (R65). -/
  | stalledWordIssue (core : Nat) (slot : Nat) (slice : Nat)
  /-- INSTRUCTION_FETCH (R221). -/
  | instructionFetch (core : Nat) (slot : Nat) (va : Nat)
  /-- PAGE_WALK (R357). -/
  | pageWalk (core : Nat) (tenant : Nat) (va : Nat)
  /-- FIFO_ENTRY_DRAIN (R229). -/
  | fifoEntryDrain (core : Nat)
  /-- HOME_STORE (R228). -/
  | homeStore (core : Nat) (item : Nat)
  /-- STORE_ACKNOWLEDGE (R229). -/
  | storeAcknowledge (core : Nat) (item : Nat)
  /-- RELEASE_SEND (R230). -/
  | releaseSend (op : Nat)
  /-- HOME_LEASE_GRANT (R231). -/
  | homeLeaseGrant (op : Nat) (line : Nat)
  /-- LINE_FILL (R231). -/
  | lineFill (op : Nat) (line : Nat) (lo : LaneMask) (hi : LaneMask)
  /-- HOME_ATOMIC (R237). -/
  | homeAtomic (op : Nat) (line : Nat)
  /-- ATOMIC_ACKNOWLEDGE (R237). -/
  | atomicAcknowledge (op : Nat) (line : Nat)
  /-- WRITE_BACK (R219). -/
  | writeBack (core : Nat) (item : Nat)
  /-- HOME_EVICT (R241). -/
  | homeEvict (line : Nat)
  /-- DRAM_REFILL (R241). -/
  | dramRefill (line : Nat)
  /-- REBASE (R242). -/
  | rebase
  /-- WATCH_ARRIVAL (R336). -/
  | watchArrival (block : Nat) (offset : Nat)
  /-- PEER_SCRATCHPAD_ACCESS (R218). -/
  | peerScratchpadAccess (op : Nat) (lo : LaneMask) (hi : LaneMask)
  /-- BARWAIT_WAKE (R331). -/
  | barwaitWake (core : Nat) (slot : Nat) (slice : Nat)
  /-- CORE_UNGATE (R318). -/
  | coreUngate (core : Nat)
  /-- CLAIM_GRANT (R41). -/
  | claimGrant (core : Nat) (slot : Nat) (slice : Nat)
  /-- GANG_END (R33). -/
  | gangEnd (core : Nat) (slot : Nat)
  /-- BLOCK_END (R33). -/
  | blockEnd (block : Nat)
  /-- PHASE_END (R48). -/
  | phaseEnd (block : Nat)
  /-- PHASE_REDISPATCH (R47). -/
  | phaseRedispatch (launch : Nat) (core : Nat)
  /-- LAUNCH (R377). -/
  | launch (t : Nat) (q : Nat) (va : Nat)
  /-- LAUNCH_WINDOW_STATUS_WRITE (R377). -/
  | launchWindowStatusWrite (t : Nat) (q : Nat) (v : Nat)
  /-- LAUNCH_ADMIT (R301). -/
  | launchAdmit (t : Nat) (q : Nat)
  /-- BLOCK_DISPATCH (R30). -/
  | blockDispatch (launch : Nat) (cores : List Nat)
  /-- COMPLETION_RECORD_WRITE (R302). -/
  | completionRecordWrite (launch : Nat)
  /-- TASK_DISPATCH (R306). -/
  | taskDispatch (job : Nat) (core : Nat)
  /-- OVERFLOW_RING_MOVE (R308). -/
  | overflowRingMove (tenant : Nat) (cluster : Nat)
  /-- ENGINE_COMMAND_START (R288). -/
  | engineCommandStart (core : Nat) (cmd : Nat)
  /-- GRANULE_LAND (R278). -/
  | granuleLand (core : Nat) (cmd : Nat)
  /-- MATRIX_OP_START (R178). -/
  | matrixOpStart (core : Nat) (op : Nat)
  /-- ROW_BUFFER_STAGE (R175). -/
  | rowBufferStage (core : Nat) (op : Nat) (step : Nat)
  /-- KSTEP_PLANES (R174). -/
  | kstepPlanes (core : Nat) (op : Nat) (step : Nat)
  /-- ACCUMULATOR_ADD (R176). -/
  | accumulatorAdd (core : Nat) (op : Nat)
  /-- UMBRA_ENTRY_TRANSFER (R194). -/
  | umbraEntryTransfer (tenant : Nat) (layer : Nat) (key : Nat)
  /-- DEFERRED_FAULT_TAKEN (R178). -/
  | deferredFaultTaken (core : Nat) (slot : Nat)
  /-- WEIGHT_STORE_WINDOW_CLOSE (R199). -/
  | weightStoreWindowClose
  /-- NETWORK_ARBITRATION (R319). -/
  | networkArbitration (port : Nat)
  /-- LINK_RESEND (R397). -/
  | linkResend (die : Nat) (stop : Nat) (times : Nat)
  /-- HOST_READ (R248). -/
  | hostRead (line : Nat) (own : Bool)
  /-- HOST_WRITE (R248). -/
  | hostWrite (line : Nat) (mask : LaneMask) (data : Line)
  /-- BACK_INVALIDATE (R247). -/
  | backInvalidate (line : Nat) (mask : LaneMask) (data : Line)
  /-- BIAS_FLIP (R381). -/
  | biasFlip (v : Nat)
  /-- BIAS_FLIP_COMPLETE (R381). -/
  | biasFlipComplete
  /-- HREQ (R376). -/
  | hreq (v : Nat)
  /-- TIER_WINDOW_WRITE (R382). -/
  | tierWindowWrite (port : Nat) (size : Bool) (v : Nat)
  /-- BAR0_REGISTER_WRITE (R376). -/
  | bar0RegisterWrite (off : Nat) (v : Nat)
  /-- WEIGHT_STORE_COMMAND (R378). -/
  | weightStoreCommand (v : Nat)
  /-- WEIGHT_STORE_WRITE_DONE (R198). -/
  | weightStoreWriteDone
  /-- PEER_REQUEST_RECEIVE (R383). -/
  | peerRequestReceive (source : Nat) (addr : Nat) (size : Nat) (kind : Nat) (mode : Nat) (data : Nat) (cmp : Nat)
  /-- FABRIC_RESEND (R384). -/
  | fabricResend (op : Nat)
  /-- FABRIC_TIMEOUT (R384). -/
  | fabricTimeout (op : Nat) (line : Nat)
  /-- ACTIVE_MESSAGE_RECEIVE (R386). -/
  | activeMessageReceive (t : Nat) (cluster : Nat) (n : Nat) (source : Nat) (from_ : Nat) (payload : List Byte)
  /-- ACTIVE_MESSAGE_ANSWER (R346). -/
  | activeMessageAnswer (op : Nat) (status : Nat)
  /-- HANDLER_DISPATCH (R387). -/
  | handlerDispatch (job : Nat) (core : Nat)
  /-- MESSAGE_RING_DRAIN (R386). -/
  | messageRingDrain (t : Nat)
  /-- PREEMPT_SAVE (R364). -/
  | preemptSave
  /-- PREEMPT_RESTORE (R363). -/
  | preemptRestore (prefs : List Nat)
  /-- TCTL_OFF (R355). -/
  | tctlOff (t : Nat)
  /-- TCTL_RUN (R355). -/
  | tctlRun (t : Nat)
  /-- TCTL_SUSPEND (R355). -/
  | tctlSuspend (t : Nat)
  /-- TCTL_TEARDOWN (R355). -/
  | tctlTeardown (t : Nat)
  /-- TEARDOWN_COMPLETE (R355). -/
  | teardownComplete (t : Nat)
  /-- TROOT_WRITE (R354). -/
  | trootWrite (t : Nat) (v : Nat)
  /-- UMBRA_REGION_WRITE (R354). -/
  | umbraRegionWrite (t : Nat) (size : Bool) (v : Nat)
  /-- FLOGPTR_WRITE (R354). -/
  | flogptrWrite (t : Nat) (v : Nat)
  /-- FORMAT_WINDOW_WRITE (R114). -/
  | formatWindowWrite (w : Nat) (r : Nat) (v : Nat)
  /-- GETINFO (R416). -/
  | getinfo
  /-- SETCAP (R415). -/
  | setcap
  /-- GETPOWER (R416). -/
  | getpower
  /-- SETWDOG (R415). -/
  | setwdog
  /-- LOADSUP (R409). -/
  | loadsup
  /-- GETLOG (R416). -/
  | getlog
  /-- GETCERT (R411). -/
  | getcert
  /-- QUOTE (R411). -/
  | quote
  /-- GETERR (R416). -/
  | geterr
  /-- DIECNT (R416). -/
  | diecnt
  /-- DIERD (R416). -/
  | dierd
  /-- STANDBY (R415). -/
  | standby
  /-- WAKE (R413). -/
  | wake
  /-- RESET (R414). -/
  | reset (fw : Nat) (sup : Nat)
  /-- MAILBOX_STATUS_WRITE (R415). -/
  | mailboxStatusWrite (v : Nat)
  /-- COLD_RESET (R414). -/
  | coldReset (fw : Nat) (sup : Nat)
  /-- POWER_REMOVAL (R413). -/
  | powerRemoval
  /-- CLOCK_STEP_CHANGE (R412). -/
  | clockStepChange (step : Nat)
  /-- CURRENT_LIMIT (R412). -/
  | currentLimit (step : Nat)
  /-- IDLE_ENTRY (R413). -/
  | idleEntry
  /-- HBM_SELF_REFRESH (R413). -/
  | hbmSelfRefresh
  /-- WATCHDOG_EXPIRY (R408). -/
  | watchdogExpiry (core : Nat)
  /-- SUPERVISOR_RESTART (R407). -/
  | supervisorRestart (core : Nat)
  /-- ROOT_OF_TRUST_FAILURE (R408). -/
  | rootOfTrustFailure
  /-- PEER_ACCESS_ANSWER (R385). -/
  | peerAccessAnswer (op : Nat) (line : Nat) (refused : Bool) (poison : Bool) (data : Line)
  deriving DecidableEq, Repr

end Sys2Proof
end

