-- ==== Sys2Proof/WellFormed.lean ====
section
/-! DEFINITION. Well-formed instructions: what R57, R64, R73 and R78 demand of a word's fields alone.  An
instruction that is not well-formed raises ILLEGAL (R80), but for a header, which falls under the run rules. -/

namespace Sys2Proof

/-- Whether a vector operand code names a register that a class L form may write: no T register (R64). -/
def vDest (d : BitVec 8) : Bool := decide (d.toNat < 248)

/-- Whether a code is even: the first of a pair (R60). -/
def evenCode (d : BitVec 8) : Bool := d.toNat % 2 == 0

/-- Bits per element of a storage code from 0 to 15 (R98). -/
def storageBits (c : Nat) : Nat :=
  if c = 0 ∨ c = 8 ∨ c = 9 then 32
  else if c = 1 ∨ c = 2 ∨ c = 10 ∨ c = 11 then 16
  else if c = 3 ∨ c = 4 ∨ c = 7 ∨ c = 12 ∨ c = 13 then 8
  else 4

/-- Whether `n` registers from a code stay within V0 to V247 or within T0 to T7 (R149). -/
def rangeFits (c n : Nat) : Bool := if 248 ≤ c then decide (c + n ≤ 256) else decide (c + n ≤ 248)

/-- Whether a SETMODE value holds no reserved value (R71, R73). -/
def setmodeOk (i : BitVec 18) : Bool :=
  decide (i.toNat % 16 ≤ 13) && decide (i.toNat / 256 % 8 ≤ 4) && decide (i.toNat / 4096 % 8 ≤ 4)

/-- Whether a state-register index is listed (R74, R353). -/
def regListed (i : Nat) : Bool :=
  decide (i ≤ 0x12) || (decide (0x20 ≤ i) && decide (i ≤ 0x27)) || (decide (0x30 ≤ i) && decide (i ≤ 0x3F)) ||
    (decide (0x800 ≤ i) && decide (i < 0xC00) && decide (i % 0x40 ≤ 0x11)) ||
    (decide (0xC00 ≤ i) && decide (i < 0xC40)) || (decide (0xE00 ≤ i) && decide (i ≤ 0xE02))

/-- Whether a listed state register may be written (R74, R353). -/
def regWritable (i : Nat) : Bool :=
  regListed i && (decide (i ≤ 1) || i == 0xB || decide (i = 0xD) || i == 0xE || i == 0x11 ||
    (decide (0x30 ≤ i) && decide (i ≤ 0x3F)) || (decide (0x800 ≤ i) && decide (i ≤ 0xE00)))

/-- Whether an instruction is well-formed. -/
def wellFormed : Instr → Bool
  | .hdr l _ _ => decide (1 ≤ l.toNat) && decide (l.toNat ≤ 24)
  | .setmode i => setmodeOk i
  | .br c _ => decide (c.toNat < 8)
  | .brNever _ => true
  | .call _ => true
  | .jmp _ => true
  | .callr _ => true
  | .ret => true
  | .regang _ => true
  | .exit => true
  | .yield => true
  | .nop => true
  | .sadd _ _ _ => true
  | .ssub _ _ _ => true
  | .smul _ _ _ => true
  | .smulh _ _ _ => true
  | .smulhn _ _ _ => true
  | .sdiv _ _ _ => true
  | .sdivn _ _ _ => true
  | .srem _ _ _ => true
  | .sremn _ _ _ => true
  | .sand _ _ _ => true
  | .sor _ _ _ => true
  | .sxor _ _ _ => true
  | .sandn _ _ _ => true
  | .sshl _ _ _ => true
  | .sshr _ _ _ => true
  | .ssra _ _ _ => true
  | .srol _ _ _ => true
  | .smin _ _ _ => true
  | .smax _ _ _ => true
  | .sminn _ _ _ => true
  | .smaxn _ _ _ => true
  | .sceq _ _ _ => true
  | .scne _ _ _ => true
  | .sclt _ _ _ => true
  | .scle _ _ _ => true
  | .scltn _ _ _ => true
  | .sclen _ _ _ => true
  | .ssel _ _ _ => true
  | .spopc _ _ => true
  | .sclz _ _ => true
  | .sctz _ _ => true
  | .sbrev _ _ => true
  | .sextb _ _ => true
  | .sexth _ _ => true
  | .sextw _ _ => true
  | .saddi _ _ _ => true
  | .sandi _ _ _ => true
  | .sori _ _ _ => true
  | .sxori _ _ _ => true
  | .sshli _ _ _ => true
  | .sshri _ _ _ => true
  | .ssrai _ _ _ => true
  | .sceqi _ _ _ => true
  | .sli _ _ _ => true
  | .slik _ _ _ => true
  | .slis _ _ _ => true
  | .mand _ _ _ => true
  | .mor _ _ _ => true
  | .mxor _ _ _ => true
  | .mandn _ _ _ => true
  | .mnot _ _ => true
  | .mmov _ _ => true
  | .mtos _ _ => true
  | .stom _ _ => true
  | .mpopc _ _ => true
  | .mfirst _ _ => true
  | .mslice _ _ => true
  | .srd _ i => regListed i.toNat
  | .swr _ i => regWritable i.toNat
  | .sxch _ _ i => regWritable i.toNat
  | .vadd _ _ _ => true
  | .vsub _ _ _ => true
  | .vmul _ _ _ => true
  | .vmulh _ _ _ => true
  | .vfma _ _ _ => true
  | .vfms _ _ _ => true
  | .vfnma _ _ _ => true
  | .vfnms _ _ _ => true
  | .vmin _ _ _ => true
  | .vmax _ _ _ => true
  | .vadds _ _ _ => true
  | .vsubs _ _ _ => true
  | .vand _ _ _ => true
  | .vor _ _ _ => true
  | .vxor _ _ _ => true
  | .vandn _ _ _ => true
  | .vshl _ _ _ => true
  | .vshr _ _ _ => true
  | .vsra _ _ _ => true
  | .vrol _ _ _ => true
  | .vcmp c _ _ _ => decide (c.toNat < 8)
  | .vcmpn c _ _ _ => decide (c.toNat < 6)
  | .vclass _ _ _ _ => true
  | .vtest _ _ _ _ => true
  | .vsel _ _ _ => true
  | .vmov _ _ => true
  | .vneg _ _ => true
  | .vabs _ _ => true
  | .vnot _ _ => true
  | .vpopc _ _ => true
  | .vclz _ _ => true
  | .vbrev _ _ => true
  | .vfloor _ _ => true
  | .vceil _ _ => true
  | .vtrunc _ _ => true
  | .vrint _ _ => true
  | .vfrac _ _ => true
  | .vsqrt _ _ => true
  | .vrcp _ _ => true
  | .vrsq _ _ => true
  | .vexp2 _ _ => true
  | .vlog2 _ _ => true
  | .vsin _ _ => true
  | .vcos _ _ => true
  | .vtanh _ _ => true
  | .vsigm _ _ => true
  | .vgelu _ _ => true
  | .verf _ _ => true
  | .vcvt _ _ s t => s != t && !((s == 0 || s == 8 || s == 9) && decide (t.toNat ≤ 2))
  | .vcvtTo64 _ _ c => c == 0 || c == 8 || c == 9
  | .vcvtFrom64 _ _ c => c == 0 || c == 8 || c == 9
  | .vcvtX64 _ _ c => c == 0 || c == 8 || c == 9
  | .vpack _ a s t => decide (storageBits t.toNat < storageBits s.toNat) && rangeFits a.toNat (storageBits s.toNat / storageBits t.toNat)
  | .vunpkl d _ s t => decide (storageBits s.toNat < storageBits t.toNat) && rangeFits d.toNat (storageBits t.toNat / storageBits s.toNat / 2)
  | .vunpkh d _ s t => decide (storageBits s.toNat < storageBits t.toNat) && rangeFits d.toNat (storageBits t.toNat / storageBits s.toNat / 2)
  | .vaddi _ _ _ => true
  | .vandi _ _ _ => true
  | .vori _ _ _ => true
  | .vshli _ _ _ => true
  | .vmuli _ _ _ => true
  | .vshri _ _ _ => true
  | .vsrai _ _ _ => true
  | .vcmpi c _ _ _ => decide (c.toNat < 6)
  | .vxorl _ _ _ k => decide (k.toNat ≤ 6)
  | .vrotl _ _ _ k => decide (k.toNat ≤ 6)
  | .vbcl _ _ _ k => decide (k.toNat ≤ 6)
  | .vlstep _ _ _ k => decide (k.toNat ≤ 6)
  | .vscan _ _ _ o => decide (o.toNat < 6)
  | .vreds _ _ _ o => decide (o.toNat < 6)
  | .vvote _ _ _ o => decide (o.toNat < 4)
  | .vmatch _ _ _ o => decide (o.toNat < 2)
  | .vdiv _ _ _ => true
  | .vdot4 _ _ _ => true
  | .vaddc _ _ _ => true
  | .vmulw d _ _ => evenCode d
  | .vrng _ _ _ => true
  | .vdrop _ _ _ => true
  | .vbcst _ _ => true
  | .vlane _ => true
  | .ld d _ _ _ => vDest d
  | .lda d _ _ _ => vDest d
  | .ldw d _ _ _ => vDest d
  | .ldnt d _ _ _ => vDest d
  | .st _ _ _ _ => true
  | .stl _ _ _ _ => true
  | .stw _ _ _ _ => true
  | .stnt _ _ _ _ => true
  | .ldb d _ _ _ => vDest d
  | .ldbs d _ _ _ => vDest d
  | .ldh d _ _ _ => vDest d
  | .ldhs d _ _ _ => vDest d
  | .stb _ _ _ _ => true
  | .sth _ _ _ _ => true
  | .ldd d _ _ _ => vDest d && evenCode d
  | .std d _ _ _ => evenCode d
  | .ldf d _ _ _ => vDest d
  | .ldf2 d _ _ _ => vDest d
  | .ldfs d _ _ _ => vDest d
  | .ldfx d _ _ _ => vDest d
  | .lds d _ _ _ => vDest d
  | .sts _ _ _ _ => true
  | .ldp d _ _ _ => vDest d
  | .stp _ _ _ _ => true
  | .atomAdd d _ _ _ => vDest d
  | .atomMin d _ _ _ => vDest d
  | .atomMax d _ _ _ => vDest d
  | .atomXchg d _ _ _ => vDest d
  | .atomAnd d _ _ _ => vDest d
  | .atomOr d _ _ _ => vDest d
  | .atomXor d _ _ _ => vDest d
  | .atomCas d _ _ _ => vDest d && evenCode d
  | .atomFadd d _ _ _ => vDest d
  | .atomFmin d _ _ _ => vDest d
  | .atomFmax d _ _ _ => vDest d
  | .atomInc d _ _ _ => vDest d
  | .redAdd _ _ _ _ => true
  | .redMin _ _ _ _ => true
  | .redMax _ _ _ _ => true
  | .redFadd _ _ _ _ => true
  | .redAnd _ _ _ _ => true
  | .redOr _ _ _ _ => true
  | .redXor _ _ _ _ => true
  | .redFmax _ _ _ _ => true
  | .sld _ _ _ => true
  | .slda _ _ _ => true
  | .sst _ _ _ => true
  | .sstl _ _ _ => true
  | .satomAdd _ _ _ _ => true
  | .satomMin _ _ _ _ => true
  | .satomMax _ _ _ _ => true
  | .satomXchg _ _ _ _ => true
  | .satomAnd _ _ _ _ => true
  | .satomOr _ _ _ _ => true
  | .satomXor _ _ _ _ => true
  | .satomCas _ _ _ _ => true
  | .satomFadd _ _ _ _ => true
  | .satomFmin _ _ _ _ => true
  | .satomFmax _ _ _ _ => true
  | .satomInc _ _ _ _ => true
  | .satomMinn _ _ _ _ => true
  | .satomMaxn _ _ _ _ => true
  | .fence s => decide (s.toNat < 5)
  | .fenceEng s => decide (s.toNat < 5)
  | .fenceIo => true
  | .pref _ l => decide (l.toNat < 3)
  | .lease _ n => decide (3 ≤ n.toNat) && decide (n.toNat ≤ 12)
  | .wbr s _ _ => decide (2 ≤ s.toNat) && decide (s.toNat < 5)
  | .drain s => decide (s.toNat < 5)
  | .mma _ _ _ _ _ _ _ => true
  | .wload _ _ _ => true
  | .wloadw _ _ _ => true
  | .wclr _ => true
  | .mcompS24 _ _ _ => true
  | .mcompS48 _ _ _ => true
  | .accz _ => true
  | .accrd _ _ _ _ => true
  | .accwr _ _ _ _ => true
  | .accchk _ => true
  | .layer _ => true
  | .dmma _ _ _ _ => true
  | .drefresh _ _ _ _ => true
  | .dinval _ _ => true
  | .dstat _ _ => true
  | .acopy _ _ _ _ => true
  | .agath _ _ _ _ => true
  | .ascat _ _ _ _ => true
  | .afill _ _ _ _ => true
  | .rtkt _ _ => true
  | .rfill _ _ => true
  | .rhead _ _ _ => true
  | .post _ => true
  | .postn _ => true
  | .walk d => decide (1 ≤ d.toNat) && decide (d.toNat ≤ 61)
  | .wdone _ => true
  | .ephrd _ b => decide (b.toNat < 16)
  | .ephwr _ b => decide (8 ≤ b.toNat) && decide (b.toNat < 16)
  | .ephcommit _ => true
  | .covq _ _ => true
  | .barinit _ _ => true
  | .bararr _ => true
  | .bararrGrid => true
  | .barexp _ _ => true
  | .barwait _ _ _ => true
  | .barwaitGrid => true
  | .bartry _ _ _ => true
  | .watch _ _ _ => true
  | .unwatch _ _ => true
  | .claim _ => true
  | .give _ => true
  | .poolq _ => true
  | .amsg _ _ _ => true
  | .abump _ _ _ => true
  | .svc _ _ => true
  | .trap _ => true
  | .eret _ _ => true
  | .tlbinv _ _ => true
  | .tlbinva _ => true
  | .haltg _ => true
  | .wakeg _ => true
  | .illegal => false
  | .stalledWordIssue _ _ _ => true
  | .instructionFetch _ _ _ => true
  | .pageWalk _ _ _ => true
  | .fifoEntryDrain _ => true
  | .homeStore _ _ => true
  | .storeAcknowledge _ _ => true
  | .releaseSend _ => true
  | .homeLeaseGrant _ _ => true
  | .lineFill _ _ _ _ => true
  | .homeAtomic _ _ => true
  | .atomicAcknowledge _ _ => true
  | .writeBack _ _ => true
  | .homeEvict _ => true
  | .dramRefill _ => true
  | .rebase => true
  | .watchArrival _ _ => true
  | .peerScratchpadAccess _ _ _ => true
  | .barwaitWake _ _ _ => true
  | .coreUngate _ => true
  | .claimGrant _ _ _ => true
  | .gangEnd _ _ => true
  | .blockEnd _ => true
  | .phaseEnd _ => true
  | .phaseRedispatch _ _ => true
  | .launch _ _ _ => true
  | .launchWindowStatusWrite _ _ _ => true
  | .launchAdmit _ _ => true
  | .blockDispatch _ _ => true
  | .completionRecordWrite _ => true
  | .taskDispatch _ _ => true
  | .overflowRingMove _ _ => true
  | .engineCommandStart _ _ => true
  | .granuleLand _ _ => true
  | .matrixOpStart _ _ => true
  | .rowBufferStage _ _ _ => true
  | .kstepPlanes _ _ _ => true
  | .accumulatorAdd _ _ => true
  | .umbraEntryTransfer _ _ _ => true
  | .deferredFaultTaken _ _ => true
  | .weightStoreWindowClose => true
  | .networkArbitration _ => true
  | .linkResend _ _ _ => true
  | .hostRead _ _ => true
  | .hostWrite _ _ _ => true
  | .backInvalidate _ _ _ => true
  | .biasFlip _ => true
  | .biasFlipComplete => true
  | .hreq _ => true
  | .tierWindowWrite _ _ _ => true
  | .bar0RegisterWrite _ _ => true
  | .weightStoreCommand _ => true
  | .weightStoreWriteDone => true
  | .peerRequestReceive _ _ _ _ _ _ _ => true
  | .fabricResend _ => true
  | .fabricTimeout _ _ => true
  | .activeMessageReceive _ _ _ _ _ _ => true
  | .activeMessageAnswer _ _ => true
  | .handlerDispatch _ _ => true
  | .messageRingDrain _ => true
  | .preemptSave => true
  | .preemptRestore _ => true
  | .tctlOff _ => true
  | .tctlRun _ => true
  | .tctlSuspend _ => true
  | .tctlTeardown _ => true
  | .teardownComplete _ => true
  | .trootWrite _ _ => true
  | .umbraRegionWrite _ _ _ => true
  | .flogptrWrite _ _ => true
  | .formatWindowWrite _ _ _ => true
  | .getinfo => true
  | .setcap => true
  | .getpower => true
  | .setwdog => true
  | .loadsup => true
  | .getlog => true
  | .getcert => true
  | .quote => true
  | .geterr => true
  | .diecnt => true
  | .dierd => true
  | .standby => true
  | .wake => true
  | .reset _ _ => true
  | .mailboxStatusWrite _ => true
  | .coldReset _ _ => true
  | .powerRemoval => true
  | .clockStepChange _ => true
  | .currentLimit _ => true
  | .idleEntry => true
  | .hbmSelfRefresh => true
  | .watchdogExpiry _ => true
  | .supervisorRestart _ => true
  | .rootOfTrustFailure => true
  | .peerAccessAnswer _ _ _ _ _ => true

end Sys2Proof
end

