-- ==== Sys2Proof/Decode.lean ====
section
/-! DEFINITION. Decoding instruction words (R53, R54, R75 to R80), and the encoder written from the same
formats.  A word that is no instruction is rejected by name. -/

namespace Sys2Proof

/-- The `len` bits of `w` from bit `lo` up. -/
def bits (w lo len : Nat) : Nat := w / 2 ^ lo % 2 ^ len

/-- Words of major 0x00 (R75). -/
def decodeHdr (w : Nat) : Option Instr :=
  if bits w 0 8 = 0 then some (.hdr (BitVec.ofNat 5 (bits w 21 5)) (BitVec.ofNat 12 (bits w 9 12)) (BitVec.ofNat 1 (bits w 8 1)))
      else none

/-- Words of major 0x01 (R75). -/
def decodeSetmode (w : Nat) : Option Instr :=
  if bits w 18 8 = 0 then some (.setmode (BitVec.ofNat 18 (bits w 0 18)))
      else none

/-- Words of major 0x02 (R75). -/
def decodeBr (w : Nat) : Option Instr :=
  match bits w 22 4 with
  | 8 => some (.brNever (BitVec.ofNat 22 (bits w 0 22)))
  | _ => some (.br (BitVec.ofNat 4 (bits w 22 4)) (BitVec.ofNat 22 (bits w 0 22)))

/-- Words of major 0x03 (R75). -/
def decodeCall (w : Nat) : Option Instr :=
  if bits w 22 4 = 0 then some (.call (BitVec.ofNat 22 (bits w 0 22)))
      else none

/-- Words of major 0x04 (R75). -/
def decodeJump (w : Nat) : Option Instr :=
  match bits w 0 8 with
  | 0 => if bits w 8 6 = 0 ∧ bits w 20 6 = 0 then some (.jmp (BitVec.ofNat 6 (bits w 14 6)))
      else none
  | 1 => if bits w 8 6 = 0 ∧ bits w 20 6 = 0 then some (.callr (BitVec.ofNat 6 (bits w 14 6)))
      else none
  | 2 => if bits w 8 18 = 0 then some .ret
      else none
  | 3 => if bits w 8 12 = 0 then some (.regang (BitVec.ofNat 6 (bits w 20 6)))
      else none
  | 4 => if bits w 8 18 = 0 then some .exit
      else none
  | 5 => if bits w 8 18 = 0 then some .yield
      else none
  | _ => none

/-- Words of major 0x07 (R75). -/
def decodeNop (w : Nat) : Option Instr :=
  if bits w 0 26 = 0 then some .nop
      else none

/-- Words of major 0x08 (R75). -/
def decodeSalu (w : Nat) : Option Instr :=
  match bits w 0 8 with
  | 0 => some (.sadd (BitVec.ofNat 6 (bits w 20 6)) (BitVec.ofNat 6 (bits w 14 6)) (BitVec.ofNat 6 (bits w 8 6)))
  | 1 => some (.ssub (BitVec.ofNat 6 (bits w 20 6)) (BitVec.ofNat 6 (bits w 14 6)) (BitVec.ofNat 6 (bits w 8 6)))
  | 2 => some (.smul (BitVec.ofNat 6 (bits w 20 6)) (BitVec.ofNat 6 (bits w 14 6)) (BitVec.ofNat 6 (bits w 8 6)))
  | 3 => some (.smulh (BitVec.ofNat 6 (bits w 20 6)) (BitVec.ofNat 6 (bits w 14 6)) (BitVec.ofNat 6 (bits w 8 6)))
  | 4 => some (.smulhn (BitVec.ofNat 6 (bits w 20 6)) (BitVec.ofNat 6 (bits w 14 6)) (BitVec.ofNat 6 (bits w 8 6)))
  | 5 => some (.sdiv (BitVec.ofNat 6 (bits w 20 6)) (BitVec.ofNat 6 (bits w 14 6)) (BitVec.ofNat 6 (bits w 8 6)))
  | 6 => some (.sdivn (BitVec.ofNat 6 (bits w 20 6)) (BitVec.ofNat 6 (bits w 14 6)) (BitVec.ofNat 6 (bits w 8 6)))
  | 7 => some (.srem (BitVec.ofNat 6 (bits w 20 6)) (BitVec.ofNat 6 (bits w 14 6)) (BitVec.ofNat 6 (bits w 8 6)))
  | 8 => some (.sremn (BitVec.ofNat 6 (bits w 20 6)) (BitVec.ofNat 6 (bits w 14 6)) (BitVec.ofNat 6 (bits w 8 6)))
  | 9 => some (.sand (BitVec.ofNat 6 (bits w 20 6)) (BitVec.ofNat 6 (bits w 14 6)) (BitVec.ofNat 6 (bits w 8 6)))
  | 10 => some (.sor (BitVec.ofNat 6 (bits w 20 6)) (BitVec.ofNat 6 (bits w 14 6)) (BitVec.ofNat 6 (bits w 8 6)))
  | 11 => some (.sxor (BitVec.ofNat 6 (bits w 20 6)) (BitVec.ofNat 6 (bits w 14 6)) (BitVec.ofNat 6 (bits w 8 6)))
  | 12 => some (.sandn (BitVec.ofNat 6 (bits w 20 6)) (BitVec.ofNat 6 (bits w 14 6)) (BitVec.ofNat 6 (bits w 8 6)))
  | 13 => some (.sshl (BitVec.ofNat 6 (bits w 20 6)) (BitVec.ofNat 6 (bits w 14 6)) (BitVec.ofNat 6 (bits w 8 6)))
  | 14 => some (.sshr (BitVec.ofNat 6 (bits w 20 6)) (BitVec.ofNat 6 (bits w 14 6)) (BitVec.ofNat 6 (bits w 8 6)))
  | 15 => some (.ssra (BitVec.ofNat 6 (bits w 20 6)) (BitVec.ofNat 6 (bits w 14 6)) (BitVec.ofNat 6 (bits w 8 6)))
  | 16 => some (.srol (BitVec.ofNat 6 (bits w 20 6)) (BitVec.ofNat 6 (bits w 14 6)) (BitVec.ofNat 6 (bits w 8 6)))
  | 17 => some (.smin (BitVec.ofNat 6 (bits w 20 6)) (BitVec.ofNat 6 (bits w 14 6)) (BitVec.ofNat 6 (bits w 8 6)))
  | 18 => some (.smax (BitVec.ofNat 6 (bits w 20 6)) (BitVec.ofNat 6 (bits w 14 6)) (BitVec.ofNat 6 (bits w 8 6)))
  | 19 => some (.sminn (BitVec.ofNat 6 (bits w 20 6)) (BitVec.ofNat 6 (bits w 14 6)) (BitVec.ofNat 6 (bits w 8 6)))
  | 20 => some (.smaxn (BitVec.ofNat 6 (bits w 20 6)) (BitVec.ofNat 6 (bits w 14 6)) (BitVec.ofNat 6 (bits w 8 6)))
  | 21 => some (.sceq (BitVec.ofNat 6 (bits w 20 6)) (BitVec.ofNat 6 (bits w 14 6)) (BitVec.ofNat 6 (bits w 8 6)))
  | 22 => some (.scne (BitVec.ofNat 6 (bits w 20 6)) (BitVec.ofNat 6 (bits w 14 6)) (BitVec.ofNat 6 (bits w 8 6)))
  | 23 => some (.sclt (BitVec.ofNat 6 (bits w 20 6)) (BitVec.ofNat 6 (bits w 14 6)) (BitVec.ofNat 6 (bits w 8 6)))
  | 24 => some (.scle (BitVec.ofNat 6 (bits w 20 6)) (BitVec.ofNat 6 (bits w 14 6)) (BitVec.ofNat 6 (bits w 8 6)))
  | 25 => some (.scltn (BitVec.ofNat 6 (bits w 20 6)) (BitVec.ofNat 6 (bits w 14 6)) (BitVec.ofNat 6 (bits w 8 6)))
  | 26 => some (.sclen (BitVec.ofNat 6 (bits w 20 6)) (BitVec.ofNat 6 (bits w 14 6)) (BitVec.ofNat 6 (bits w 8 6)))
  | 27 => some (.ssel (BitVec.ofNat 6 (bits w 20 6)) (BitVec.ofNat 6 (bits w 14 6)) (BitVec.ofNat 6 (bits w 8 6)))
  | 28 => if bits w 8 6 = 0 then some (.spopc (BitVec.ofNat 6 (bits w 20 6)) (BitVec.ofNat 6 (bits w 14 6)))
      else none
  | 29 => if bits w 8 6 = 0 then some (.sclz (BitVec.ofNat 6 (bits w 20 6)) (BitVec.ofNat 6 (bits w 14 6)))
      else none
  | 30 => if bits w 8 6 = 0 then some (.sctz (BitVec.ofNat 6 (bits w 20 6)) (BitVec.ofNat 6 (bits w 14 6)))
      else none
  | 31 => if bits w 8 6 = 0 then some (.sbrev (BitVec.ofNat 6 (bits w 20 6)) (BitVec.ofNat 6 (bits w 14 6)))
      else none
  | 32 => if bits w 8 6 = 0 then some (.sextb (BitVec.ofNat 6 (bits w 20 6)) (BitVec.ofNat 6 (bits w 14 6)))
      else none
  | 33 => if bits w 8 6 = 0 then some (.sexth (BitVec.ofNat 6 (bits w 20 6)) (BitVec.ofNat 6 (bits w 14 6)))
      else none
  | 34 => if bits w 8 6 = 0 then some (.sextw (BitVec.ofNat 6 (bits w 20 6)) (BitVec.ofNat 6 (bits w 14 6)))
      else none
  | _ => none

/-- Words of major 0x09 (R75). -/
def decodeSalui (w : Nat) : Option Instr :=
  match bits w 12 2 with
  | 0 => some (.saddi (BitVec.ofNat 6 (bits w 20 6)) (BitVec.ofNat 6 (bits w 14 6)) (BitVec.ofNat 12 (bits w 0 12)))
  | 1 => some (.sandi (BitVec.ofNat 6 (bits w 20 6)) (BitVec.ofNat 6 (bits w 14 6)) (BitVec.ofNat 12 (bits w 0 12)))
  | 2 => some (.sori (BitVec.ofNat 6 (bits w 20 6)) (BitVec.ofNat 6 (bits w 14 6)) (BitVec.ofNat 12 (bits w 0 12)))
  | _ => some (.sxori (BitVec.ofNat 6 (bits w 20 6)) (BitVec.ofNat 6 (bits w 14 6)) (BitVec.ofNat 12 (bits w 0 12)))

/-- Words of major 0x0A (R75). -/
def decodeSshi (w : Nat) : Option Instr :=
  match bits w 12 2 with
  | 0 => if bits w 6 6 = 0 then some (.sshli (BitVec.ofNat 6 (bits w 20 6)) (BitVec.ofNat 6 (bits w 14 6)) (BitVec.ofNat 6 (bits w 0 6)))
      else none
  | 1 => if bits w 6 6 = 0 then some (.sshri (BitVec.ofNat 6 (bits w 20 6)) (BitVec.ofNat 6 (bits w 14 6)) (BitVec.ofNat 6 (bits w 0 6)))
      else none
  | 2 => if bits w 6 6 = 0 then some (.ssrai (BitVec.ofNat 6 (bits w 20 6)) (BitVec.ofNat 6 (bits w 14 6)) (BitVec.ofNat 6 (bits w 0 6)))
      else none
  | _ => some (.sceqi (BitVec.ofNat 6 (bits w 20 6)) (BitVec.ofNat 6 (bits w 14 6)) (BitVec.ofNat 12 (bits w 0 12)))

/-- Words of major 0x0B (R75). -/
def decodeSli (w : Nat) : Option Instr :=
  match bits w 16 2 with
  | 0 => some (.sli (BitVec.ofNat 6 (bits w 20 6)) (BitVec.ofNat 2 (bits w 18 2)) (BitVec.ofNat 16 (bits w 0 16)))
  | 1 => some (.slik (BitVec.ofNat 6 (bits w 20 6)) (BitVec.ofNat 2 (bits w 18 2)) (BitVec.ofNat 16 (bits w 0 16)))
  | 2 => some (.slis (BitVec.ofNat 6 (bits w 20 6)) (BitVec.ofNat 2 (bits w 18 2)) (BitVec.ofNat 16 (bits w 0 16)))
  | _ => none

/-- Words of major 0x0C (R75). -/
def decodeMask (w : Nat) : Option Instr :=
  match bits w 0 8 with
  | 0 => if bits w 12 2 = 0 ∧ bits w 18 2 = 0 ∧ bits w 24 2 = 0 then some (.mand (BitVec.ofNat 4 (bits w 20 4)) (BitVec.ofNat 4 (bits w 14 4)) (BitVec.ofNat 4 (bits w 8 4)))
      else none
  | 1 => if bits w 12 2 = 0 ∧ bits w 18 2 = 0 ∧ bits w 24 2 = 0 then some (.mor (BitVec.ofNat 4 (bits w 20 4)) (BitVec.ofNat 4 (bits w 14 4)) (BitVec.ofNat 4 (bits w 8 4)))
      else none
  | 2 => if bits w 12 2 = 0 ∧ bits w 18 2 = 0 ∧ bits w 24 2 = 0 then some (.mxor (BitVec.ofNat 4 (bits w 20 4)) (BitVec.ofNat 4 (bits w 14 4)) (BitVec.ofNat 4 (bits w 8 4)))
      else none
  | 3 => if bits w 12 2 = 0 ∧ bits w 18 2 = 0 ∧ bits w 24 2 = 0 then some (.mandn (BitVec.ofNat 4 (bits w 20 4)) (BitVec.ofNat 4 (bits w 14 4)) (BitVec.ofNat 4 (bits w 8 4)))
      else none
  | 4 => if bits w 8 6 = 0 ∧ bits w 18 2 = 0 ∧ bits w 24 2 = 0 then some (.mnot (BitVec.ofNat 4 (bits w 20 4)) (BitVec.ofNat 4 (bits w 14 4)))
      else none
  | 5 => if bits w 8 6 = 0 ∧ bits w 18 2 = 0 ∧ bits w 24 2 = 0 then some (.mmov (BitVec.ofNat 4 (bits w 20 4)) (BitVec.ofNat 4 (bits w 14 4)))
      else none
  | 6 => if bits w 8 6 = 0 ∧ bits w 18 2 = 0 then some (.mtos (BitVec.ofNat 6 (bits w 20 6)) (BitVec.ofNat 4 (bits w 14 4)))
      else none
  | 7 => if bits w 8 6 = 0 ∧ bits w 24 2 = 0 then some (.stom (BitVec.ofNat 4 (bits w 20 4)) (BitVec.ofNat 6 (bits w 14 6)))
      else none
  | 8 => if bits w 8 6 = 0 ∧ bits w 18 2 = 0 then some (.mpopc (BitVec.ofNat 6 (bits w 20 6)) (BitVec.ofNat 4 (bits w 14 4)))
      else none
  | 9 => if bits w 8 6 = 0 ∧ bits w 18 2 = 0 then some (.mfirst (BitVec.ofNat 6 (bits w 20 6)) (BitVec.ofNat 4 (bits w 14 4)))
      else none
  | 10 => if bits w 8 6 = 0 ∧ bits w 24 2 = 0 then some (.mslice (BitVec.ofNat 4 (bits w 20 4)) (BitVec.ofNat 6 (bits w 14 6)))
      else none
  | _ => none

/-- Words of major 0x0D (R75). -/
def decodeSreg (w : Nat) : Option Instr :=
  match bits w 12 2 with
  | 0 => if bits w 14 6 = 0 then some (.srd (BitVec.ofNat 6 (bits w 20 6)) (BitVec.ofNat 12 (bits w 0 12)))
      else none
  | 1 => if bits w 20 6 = 0 then some (.swr (BitVec.ofNat 6 (bits w 14 6)) (BitVec.ofNat 12 (bits w 0 12)))
      else none
  | 2 => some (.sxch (BitVec.ofNat 6 (bits w 20 6)) (BitVec.ofNat 6 (bits w 14 6)) (BitVec.ofNat 12 (bits w 0 12)))
  | _ => none

/-- Words of major 0x10 (R75). -/
def decodeVadd (w : Nat) : Option Instr :=
  match bits w 0 2 with
  | 0 => some (.vadd (BitVec.ofNat 8 (bits w 18 8)) (BitVec.ofNat 8 (bits w 10 8)) (BitVec.ofNat 8 (bits w 2 8)))
  | 1 => some (.vsub (BitVec.ofNat 8 (bits w 18 8)) (BitVec.ofNat 8 (bits w 10 8)) (BitVec.ofNat 8 (bits w 2 8)))
  | 2 => some (.vmul (BitVec.ofNat 8 (bits w 18 8)) (BitVec.ofNat 8 (bits w 10 8)) (BitVec.ofNat 8 (bits w 2 8)))
  | _ => some (.vmulh (BitVec.ofNat 8 (bits w 18 8)) (BitVec.ofNat 8 (bits w 10 8)) (BitVec.ofNat 8 (bits w 2 8)))

/-- Words of major 0x11 (R75). -/
def decodeVfma (w : Nat) : Option Instr :=
  match bits w 0 2 with
  | 0 => some (.vfma (BitVec.ofNat 8 (bits w 18 8)) (BitVec.ofNat 8 (bits w 10 8)) (BitVec.ofNat 8 (bits w 2 8)))
  | 1 => some (.vfms (BitVec.ofNat 8 (bits w 18 8)) (BitVec.ofNat 8 (bits w 10 8)) (BitVec.ofNat 8 (bits w 2 8)))
  | 2 => some (.vfnma (BitVec.ofNat 8 (bits w 18 8)) (BitVec.ofNat 8 (bits w 10 8)) (BitVec.ofNat 8 (bits w 2 8)))
  | _ => some (.vfnms (BitVec.ofNat 8 (bits w 18 8)) (BitVec.ofNat 8 (bits w 10 8)) (BitVec.ofNat 8 (bits w 2 8)))

/-- Words of major 0x12 (R75). -/
def decodeVmin (w : Nat) : Option Instr :=
  match bits w 0 2 with
  | 0 => some (.vmin (BitVec.ofNat 8 (bits w 18 8)) (BitVec.ofNat 8 (bits w 10 8)) (BitVec.ofNat 8 (bits w 2 8)))
  | 1 => some (.vmax (BitVec.ofNat 8 (bits w 18 8)) (BitVec.ofNat 8 (bits w 10 8)) (BitVec.ofNat 8 (bits w 2 8)))
  | 2 => some (.vadds (BitVec.ofNat 8 (bits w 18 8)) (BitVec.ofNat 8 (bits w 10 8)) (BitVec.ofNat 8 (bits w 2 8)))
  | _ => some (.vsubs (BitVec.ofNat 8 (bits w 18 8)) (BitVec.ofNat 8 (bits w 10 8)) (BitVec.ofNat 8 (bits w 2 8)))

/-- Words of major 0x13 (R75). -/
def decodeVand (w : Nat) : Option Instr :=
  match bits w 0 2 with
  | 0 => some (.vand (BitVec.ofNat 8 (bits w 18 8)) (BitVec.ofNat 8 (bits w 10 8)) (BitVec.ofNat 8 (bits w 2 8)))
  | 1 => some (.vor (BitVec.ofNat 8 (bits w 18 8)) (BitVec.ofNat 8 (bits w 10 8)) (BitVec.ofNat 8 (bits w 2 8)))
  | 2 => some (.vxor (BitVec.ofNat 8 (bits w 18 8)) (BitVec.ofNat 8 (bits w 10 8)) (BitVec.ofNat 8 (bits w 2 8)))
  | _ => some (.vandn (BitVec.ofNat 8 (bits w 18 8)) (BitVec.ofNat 8 (bits w 10 8)) (BitVec.ofNat 8 (bits w 2 8)))

/-- Words of major 0x14 (R75). -/
def decodeVshl (w : Nat) : Option Instr :=
  match bits w 0 2 with
  | 0 => some (.vshl (BitVec.ofNat 8 (bits w 18 8)) (BitVec.ofNat 8 (bits w 10 8)) (BitVec.ofNat 8 (bits w 2 8)))
  | 1 => some (.vshr (BitVec.ofNat 8 (bits w 18 8)) (BitVec.ofNat 8 (bits w 10 8)) (BitVec.ofNat 8 (bits w 2 8)))
  | 2 => some (.vsra (BitVec.ofNat 8 (bits w 18 8)) (BitVec.ofNat 8 (bits w 10 8)) (BitVec.ofNat 8 (bits w 2 8)))
  | _ => some (.vrol (BitVec.ofNat 8 (bits w 18 8)) (BitVec.ofNat 8 (bits w 10 8)) (BitVec.ofNat 8 (bits w 2 8)))

/-- Words of major 0x15 (R75). -/
def decodeVcmp (w : Nat) : Option Instr :=
  match bits w 0 2 with
  | 0 => some (.vcmp (BitVec.ofNat 4 (bits w 22 4)) (BitVec.ofNat 4 (bits w 18 4)) (BitVec.ofNat 8 (bits w 10 8)) (BitVec.ofNat 8 (bits w 2 8)))
  | 1 => some (.vcmpn (BitVec.ofNat 4 (bits w 22 4)) (BitVec.ofNat 4 (bits w 18 4)) (BitVec.ofNat 8 (bits w 10 8)) (BitVec.ofNat 8 (bits w 2 8)))
  | 2 => if bits w 23 3 = 0 then some (.vclass (BitVec.ofNat 1 (bits w 22 1)) (BitVec.ofNat 4 (bits w 18 4)) (BitVec.ofNat 8 (bits w 10 8)) (BitVec.ofNat 8 (bits w 2 8)))
      else none
  | _ => if bits w 23 3 = 0 then some (.vtest (BitVec.ofNat 1 (bits w 22 1)) (BitVec.ofNat 4 (bits w 18 4)) (BitVec.ofNat 8 (bits w 10 8)) (BitVec.ofNat 8 (bits w 2 8)))
      else none

/-- Words of major 0x16 (R75). -/
def decodeVsel (w : Nat) : Option Instr :=
  match bits w 0 2 with
  | 0 => some (.vsel (BitVec.ofNat 8 (bits w 18 8)) (BitVec.ofNat 8 (bits w 10 8)) (BitVec.ofNat 8 (bits w 2 8)))
  | 1 => if bits w 2 8 = 0 then some (.vmov (BitVec.ofNat 8 (bits w 18 8)) (BitVec.ofNat 8 (bits w 10 8)))
      else none
  | 2 => if bits w 2 8 = 0 then some (.vneg (BitVec.ofNat 8 (bits w 18 8)) (BitVec.ofNat 8 (bits w 10 8)))
      else none
  | _ => if bits w 2 8 = 0 then some (.vabs (BitVec.ofNat 8 (bits w 18 8)) (BitVec.ofNat 8 (bits w 10 8)))
      else none

/-- Words of major 0x17 (R75). -/
def decodeVun (w : Nat) : Option Instr :=
  match bits w 2 8 with
  | 0 => if bits w 0 2 = 0 then some (.vnot (BitVec.ofNat 8 (bits w 18 8)) (BitVec.ofNat 8 (bits w 10 8)))
      else none
  | 1 => if bits w 0 2 = 0 then some (.vpopc (BitVec.ofNat 8 (bits w 18 8)) (BitVec.ofNat 8 (bits w 10 8)))
      else none
  | 2 => if bits w 0 2 = 0 then some (.vclz (BitVec.ofNat 8 (bits w 18 8)) (BitVec.ofNat 8 (bits w 10 8)))
      else none
  | 3 => if bits w 0 2 = 0 then some (.vbrev (BitVec.ofNat 8 (bits w 18 8)) (BitVec.ofNat 8 (bits w 10 8)))
      else none
  | 4 => if bits w 0 2 = 0 then some (.vfloor (BitVec.ofNat 8 (bits w 18 8)) (BitVec.ofNat 8 (bits w 10 8)))
      else none
  | 5 => if bits w 0 2 = 0 then some (.vceil (BitVec.ofNat 8 (bits w 18 8)) (BitVec.ofNat 8 (bits w 10 8)))
      else none
  | 6 => if bits w 0 2 = 0 then some (.vtrunc (BitVec.ofNat 8 (bits w 18 8)) (BitVec.ofNat 8 (bits w 10 8)))
      else none
  | 7 => if bits w 0 2 = 0 then some (.vrint (BitVec.ofNat 8 (bits w 18 8)) (BitVec.ofNat 8 (bits w 10 8)))
      else none
  | 8 => if bits w 0 2 = 0 then some (.vfrac (BitVec.ofNat 8 (bits w 18 8)) (BitVec.ofNat 8 (bits w 10 8)))
      else none
  | 9 => if bits w 0 2 = 0 then some (.vsqrt (BitVec.ofNat 8 (bits w 18 8)) (BitVec.ofNat 8 (bits w 10 8)))
      else none
  | _ => none

/-- Words of major 0x18 (R75). -/
def decodeVsfu (w : Nat) : Option Instr :=
  match bits w 2 8 with
  | 0 => if bits w 0 2 = 0 then some (.vrcp (BitVec.ofNat 8 (bits w 18 8)) (BitVec.ofNat 8 (bits w 10 8)))
      else none
  | 1 => if bits w 0 2 = 0 then some (.vrsq (BitVec.ofNat 8 (bits w 18 8)) (BitVec.ofNat 8 (bits w 10 8)))
      else none
  | 2 => if bits w 0 2 = 0 then some (.vexp2 (BitVec.ofNat 8 (bits w 18 8)) (BitVec.ofNat 8 (bits w 10 8)))
      else none
  | 3 => if bits w 0 2 = 0 then some (.vlog2 (BitVec.ofNat 8 (bits w 18 8)) (BitVec.ofNat 8 (bits w 10 8)))
      else none
  | 4 => if bits w 0 2 = 0 then some (.vsin (BitVec.ofNat 8 (bits w 18 8)) (BitVec.ofNat 8 (bits w 10 8)))
      else none
  | 5 => if bits w 0 2 = 0 then some (.vcos (BitVec.ofNat 8 (bits w 18 8)) (BitVec.ofNat 8 (bits w 10 8)))
      else none
  | 6 => if bits w 0 2 = 0 then some (.vtanh (BitVec.ofNat 8 (bits w 18 8)) (BitVec.ofNat 8 (bits w 10 8)))
      else none
  | 7 => if bits w 0 2 = 0 then some (.vsigm (BitVec.ofNat 8 (bits w 18 8)) (BitVec.ofNat 8 (bits w 10 8)))
      else none
  | 8 => if bits w 0 2 = 0 then some (.vgelu (BitVec.ofNat 8 (bits w 18 8)) (BitVec.ofNat 8 (bits w 10 8)))
      else none
  | 9 => if bits w 0 2 = 0 then some (.verf (BitVec.ofNat 8 (bits w 18 8)) (BitVec.ofNat 8 (bits w 10 8)))
      else none
  | _ => none

/-- Words of major 0x19 (R75). -/
def decodeVcvt (w : Nat) : Option Instr :=
  match bits w 0 2 with
  | 0 => if (bits w 6 4 = 0 ∨ bits w 6 4 = 8 ∨ bits w 6 4 = 9) ∧ bits w 2 4 = 0 then some (.vcvtTo64 (BitVec.ofNat 8 (bits w 18 8)) (BitVec.ofNat 8 (bits w 10 8)) (BitVec.ofNat 4 (bits w 6 4)))
      else if (bits w 6 4 = 0 ∨ bits w 6 4 = 8 ∨ bits w 6 4 = 9) ∧ bits w 2 4 = 1 then some (.vcvtFrom64 (BitVec.ofNat 8 (bits w 18 8)) (BitVec.ofNat 8 (bits w 10 8)) (BitVec.ofNat 4 (bits w 6 4)))
      else if (bits w 6 4 = 0 ∨ bits w 6 4 = 8 ∨ bits w 6 4 = 9) ∧ bits w 2 4 = 2 then some (.vcvtX64 (BitVec.ofNat 8 (bits w 18 8)) (BitVec.ofNat 8 (bits w 10 8)) (BitVec.ofNat 4 (bits w 6 4)))
      else some (.vcvt (BitVec.ofNat 8 (bits w 18 8)) (BitVec.ofNat 8 (bits w 10 8)) (BitVec.ofNat 4 (bits w 6 4)) (BitVec.ofNat 4 (bits w 2 4)))
  | 1 => some (.vpack (BitVec.ofNat 8 (bits w 18 8)) (BitVec.ofNat 8 (bits w 10 8)) (BitVec.ofNat 4 (bits w 6 4)) (BitVec.ofNat 4 (bits w 2 4)))
  | 2 => some (.vunpkl (BitVec.ofNat 8 (bits w 18 8)) (BitVec.ofNat 8 (bits w 10 8)) (BitVec.ofNat 4 (bits w 6 4)) (BitVec.ofNat 4 (bits w 2 4)))
  | _ => some (.vunpkh (BitVec.ofNat 8 (bits w 18 8)) (BitVec.ofNat 8 (bits w 10 8)) (BitVec.ofNat 4 (bits w 6 4)) (BitVec.ofNat 4 (bits w 2 4)))

/-- Words of major 0x1A (R75). -/
def decodeVaddi (w : Nat) : Option Instr :=
  match bits w 8 2 with
  | 0 => some (.vaddi (BitVec.ofNat 8 (bits w 18 8)) (BitVec.ofNat 8 (bits w 10 8)) (BitVec.ofNat 8 (bits w 0 8)))
  | 1 => some (.vandi (BitVec.ofNat 8 (bits w 18 8)) (BitVec.ofNat 8 (bits w 10 8)) (BitVec.ofNat 8 (bits w 0 8)))
  | 2 => some (.vori (BitVec.ofNat 8 (bits w 18 8)) (BitVec.ofNat 8 (bits w 10 8)) (BitVec.ofNat 8 (bits w 0 8)))
  | _ => if bits w 6 2 = 0 then some (.vshli (BitVec.ofNat 8 (bits w 18 8)) (BitVec.ofNat 8 (bits w 10 8)) (BitVec.ofNat 6 (bits w 0 6)))
      else none

/-- Words of major 0x1B (R75). -/
def decodeVmuli (w : Nat) : Option Instr :=
  match bits w 8 2 with
  | 0 => some (.vmuli (BitVec.ofNat 8 (bits w 18 8)) (BitVec.ofNat 8 (bits w 10 8)) (BitVec.ofNat 8 (bits w 0 8)))
  | 1 => if bits w 6 2 = 0 then some (.vshri (BitVec.ofNat 8 (bits w 18 8)) (BitVec.ofNat 8 (bits w 10 8)) (BitVec.ofNat 6 (bits w 0 6)))
      else none
  | 2 => if bits w 6 2 = 0 then some (.vsrai (BitVec.ofNat 8 (bits w 18 8)) (BitVec.ofNat 8 (bits w 10 8)) (BitVec.ofNat 6 (bits w 0 6)))
      else none
  | _ => some (.vcmpi (BitVec.ofNat 4 (bits w 22 4)) (BitVec.ofNat 4 (bits w 18 4)) (BitVec.ofNat 8 (bits w 10 8)) (BitVec.ofNat 8 (bits w 0 8)))

/-- Words of major 0x1C (R75). -/
def decodeVxln (w : Nat) : Option Instr :=
  match bits w 0 2 with
  | 0 => some (.vxorl (BitVec.ofNat 8 (bits w 18 8)) (BitVec.ofNat 8 (bits w 10 8)) (BitVec.ofNat 4 (bits w 6 4)) (BitVec.ofNat 4 (bits w 2 4)))
  | 1 => some (.vrotl (BitVec.ofNat 8 (bits w 18 8)) (BitVec.ofNat 8 (bits w 10 8)) (BitVec.ofNat 4 (bits w 6 4)) (BitVec.ofNat 4 (bits w 2 4)))
  | 2 => some (.vbcl (BitVec.ofNat 8 (bits w 18 8)) (BitVec.ofNat 8 (bits w 10 8)) (BitVec.ofNat 4 (bits w 6 4)) (BitVec.ofNat 4 (bits w 2 4)))
  | _ => some (.vlstep (BitVec.ofNat 8 (bits w 18 8)) (BitVec.ofNat 8 (bits w 10 8)) (BitVec.ofNat 4 (bits w 6 4)) (BitVec.ofNat 4 (bits w 2 4)))

/-- Words of major 0x1D (R75). -/
def decodeVscan (w : Nat) : Option Instr :=
  match bits w 0 2 with
  | 0 => some (.vscan (BitVec.ofNat 8 (bits w 18 8)) (BitVec.ofNat 8 (bits w 10 8)) (BitVec.ofNat 4 (bits w 6 4)) (BitVec.ofNat 4 (bits w 2 4)))
  | 1 => if bits w 24 2 = 0 then some (.vreds (BitVec.ofNat 6 (bits w 18 6)) (BitVec.ofNat 8 (bits w 10 8)) (BitVec.ofNat 4 (bits w 6 4)) (BitVec.ofNat 4 (bits w 2 4)))
      else none
  | 2 => if bits w 14 4 = 0 ∧ bits w 24 2 = 0 then some (.vvote (BitVec.ofNat 6 (bits w 18 6)) (BitVec.ofNat 4 (bits w 10 4)) (BitVec.ofNat 4 (bits w 6 4)) (BitVec.ofNat 4 (bits w 2 4)))
      else none
  | _ => if bits w 22 4 = 0 then some (.vmatch (BitVec.ofNat 4 (bits w 18 4)) (BitVec.ofNat 8 (bits w 10 8)) (BitVec.ofNat 4 (bits w 6 4)) (BitVec.ofNat 4 (bits w 2 4)))
      else none

/-- Words of major 0x1E (R75). -/
def decodeVdiv (w : Nat) : Option Instr :=
  match bits w 0 2 with
  | 0 => some (.vdiv (BitVec.ofNat 8 (bits w 18 8)) (BitVec.ofNat 8 (bits w 10 8)) (BitVec.ofNat 8 (bits w 2 8)))
  | 1 => some (.vdot4 (BitVec.ofNat 8 (bits w 18 8)) (BitVec.ofNat 8 (bits w 10 8)) (BitVec.ofNat 8 (bits w 2 8)))
  | 2 => some (.vaddc (BitVec.ofNat 8 (bits w 18 8)) (BitVec.ofNat 8 (bits w 10 8)) (BitVec.ofNat 8 (bits w 2 8)))
  | _ => some (.vmulw (BitVec.ofNat 8 (bits w 18 8)) (BitVec.ofNat 8 (bits w 10 8)) (BitVec.ofNat 8 (bits w 2 8)))

/-- Words of major 0x1F (R75). -/
def decodeVrng (w : Nat) : Option Instr :=
  match bits w 0 2 with
  | 0 => some (.vrng (BitVec.ofNat 8 (bits w 18 8)) (BitVec.ofNat 8 (bits w 10 8)) (BitVec.ofNat 8 (bits w 2 8)))
  | 1 => some (.vdrop (BitVec.ofNat 8 (bits w 18 8)) (BitVec.ofNat 8 (bits w 10 8)) (BitVec.ofNat 8 (bits w 2 8)))
  | 2 => if bits w 2 8 = 0 ∧ bits w 16 2 = 0 then some (.vbcst (BitVec.ofNat 8 (bits w 18 8)) (BitVec.ofNat 6 (bits w 10 6)))
      else none
  | _ => if bits w 2 16 = 0 then some (.vlane (BitVec.ofNat 8 (bits w 18 8)))
      else none

/-- Words of major 0x20 (R75). -/
def decodeVld (w : Nat) : Option Instr :=
  match bits w 4 2 with
  | 0 => some (.ld (BitVec.ofNat 8 (bits w 18 8)) (BitVec.ofNat 8 (bits w 10 8)) (BitVec.ofNat 4 (bits w 6 4)) (BitVec.ofNat 4 (bits w 0 4)))
  | 1 => some (.lda (BitVec.ofNat 8 (bits w 18 8)) (BitVec.ofNat 8 (bits w 10 8)) (BitVec.ofNat 4 (bits w 6 4)) (BitVec.ofNat 4 (bits w 0 4)))
  | 2 => some (.ldw (BitVec.ofNat 8 (bits w 18 8)) (BitVec.ofNat 8 (bits w 10 8)) (BitVec.ofNat 4 (bits w 6 4)) (BitVec.ofNat 4 (bits w 0 4)))
  | _ => some (.ldnt (BitVec.ofNat 8 (bits w 18 8)) (BitVec.ofNat 8 (bits w 10 8)) (BitVec.ofNat 4 (bits w 6 4)) (BitVec.ofNat 4 (bits w 0 4)))

/-- Words of major 0x21 (R75). -/
def decodeVst (w : Nat) : Option Instr :=
  match bits w 4 2 with
  | 0 => some (.st (BitVec.ofNat 8 (bits w 18 8)) (BitVec.ofNat 8 (bits w 10 8)) (BitVec.ofNat 4 (bits w 6 4)) (BitVec.ofNat 4 (bits w 0 4)))
  | 1 => some (.stl (BitVec.ofNat 8 (bits w 18 8)) (BitVec.ofNat 8 (bits w 10 8)) (BitVec.ofNat 4 (bits w 6 4)) (BitVec.ofNat 4 (bits w 0 4)))
  | 2 => some (.stw (BitVec.ofNat 8 (bits w 18 8)) (BitVec.ofNat 8 (bits w 10 8)) (BitVec.ofNat 4 (bits w 6 4)) (BitVec.ofNat 4 (bits w 0 4)))
  | _ => some (.stnt (BitVec.ofNat 8 (bits w 18 8)) (BitVec.ofNat 8 (bits w 10 8)) (BitVec.ofNat 4 (bits w 6 4)) (BitVec.ofNat 4 (bits w 0 4)))

/-- Words of major 0x22 (R75). -/
def decodeLdb (w : Nat) : Option Instr :=
  match bits w 4 2 with
  | 0 => some (.ldb (BitVec.ofNat 8 (bits w 18 8)) (BitVec.ofNat 8 (bits w 10 8)) (BitVec.ofNat 4 (bits w 6 4)) (BitVec.ofNat 4 (bits w 0 4)))
  | 1 => some (.ldbs (BitVec.ofNat 8 (bits w 18 8)) (BitVec.ofNat 8 (bits w 10 8)) (BitVec.ofNat 4 (bits w 6 4)) (BitVec.ofNat 4 (bits w 0 4)))
  | 2 => some (.ldh (BitVec.ofNat 8 (bits w 18 8)) (BitVec.ofNat 8 (bits w 10 8)) (BitVec.ofNat 4 (bits w 6 4)) (BitVec.ofNat 4 (bits w 0 4)))
  | _ => some (.ldhs (BitVec.ofNat 8 (bits w 18 8)) (BitVec.ofNat 8 (bits w 10 8)) (BitVec.ofNat 4 (bits w 6 4)) (BitVec.ofNat 4 (bits w 0 4)))

/-- Words of major 0x23 (R75). -/
def decodeStb (w : Nat) : Option Instr :=
  match bits w 4 2 with
  | 0 => some (.stb (BitVec.ofNat 8 (bits w 18 8)) (BitVec.ofNat 8 (bits w 10 8)) (BitVec.ofNat 4 (bits w 6 4)) (BitVec.ofNat 4 (bits w 0 4)))
  | 1 => some (.sth (BitVec.ofNat 8 (bits w 18 8)) (BitVec.ofNat 8 (bits w 10 8)) (BitVec.ofNat 4 (bits w 6 4)) (BitVec.ofNat 4 (bits w 0 4)))
  | 2 => some (.ldd (BitVec.ofNat 8 (bits w 18 8)) (BitVec.ofNat 8 (bits w 10 8)) (BitVec.ofNat 4 (bits w 6 4)) (BitVec.ofNat 4 (bits w 0 4)))
  | _ => some (.std (BitVec.ofNat 8 (bits w 18 8)) (BitVec.ofNat 8 (bits w 10 8)) (BitVec.ofNat 4 (bits w 6 4)) (BitVec.ofNat 4 (bits w 0 4)))

/-- Words of major 0x24 (R75). -/
def decodeVldf (w : Nat) : Option Instr :=
  match bits w 4 2 with
  | 0 => some (.ldf (BitVec.ofNat 8 (bits w 18 8)) (BitVec.ofNat 8 (bits w 10 8)) (BitVec.ofNat 4 (bits w 6 4)) (BitVec.ofNat 4 (bits w 0 4)))
  | 1 => some (.ldf2 (BitVec.ofNat 8 (bits w 18 8)) (BitVec.ofNat 8 (bits w 10 8)) (BitVec.ofNat 4 (bits w 6 4)) (BitVec.ofNat 4 (bits w 0 4)))
  | 2 => some (.ldfs (BitVec.ofNat 8 (bits w 18 8)) (BitVec.ofNat 8 (bits w 10 8)) (BitVec.ofNat 4 (bits w 6 4)) (BitVec.ofNat 4 (bits w 0 4)))
  | _ => some (.ldfx (BitVec.ofNat 8 (bits w 18 8)) (BitVec.ofNat 8 (bits w 10 8)) (BitVec.ofNat 4 (bits w 6 4)) (BitVec.ofNat 4 (bits w 0 4)))

/-- Words of major 0x25 (R75). -/
def decodeLds (w : Nat) : Option Instr :=
  match bits w 4 2 with
  | 0 => some (.lds (BitVec.ofNat 8 (bits w 18 8)) (BitVec.ofNat 8 (bits w 10 8)) (BitVec.ofNat 4 (bits w 6 4)) (BitVec.ofNat 4 (bits w 0 4)))
  | 1 => some (.sts (BitVec.ofNat 8 (bits w 18 8)) (BitVec.ofNat 8 (bits w 10 8)) (BitVec.ofNat 4 (bits w 6 4)) (BitVec.ofNat 4 (bits w 0 4)))
  | 2 => some (.ldp (BitVec.ofNat 8 (bits w 18 8)) (BitVec.ofNat 8 (bits w 10 8)) (BitVec.ofNat 4 (bits w 6 4)) (BitVec.ofNat 4 (bits w 0 4)))
  | _ => some (.stp (BitVec.ofNat 8 (bits w 18 8)) (BitVec.ofNat 8 (bits w 10 8)) (BitVec.ofNat 4 (bits w 6 4)) (BitVec.ofNat 4 (bits w 0 4)))

/-- Words of major 0x26 (R75). -/
def decodeAtomA (w : Nat) : Option Instr :=
  match bits w 4 2 with
  | 0 => some (.atomAdd (BitVec.ofNat 8 (bits w 18 8)) (BitVec.ofNat 8 (bits w 10 8)) (BitVec.ofNat 4 (bits w 6 4)) (BitVec.ofNat 4 (bits w 0 4)))
  | 1 => some (.atomMin (BitVec.ofNat 8 (bits w 18 8)) (BitVec.ofNat 8 (bits w 10 8)) (BitVec.ofNat 4 (bits w 6 4)) (BitVec.ofNat 4 (bits w 0 4)))
  | 2 => some (.atomMax (BitVec.ofNat 8 (bits w 18 8)) (BitVec.ofNat 8 (bits w 10 8)) (BitVec.ofNat 4 (bits w 6 4)) (BitVec.ofNat 4 (bits w 0 4)))
  | _ => some (.atomXchg (BitVec.ofNat 8 (bits w 18 8)) (BitVec.ofNat 8 (bits w 10 8)) (BitVec.ofNat 4 (bits w 6 4)) (BitVec.ofNat 4 (bits w 0 4)))

/-- Words of major 0x27 (R75). -/
def decodeAtomB (w : Nat) : Option Instr :=
  match bits w 4 2 with
  | 0 => some (.atomAnd (BitVec.ofNat 8 (bits w 18 8)) (BitVec.ofNat 8 (bits w 10 8)) (BitVec.ofNat 4 (bits w 6 4)) (BitVec.ofNat 4 (bits w 0 4)))
  | 1 => some (.atomOr (BitVec.ofNat 8 (bits w 18 8)) (BitVec.ofNat 8 (bits w 10 8)) (BitVec.ofNat 4 (bits w 6 4)) (BitVec.ofNat 4 (bits w 0 4)))
  | 2 => some (.atomXor (BitVec.ofNat 8 (bits w 18 8)) (BitVec.ofNat 8 (bits w 10 8)) (BitVec.ofNat 4 (bits w 6 4)) (BitVec.ofNat 4 (bits w 0 4)))
  | _ => some (.atomCas (BitVec.ofNat 8 (bits w 18 8)) (BitVec.ofNat 8 (bits w 10 8)) (BitVec.ofNat 4 (bits w 6 4)) (BitVec.ofNat 4 (bits w 0 4)))

/-- Words of major 0x28 (R75). -/
def decodeAtomC (w : Nat) : Option Instr :=
  match bits w 4 2 with
  | 0 => some (.atomFadd (BitVec.ofNat 8 (bits w 18 8)) (BitVec.ofNat 8 (bits w 10 8)) (BitVec.ofNat 4 (bits w 6 4)) (BitVec.ofNat 4 (bits w 0 4)))
  | 1 => some (.atomFmin (BitVec.ofNat 8 (bits w 18 8)) (BitVec.ofNat 8 (bits w 10 8)) (BitVec.ofNat 4 (bits w 6 4)) (BitVec.ofNat 4 (bits w 0 4)))
  | 2 => some (.atomFmax (BitVec.ofNat 8 (bits w 18 8)) (BitVec.ofNat 8 (bits w 10 8)) (BitVec.ofNat 4 (bits w 6 4)) (BitVec.ofNat 4 (bits w 0 4)))
  | _ => some (.atomInc (BitVec.ofNat 8 (bits w 18 8)) (BitVec.ofNat 8 (bits w 10 8)) (BitVec.ofNat 4 (bits w 6 4)) (BitVec.ofNat 4 (bits w 0 4)))

/-- Words of major 0x29 (R75). -/
def decodeRedA (w : Nat) : Option Instr :=
  match bits w 4 2 with
  | 0 => some (.redAdd (BitVec.ofNat 8 (bits w 18 8)) (BitVec.ofNat 8 (bits w 10 8)) (BitVec.ofNat 4 (bits w 6 4)) (BitVec.ofNat 4 (bits w 0 4)))
  | 1 => some (.redMin (BitVec.ofNat 8 (bits w 18 8)) (BitVec.ofNat 8 (bits w 10 8)) (BitVec.ofNat 4 (bits w 6 4)) (BitVec.ofNat 4 (bits w 0 4)))
  | 2 => some (.redMax (BitVec.ofNat 8 (bits w 18 8)) (BitVec.ofNat 8 (bits w 10 8)) (BitVec.ofNat 4 (bits w 6 4)) (BitVec.ofNat 4 (bits w 0 4)))
  | _ => some (.redFadd (BitVec.ofNat 8 (bits w 18 8)) (BitVec.ofNat 8 (bits w 10 8)) (BitVec.ofNat 4 (bits w 6 4)) (BitVec.ofNat 4 (bits w 0 4)))

/-- Words of major 0x2A (R75). -/
def decodeRedB (w : Nat) : Option Instr :=
  match bits w 4 2 with
  | 0 => some (.redAnd (BitVec.ofNat 8 (bits w 18 8)) (BitVec.ofNat 8 (bits w 10 8)) (BitVec.ofNat 4 (bits w 6 4)) (BitVec.ofNat 4 (bits w 0 4)))
  | 1 => some (.redOr (BitVec.ofNat 8 (bits w 18 8)) (BitVec.ofNat 8 (bits w 10 8)) (BitVec.ofNat 4 (bits w 6 4)) (BitVec.ofNat 4 (bits w 0 4)))
  | 2 => some (.redXor (BitVec.ofNat 8 (bits w 18 8)) (BitVec.ofNat 8 (bits w 10 8)) (BitVec.ofNat 4 (bits w 6 4)) (BitVec.ofNat 4 (bits w 0 4)))
  | _ => some (.redFmax (BitVec.ofNat 8 (bits w 18 8)) (BitVec.ofNat 8 (bits w 10 8)) (BitVec.ofNat 4 (bits w 6 4)) (BitVec.ofNat 4 (bits w 0 4)))

/-- Words of major 0x2B (R75). -/
def decodeSmem (w : Nat) : Option Instr :=
  match bits w 12 2 with
  | 0 => some (.sld (BitVec.ofNat 6 (bits w 20 6)) (BitVec.ofNat 6 (bits w 14 6)) (BitVec.ofNat 12 (bits w 0 12)))
  | 1 => some (.slda (BitVec.ofNat 6 (bits w 20 6)) (BitVec.ofNat 6 (bits w 14 6)) (BitVec.ofNat 12 (bits w 0 12)))
  | 2 => some (.sst (BitVec.ofNat 6 (bits w 20 6)) (BitVec.ofNat 6 (bits w 14 6)) (BitVec.ofNat 12 (bits w 0 12)))
  | _ => some (.sstl (BitVec.ofNat 6 (bits w 20 6)) (BitVec.ofNat 6 (bits w 14 6)) (BitVec.ofNat 12 (bits w 0 12)))

/-- Words of major 0x2C (R75). -/
def decodeSatom (w : Nat) : Option Instr :=
  match bits w 0 6 with
  | 0 => some (.satomAdd (BitVec.ofNat 6 (bits w 20 6)) (BitVec.ofNat 6 (bits w 14 6)) (BitVec.ofNat 6 (bits w 8 6)) (BitVec.ofNat 2 (bits w 6 2)))
  | 1 => some (.satomMin (BitVec.ofNat 6 (bits w 20 6)) (BitVec.ofNat 6 (bits w 14 6)) (BitVec.ofNat 6 (bits w 8 6)) (BitVec.ofNat 2 (bits w 6 2)))
  | 2 => some (.satomMax (BitVec.ofNat 6 (bits w 20 6)) (BitVec.ofNat 6 (bits w 14 6)) (BitVec.ofNat 6 (bits w 8 6)) (BitVec.ofNat 2 (bits w 6 2)))
  | 3 => some (.satomXchg (BitVec.ofNat 6 (bits w 20 6)) (BitVec.ofNat 6 (bits w 14 6)) (BitVec.ofNat 6 (bits w 8 6)) (BitVec.ofNat 2 (bits w 6 2)))
  | 4 => some (.satomAnd (BitVec.ofNat 6 (bits w 20 6)) (BitVec.ofNat 6 (bits w 14 6)) (BitVec.ofNat 6 (bits w 8 6)) (BitVec.ofNat 2 (bits w 6 2)))
  | 5 => some (.satomOr (BitVec.ofNat 6 (bits w 20 6)) (BitVec.ofNat 6 (bits w 14 6)) (BitVec.ofNat 6 (bits w 8 6)) (BitVec.ofNat 2 (bits w 6 2)))
  | 6 => some (.satomXor (BitVec.ofNat 6 (bits w 20 6)) (BitVec.ofNat 6 (bits w 14 6)) (BitVec.ofNat 6 (bits w 8 6)) (BitVec.ofNat 2 (bits w 6 2)))
  | 7 => some (.satomCas (BitVec.ofNat 6 (bits w 20 6)) (BitVec.ofNat 6 (bits w 14 6)) (BitVec.ofNat 6 (bits w 8 6)) (BitVec.ofNat 2 (bits w 6 2)))
  | 8 => some (.satomFadd (BitVec.ofNat 6 (bits w 20 6)) (BitVec.ofNat 6 (bits w 14 6)) (BitVec.ofNat 6 (bits w 8 6)) (BitVec.ofNat 2 (bits w 6 2)))
  | 9 => some (.satomFmin (BitVec.ofNat 6 (bits w 20 6)) (BitVec.ofNat 6 (bits w 14 6)) (BitVec.ofNat 6 (bits w 8 6)) (BitVec.ofNat 2 (bits w 6 2)))
  | 10 => some (.satomFmax (BitVec.ofNat 6 (bits w 20 6)) (BitVec.ofNat 6 (bits w 14 6)) (BitVec.ofNat 6 (bits w 8 6)) (BitVec.ofNat 2 (bits w 6 2)))
  | 11 => some (.satomInc (BitVec.ofNat 6 (bits w 20 6)) (BitVec.ofNat 6 (bits w 14 6)) (BitVec.ofNat 6 (bits w 8 6)) (BitVec.ofNat 2 (bits w 6 2)))
  | 12 => some (.satomMinn (BitVec.ofNat 6 (bits w 20 6)) (BitVec.ofNat 6 (bits w 14 6)) (BitVec.ofNat 6 (bits w 8 6)) (BitVec.ofNat 2 (bits w 6 2)))
  | 13 => some (.satomMaxn (BitVec.ofNat 6 (bits w 20 6)) (BitVec.ofNat 6 (bits w 14 6)) (BitVec.ofNat 6 (bits w 8 6)) (BitVec.ofNat 2 (bits w 6 2)))
  | _ => none

/-- Words of major 0x2D (R75). -/
def decodeFence (w : Nat) : Option Instr :=
  match bits w 20 3 with
  | 0 => if bits w 0 20 = 0 then some (.fence (BitVec.ofNat 3 (bits w 23 3)))
      else none
  | 1 => if bits w 0 20 = 0 then some (.fenceEng (BitVec.ofNat 3 (bits w 23 3)))
      else none
  | 2 => if bits w 0 20 = 0 ∧ bits w 23 3 = 0 then some .fenceIo
      else none
  | 3 => if bits w 0 12 = 0 ∧ bits w 23 3 = 0 then some (.pref (BitVec.ofNat 6 (bits w 14 6)) (BitVec.ofNat 2 (bits w 12 2)))
      else none
  | 4 => if bits w 4 10 = 0 ∧ bits w 23 3 = 0 then some (.lease (BitVec.ofNat 6 (bits w 14 6)) (BitVec.ofNat 4 (bits w 0 4)))
      else none
  | 5 => if bits w 0 8 = 0 then some (.wbr (BitVec.ofNat 3 (bits w 23 3)) (BitVec.ofNat 6 (bits w 14 6)) (BitVec.ofNat 6 (bits w 8 6)))
      else none
  | 6 => if bits w 0 20 = 0 then some (.drain (BitVec.ofNat 3 (bits w 23 3)))
      else none
  | _ => none

/-- Words of major 0x30 (R75). -/
def decodeMma (w : Nat) : Option Instr :=
  if bits w 4 2 = 0 then some (.mma (BitVec.ofNat 5 (bits w 21 5)) (BitVec.ofNat 6 (bits w 15 6)) (BitVec.ofNat 6 (bits w 9 6)) (BitVec.ofNat 1 (bits w 8 1)) (BitVec.ofNat 1 (bits w 7 1)) (BitVec.ofNat 1 (bits w 6 1)) (BitVec.ofNat 4 (bits w 0 4)))
      else none

/-- Words of major 0x31 (R75). -/
def decodeMtile (w : Nat) : Option Instr :=
  match bits w 0 4 with
  | 0 => if bits w 8 6 = 0 then some (.wload (BitVec.ofNat 6 (bits w 20 6)) (BitVec.ofNat 6 (bits w 14 6)) (BitVec.ofNat 4 (bits w 4 4)))
      else none
  | 1 => if bits w 8 6 = 0 then some (.wloadw (BitVec.ofNat 6 (bits w 20 6)) (BitVec.ofNat 6 (bits w 14 6)) (BitVec.ofNat 4 (bits w 4 4)))
      else none
  | 2 => if bits w 4 16 = 0 then some (.wclr (BitVec.ofNat 6 (bits w 20 6)))
      else none
  | 3 => if bits w 8 6 = 0 then some (.mcompS24 (BitVec.ofNat 6 (bits w 20 6)) (BitVec.ofNat 6 (bits w 14 6)) (BitVec.ofNat 4 (bits w 4 4)))
      else if bits w 8 6 = 1 then some (.mcompS48 (BitVec.ofNat 6 (bits w 20 6)) (BitVec.ofNat 6 (bits w 14 6)) (BitVec.ofNat 4 (bits w 4 4)))
      else none
  | _ => none

/-- Words of major 0x32 (R75). -/
def decodeAcc (w : Nat) : Option Instr :=
  match bits w 0 4 with
  | 0 => if bits w 4 16 = 0 ∧ bits w 25 1 = 0 then some (.accz (BitVec.ofNat 5 (bits w 20 5)))
      else none
  | 1 => if bits w 25 1 = 0 then some (.accrd (BitVec.ofNat 5 (bits w 20 5)) (BitVec.ofNat 6 (bits w 14 6)) (BitVec.ofNat 6 (bits w 8 6)) (BitVec.ofNat 4 (bits w 4 4)))
      else none
  | 2 => if bits w 25 1 = 0 then some (.accwr (BitVec.ofNat 5 (bits w 20 5)) (BitVec.ofNat 6 (bits w 14 6)) (BitVec.ofNat 6 (bits w 8 6)) (BitVec.ofNat 4 (bits w 4 4)))
      else none
  | 3 => if bits w 4 16 = 0 ∧ bits w 25 1 = 0 then some (.accchk (BitVec.ofNat 5 (bits w 20 5)))
      else none
  | _ => none

/-- Words of major 0x33 (R75). -/
def decodeDelta (w : Nat) : Option Instr :=
  match bits w 0 4 with
  | 0 => if bits w 4 10 = 0 ∧ bits w 20 6 = 0 then some (.layer (BitVec.ofNat 6 (bits w 14 6)))
      else none
  | 1 => if bits w 25 1 = 0 then some (.dmma (BitVec.ofNat 5 (bits w 20 5)) (BitVec.ofNat 6 (bits w 14 6)) (BitVec.ofNat 6 (bits w 8 6)) (BitVec.ofNat 4 (bits w 4 4)))
      else none
  | 2 => if bits w 25 1 = 0 then some (.drefresh (BitVec.ofNat 5 (bits w 20 5)) (BitVec.ofNat 6 (bits w 14 6)) (BitVec.ofNat 6 (bits w 8 6)) (BitVec.ofNat 4 (bits w 4 4)))
      else none
  | 3 => if bits w 4 4 = 0 ∧ bits w 20 6 = 0 then some (.dinval (BitVec.ofNat 6 (bits w 14 6)) (BitVec.ofNat 6 (bits w 8 6)))
      else none
  | 4 => if bits w 4 10 = 0 then some (.dstat (BitVec.ofNat 6 (bits w 20 6)) (BitVec.ofNat 6 (bits w 14 6)))
      else none
  | _ => none

/-- Words of major 0x34 (R75). -/
def decodeCopy (w : Nat) : Option Instr :=
  match bits w 0 4 with
  | 0 => some (.acopy (BitVec.ofNat 6 (bits w 20 6)) (BitVec.ofNat 6 (bits w 14 6)) (BitVec.ofNat 6 (bits w 8 6)) (BitVec.ofNat 4 (bits w 4 4)))
  | 1 => some (.agath (BitVec.ofNat 6 (bits w 20 6)) (BitVec.ofNat 6 (bits w 14 6)) (BitVec.ofNat 6 (bits w 8 6)) (BitVec.ofNat 4 (bits w 4 4)))
  | 2 => some (.ascat (BitVec.ofNat 6 (bits w 20 6)) (BitVec.ofNat 6 (bits w 14 6)) (BitVec.ofNat 6 (bits w 8 6)) (BitVec.ofNat 4 (bits w 4 4)))
  | 3 => some (.afill (BitVec.ofNat 6 (bits w 20 6)) (BitVec.ofNat 6 (bits w 14 6)) (BitVec.ofNat 6 (bits w 8 6)) (BitVec.ofNat 4 (bits w 4 4)))
  | _ => none

/-- Words of major 0x35 (R75). -/
def decodeRing (w : Nat) : Option Instr :=
  match bits w 0 4 with
  | 0 => if bits w 4 10 = 0 then some (.rtkt (BitVec.ofNat 6 (bits w 20 6)) (BitVec.ofNat 6 (bits w 14 6)))
      else none
  | 1 => if bits w 4 4 = 0 ∧ bits w 20 6 = 0 then some (.rfill (BitVec.ofNat 6 (bits w 14 6)) (BitVec.ofNat 6 (bits w 8 6)))
      else none
  | 2 => if bits w 4 4 = 0 then some (.rhead (BitVec.ofNat 6 (bits w 20 6)) (BitVec.ofNat 6 (bits w 14 6)) (BitVec.ofNat 6 (bits w 8 6)))
      else none
  | 3 => if bits w 4 10 = 0 ∧ bits w 20 6 = 0 then some (.post (BitVec.ofNat 6 (bits w 14 6)))
      else none
  | 4 => if bits w 4 10 = 0 ∧ bits w 20 6 = 0 then some (.postn (BitVec.ofNat 6 (bits w 14 6)))
      else none
  | _ => none

/-- Words of major 0x36 (R75). -/
noncomputable def decodeWalkg (w : Nat) : Option Instr :=
  match bits w 0 4 with
  | 0 => if bits w 4 16 = 0 then some (.walk (BitVec.ofNat 6 (bits w 20 6)))
      else none
  | 1 => if bits w 4 10 = 0 ∧ bits w 20 6 = 0 then some (.wdone (BitVec.ofNat 6 (bits w 14 6)))
      else none
  | 2 => if bits w 4 4 = 0 ∧ bits w 14 6 = 0 then some (.ephrd (BitVec.ofNat 6 (bits w 20 6)) (BitVec.ofNat 6 (bits w 8 6)))
      else none
  | 3 => if bits w 4 4 = 0 ∧ bits w 20 6 = 0 then some (.ephwr (BitVec.ofNat 6 (bits w 14 6)) (BitVec.ofNat 6 (bits w 8 6)))
      else none
  | 4 => if bits w 4 16 = 0 then some (.ephcommit (BitVec.ofNat 6 (bits w 20 6)))
      else none
  | 5 => if bits w 4 10 = 0 then some (.covq (BitVec.ofNat 6 (bits w 20 6)) (BitVec.ofNat 6 (bits w 14 6)))
      else none
  | _ => none

/-- Words of major 0x37 (R75). -/
noncomputable def decodeBar (w : Nat) : Option Instr :=
  match bits w 0 4 with
  | 0 => if bits w 4 4 = 0 ∧ bits w 20 6 = 0 then some (.barinit (BitVec.ofNat 6 (bits w 14 6)) (BitVec.ofNat 6 (bits w 8 6)))
      else none
  | 1 => if bits w 4 22 = 131072 then some .bararrGrid
      else if bits w 4 10 = 0 ∧ bits w 20 6 = 0 then some (.bararr (BitVec.ofNat 6 (bits w 14 6)))
      else none
  | 2 => if bits w 4 4 = 0 ∧ bits w 20 6 = 0 then some (.barexp (BitVec.ofNat 6 (bits w 14 6)) (BitVec.ofNat 6 (bits w 8 6)))
      else none
  | 3 => if bits w 4 22 = 131072 then some .barwaitGrid
      else if bits w 4 4 = 0 ∧ bits w 21 5 = 0 then some (.barwait (BitVec.ofNat 1 (bits w 20 1)) (BitVec.ofNat 6 (bits w 14 6)) (BitVec.ofNat 6 (bits w 8 6)))
      else none
  | 4 => if bits w 4 4 = 0 then some (.bartry (BitVec.ofNat 6 (bits w 20 6)) (BitVec.ofNat 6 (bits w 14 6)) (BitVec.ofNat 6 (bits w 8 6)))
      else none
  | 5 => if bits w 4 4 = 0 then some (.watch (BitVec.ofNat 6 (bits w 20 6)) (BitVec.ofNat 6 (bits w 14 6)) (BitVec.ofNat 6 (bits w 8 6)))
      else none
  | 6 => if bits w 4 4 = 0 ∧ bits w 20 6 = 0 then some (.unwatch (BitVec.ofNat 6 (bits w 14 6)) (BitVec.ofNat 6 (bits w 8 6)))
      else none
  | _ => none

/-- Words of major 0x38 (R75). -/
noncomputable def decodePool (w : Nat) : Option Instr :=
  match bits w 0 4 with
  | 0 => if bits w 4 10 = 0 ∧ bits w 20 6 = 0 then some (.claim (BitVec.ofNat 6 (bits w 14 6)))
      else none
  | 1 => if bits w 4 10 = 0 ∧ bits w 20 6 = 0 then some (.give (BitVec.ofNat 6 (bits w 14 6)))
      else none
  | 2 => if bits w 4 16 = 0 then some (.poolq (BitVec.ofNat 6 (bits w 20 6)))
      else none
  | _ => none

/-- Words of major 0x39 (R75). -/
noncomputable def decodeMsg (w : Nat) : Option Instr :=
  match bits w 0 4 with
  | 0 => if bits w 4 4 = 0 then some (.amsg (BitVec.ofNat 6 (bits w 20 6)) (BitVec.ofNat 6 (bits w 14 6)) (BitVec.ofNat 6 (bits w 8 6)))
      else none
  | 1 => if bits w 4 4 = 0 then some (.abump (BitVec.ofNat 6 (bits w 20 6)) (BitVec.ofNat 6 (bits w 14 6)) (BitVec.ofNat 6 (bits w 8 6)))
      else none
  | _ => none

/-- Words of major 0x3A (R75). -/
noncomputable def decodeSys (w : Nat) : Option Instr :=
  match bits w 0 8 with
  | 0 => if bits w 8 6 = 0 then some (.svc (BitVec.ofNat 6 (bits w 20 6)) (BitVec.ofNat 6 (bits w 14 6)))
      else none
  | 1 => if bits w 8 6 = 0 ∧ bits w 20 6 = 0 then some (.trap (BitVec.ofNat 6 (bits w 14 6)))
      else none
  | 2 => if bits w 20 6 = 0 then some (.eret (BitVec.ofNat 6 (bits w 14 6)) (BitVec.ofNat 6 (bits w 8 6)))
      else none
  | 3 => if bits w 20 6 = 0 then some (.tlbinv (BitVec.ofNat 6 (bits w 14 6)) (BitVec.ofNat 6 (bits w 8 6)))
      else none
  | 4 => if bits w 8 6 = 0 ∧ bits w 20 6 = 0 then some (.tlbinva (BitVec.ofNat 6 (bits w 14 6)))
      else none
  | 5 => if bits w 8 6 = 0 ∧ bits w 20 6 = 0 then some (.haltg (BitVec.ofNat 6 (bits w 14 6)))
      else none
  | 6 => if bits w 8 6 = 0 ∧ bits w 20 6 = 0 then some (.wakeg (BitVec.ofNat 6 (bits w 14 6)))
      else none
  | _ => none

/-- Words of major 0x3F (R75). -/
def decodeIllegal (w : Nat) : Option Instr :=
  if bits w 0 26 = 67108863 then some .illegal
      else none

/-- The instruction that the 32-bit word `w` encodes (R54, R75 to R78), or `none` for a word that
is no instruction (R80).  Compiled code cannot build an instruction past the
245th constructor with fields, so this and what calls it is evaluated by the kernel only. -/
noncomputable def decodeWord (w : Nat) : Option Instr :=
  match bits w 26 6 with
  | 0 => decodeHdr w
  | 1 => decodeSetmode w
  | 2 => decodeBr w
  | 3 => decodeCall w
  | 4 => decodeJump w
  | 7 => decodeNop w
  | 8 => decodeSalu w
  | 9 => decodeSalui w
  | 10 => decodeSshi w
  | 11 => decodeSli w
  | 12 => decodeMask w
  | 13 => decodeSreg w
  | 16 => decodeVadd w
  | 17 => decodeVfma w
  | 18 => decodeVmin w
  | 19 => decodeVand w
  | 20 => decodeVshl w
  | 21 => decodeVcmp w
  | 22 => decodeVsel w
  | 23 => decodeVun w
  | 24 => decodeVsfu w
  | 25 => decodeVcvt w
  | 26 => decodeVaddi w
  | 27 => decodeVmuli w
  | 28 => decodeVxln w
  | 29 => decodeVscan w
  | 30 => decodeVdiv w
  | 31 => decodeVrng w
  | 32 => decodeVld w
  | 33 => decodeVst w
  | 34 => decodeLdb w
  | 35 => decodeStb w
  | 36 => decodeVldf w
  | 37 => decodeLds w
  | 38 => decodeAtomA w
  | 39 => decodeAtomB w
  | 40 => decodeAtomC w
  | 41 => decodeRedA w
  | 42 => decodeRedB w
  | 43 => decodeSmem w
  | 44 => decodeSatom w
  | 45 => decodeFence w
  | 48 => decodeMma w
  | 49 => decodeMtile w
  | 50 => decodeAcc w
  | 51 => decodeDelta w
  | 52 => decodeCopy w
  | 53 => decodeRing w
  | 54 => decodeWalkg w
  | 55 => decodeBar w
  | 56 => decodePool w
  | 57 => decodeMsg w
  | 58 => decodeSys w
  | 63 => decodeIllegal w
  | _ => none

/-- A word's fixed bits with 1 field value, each at its bit position (R54). -/
def put1 (base : Nat) (x1 l1 : Nat) : Option Nat :=
  some (base + x1 * 2 ^ l1)

/-- A word's fixed bits with 2 field values, each at its bit position (R54). -/
def put2 (base : Nat) (x1 l1 : Nat) (x2 l2 : Nat) : Option Nat :=
  some (base + x1 * 2 ^ l1 + x2 * 2 ^ l2)

/-- A word's fixed bits with 3 field values, each at its bit position (R54). -/
def put3 (base : Nat) (x1 l1 : Nat) (x2 l2 : Nat) (x3 l3 : Nat) : Option Nat :=
  some (base + x1 * 2 ^ l1 + x2 * 2 ^ l2 + x3 * 2 ^ l3)

/-- A word's fixed bits with 4 field values, each at its bit position (R54). -/
def put4 (base : Nat) (x1 l1 : Nat) (x2 l2 : Nat) (x3 l3 : Nat) (x4 l4 : Nat) : Option Nat :=
  some (base + x1 * 2 ^ l1 + x2 * 2 ^ l2 + x3 * 2 ^ l3 + x4 * 2 ^ l4)

/-- A word's fixed bits with 5 field values, each at its bit position (R54). -/
def put5 (base : Nat) (x1 l1 : Nat) (x2 l2 : Nat) (x3 l3 : Nat) (x4 l4 : Nat) (x5 l5 : Nat) : Option Nat :=
  some (base + x1 * 2 ^ l1 + x2 * 2 ^ l2 + x3 * 2 ^ l3 + x4 * 2 ^ l4 + x5 * 2 ^ l5)

/-- A word's fixed bits with 6 field values, each at its bit position (R54). -/
def put6 (base : Nat) (x1 l1 : Nat) (x2 l2 : Nat) (x3 l3 : Nat) (x4 l4 : Nat) (x5 l5 : Nat) (x6 l6 : Nat) : Option Nat :=
  some (base + x1 * 2 ^ l1 + x2 * 2 ^ l2 + x3 * 2 ^ l3 + x4 * 2 ^ l4 + x5 * 2 ^ l5 + x6 * 2 ^ l6)

/-- A word's fixed bits with 7 field values, each at its bit position (R54). -/
def put7 (base : Nat) (x1 l1 : Nat) (x2 l2 : Nat) (x3 l3 : Nat) (x4 l4 : Nat) (x5 l5 : Nat) (x6 l6 : Nat) (x7 l7 : Nat) : Option Nat :=
  some (base + x1 * 2 ^ l1 + x2 * 2 ^ l2 + x3 * 2 ^ l3 + x4 * 2 ^ l4 + x5 * 2 ^ l5 + x6 * 2 ^ l6 + x7 * 2 ^ l7)

/-- The word of an instruction, written from the formats of R54 and the opcode map of R75;
`none` for a step that has no word. -/
def encode : Instr → Option Nat
  | .hdr l w p => put3 0x00000000 l.toNat 21 w.toNat 9 p.toNat 8
  | .setmode i => put1 0x04000000 i.toNat 0
  | .br c d => put2 0x08000000 c.toNat 22 d.toNat 0
  | .brNever d => put1 0x0A000000 d.toNat 0
  | .call d => put1 0x0C000000 d.toNat 0
  | .jmp a => put1 0x10000000 a.toNat 14
  | .callr a => put1 0x10000001 a.toNat 14
  | .ret => some 0x10000002
  | .regang d => put1 0x10000003 d.toNat 20
  | .exit => some 0x10000004
  | .yield => some 0x10000005
  | .nop => some 0x1C000000
  | .sadd d a b => put3 0x20000000 d.toNat 20 a.toNat 14 b.toNat 8
  | .ssub d a b => put3 0x20000001 d.toNat 20 a.toNat 14 b.toNat 8
  | .smul d a b => put3 0x20000002 d.toNat 20 a.toNat 14 b.toNat 8
  | .smulh d a b => put3 0x20000003 d.toNat 20 a.toNat 14 b.toNat 8
  | .smulhn d a b => put3 0x20000004 d.toNat 20 a.toNat 14 b.toNat 8
  | .sdiv d a b => put3 0x20000005 d.toNat 20 a.toNat 14 b.toNat 8
  | .sdivn d a b => put3 0x20000006 d.toNat 20 a.toNat 14 b.toNat 8
  | .srem d a b => put3 0x20000007 d.toNat 20 a.toNat 14 b.toNat 8
  | .sremn d a b => put3 0x20000008 d.toNat 20 a.toNat 14 b.toNat 8
  | .sand d a b => put3 0x20000009 d.toNat 20 a.toNat 14 b.toNat 8
  | .sor d a b => put3 0x2000000A d.toNat 20 a.toNat 14 b.toNat 8
  | .sxor d a b => put3 0x2000000B d.toNat 20 a.toNat 14 b.toNat 8
  | .sandn d a b => put3 0x2000000C d.toNat 20 a.toNat 14 b.toNat 8
  | .sshl d a b => put3 0x2000000D d.toNat 20 a.toNat 14 b.toNat 8
  | .sshr d a b => put3 0x2000000E d.toNat 20 a.toNat 14 b.toNat 8
  | .ssra d a b => put3 0x2000000F d.toNat 20 a.toNat 14 b.toNat 8
  | .srol d a b => put3 0x20000010 d.toNat 20 a.toNat 14 b.toNat 8
  | .smin d a b => put3 0x20000011 d.toNat 20 a.toNat 14 b.toNat 8
  | .smax d a b => put3 0x20000012 d.toNat 20 a.toNat 14 b.toNat 8
  | .sminn d a b => put3 0x20000013 d.toNat 20 a.toNat 14 b.toNat 8
  | .smaxn d a b => put3 0x20000014 d.toNat 20 a.toNat 14 b.toNat 8
  | .sceq d a b => put3 0x20000015 d.toNat 20 a.toNat 14 b.toNat 8
  | .scne d a b => put3 0x20000016 d.toNat 20 a.toNat 14 b.toNat 8
  | .sclt d a b => put3 0x20000017 d.toNat 20 a.toNat 14 b.toNat 8
  | .scle d a b => put3 0x20000018 d.toNat 20 a.toNat 14 b.toNat 8
  | .scltn d a b => put3 0x20000019 d.toNat 20 a.toNat 14 b.toNat 8
  | .sclen d a b => put3 0x2000001A d.toNat 20 a.toNat 14 b.toNat 8
  | .ssel d a b => put3 0x2000001B d.toNat 20 a.toNat 14 b.toNat 8
  | .spopc d a => put2 0x2000001C d.toNat 20 a.toNat 14
  | .sclz d a => put2 0x2000001D d.toNat 20 a.toNat 14
  | .sctz d a => put2 0x2000001E d.toNat 20 a.toNat 14
  | .sbrev d a => put2 0x2000001F d.toNat 20 a.toNat 14
  | .sextb d a => put2 0x20000020 d.toNat 20 a.toNat 14
  | .sexth d a => put2 0x20000021 d.toNat 20 a.toNat 14
  | .sextw d a => put2 0x20000022 d.toNat 20 a.toNat 14
  | .saddi d a i => put3 0x24000000 d.toNat 20 a.toNat 14 i.toNat 0
  | .sandi d a i => put3 0x24001000 d.toNat 20 a.toNat 14 i.toNat 0
  | .sori d a i => put3 0x24002000 d.toNat 20 a.toNat 14 i.toNat 0
  | .sxori d a i => put3 0x24003000 d.toNat 20 a.toNat 14 i.toNat 0
  | .sshli d a i => put3 0x28000000 d.toNat 20 a.toNat 14 i.toNat 0
  | .sshri d a i => put3 0x28001000 d.toNat 20 a.toNat 14 i.toNat 0
  | .ssrai d a i => put3 0x28002000 d.toNat 20 a.toNat 14 i.toNat 0
  | .sceqi d a i => put3 0x28003000 d.toNat 20 a.toNat 14 i.toNat 0
  | .sli d p i => put3 0x2C000000 d.toNat 20 p.toNat 18 i.toNat 0
  | .slik d p i => put3 0x2C010000 d.toNat 20 p.toNat 18 i.toNat 0
  | .slis d p i => put3 0x2C020000 d.toNat 20 p.toNat 18 i.toNat 0
  | .mand d a b => put3 0x30000000 d.toNat 20 a.toNat 14 b.toNat 8
  | .mor d a b => put3 0x30000001 d.toNat 20 a.toNat 14 b.toNat 8
  | .mxor d a b => put3 0x30000002 d.toNat 20 a.toNat 14 b.toNat 8
  | .mandn d a b => put3 0x30000003 d.toNat 20 a.toNat 14 b.toNat 8
  | .mnot d a => put2 0x30000004 d.toNat 20 a.toNat 14
  | .mmov d a => put2 0x30000005 d.toNat 20 a.toNat 14
  | .mtos d a => put2 0x30000006 d.toNat 20 a.toNat 14
  | .stom d a => put2 0x30000007 d.toNat 20 a.toNat 14
  | .mpopc d a => put2 0x30000008 d.toNat 20 a.toNat 14
  | .mfirst d a => put2 0x30000009 d.toNat 20 a.toNat 14
  | .mslice d a => put2 0x3000000A d.toNat 20 a.toNat 14
  | .srd d i => put2 0x34000000 d.toNat 20 i.toNat 0
  | .swr a i => put2 0x34001000 a.toNat 14 i.toNat 0
  | .sxch d a i => put3 0x34002000 d.toNat 20 a.toNat 14 i.toNat 0
  | .vadd d a b => put3 0x40000000 d.toNat 18 a.toNat 10 b.toNat 2
  | .vsub d a b => put3 0x40000001 d.toNat 18 a.toNat 10 b.toNat 2
  | .vmul d a b => put3 0x40000002 d.toNat 18 a.toNat 10 b.toNat 2
  | .vmulh d a b => put3 0x40000003 d.toNat 18 a.toNat 10 b.toNat 2
  | .vfma d a b => put3 0x44000000 d.toNat 18 a.toNat 10 b.toNat 2
  | .vfms d a b => put3 0x44000001 d.toNat 18 a.toNat 10 b.toNat 2
  | .vfnma d a b => put3 0x44000002 d.toNat 18 a.toNat 10 b.toNat 2
  | .vfnms d a b => put3 0x44000003 d.toNat 18 a.toNat 10 b.toNat 2
  | .vmin d a b => put3 0x48000000 d.toNat 18 a.toNat 10 b.toNat 2
  | .vmax d a b => put3 0x48000001 d.toNat 18 a.toNat 10 b.toNat 2
  | .vadds d a b => put3 0x48000002 d.toNat 18 a.toNat 10 b.toNat 2
  | .vsubs d a b => put3 0x48000003 d.toNat 18 a.toNat 10 b.toNat 2
  | .vand d a b => put3 0x4C000000 d.toNat 18 a.toNat 10 b.toNat 2
  | .vor d a b => put3 0x4C000001 d.toNat 18 a.toNat 10 b.toNat 2
  | .vxor d a b => put3 0x4C000002 d.toNat 18 a.toNat 10 b.toNat 2
  | .vandn d a b => put3 0x4C000003 d.toNat 18 a.toNat 10 b.toNat 2
  | .vshl d a b => put3 0x50000000 d.toNat 18 a.toNat 10 b.toNat 2
  | .vshr d a b => put3 0x50000001 d.toNat 18 a.toNat 10 b.toNat 2
  | .vsra d a b => put3 0x50000002 d.toNat 18 a.toNat 10 b.toNat 2
  | .vrol d a b => put3 0x50000003 d.toNat 18 a.toNat 10 b.toNat 2
  | .vcmp c m a b => put4 0x54000000 c.toNat 22 m.toNat 18 a.toNat 10 b.toNat 2
  | .vcmpn c m a b => put4 0x54000001 c.toNat 22 m.toNat 18 a.toNat 10 b.toNat 2
  | .vclass n m a s => put4 0x54000002 n.toNat 22 m.toNat 18 a.toNat 10 s.toNat 2
  | .vtest t m a b => put4 0x54000003 t.toNat 22 m.toNat 18 a.toNat 10 b.toNat 2
  | .vsel d a b => put3 0x58000000 d.toNat 18 a.toNat 10 b.toNat 2
  | .vmov d a => put2 0x58000001 d.toNat 18 a.toNat 10
  | .vneg d a => put2 0x58000002 d.toNat 18 a.toNat 10
  | .vabs d a => put2 0x58000003 d.toNat 18 a.toNat 10
  | .vnot d a => put2 0x5C000000 d.toNat 18 a.toNat 10
  | .vpopc d a => put2 0x5C000004 d.toNat 18 a.toNat 10
  | .vclz d a => put2 0x5C000008 d.toNat 18 a.toNat 10
  | .vbrev d a => put2 0x5C00000C d.toNat 18 a.toNat 10
  | .vfloor d a => put2 0x5C000010 d.toNat 18 a.toNat 10
  | .vceil d a => put2 0x5C000014 d.toNat 18 a.toNat 10
  | .vtrunc d a => put2 0x5C000018 d.toNat 18 a.toNat 10
  | .vrint d a => put2 0x5C00001C d.toNat 18 a.toNat 10
  | .vfrac d a => put2 0x5C000020 d.toNat 18 a.toNat 10
  | .vsqrt d a => put2 0x5C000024 d.toNat 18 a.toNat 10
  | .vrcp d a => put2 0x60000000 d.toNat 18 a.toNat 10
  | .vrsq d a => put2 0x60000004 d.toNat 18 a.toNat 10
  | .vexp2 d a => put2 0x60000008 d.toNat 18 a.toNat 10
  | .vlog2 d a => put2 0x6000000C d.toNat 18 a.toNat 10
  | .vsin d a => put2 0x60000010 d.toNat 18 a.toNat 10
  | .vcos d a => put2 0x60000014 d.toNat 18 a.toNat 10
  | .vtanh d a => put2 0x60000018 d.toNat 18 a.toNat 10
  | .vsigm d a => put2 0x6000001C d.toNat 18 a.toNat 10
  | .vgelu d a => put2 0x60000020 d.toNat 18 a.toNat 10
  | .verf d a => put2 0x60000024 d.toNat 18 a.toNat 10
  | .vcvt d a s t => put4 0x64000000 d.toNat 18 a.toNat 10 s.toNat 6 t.toNat 2
  | .vcvtTo64 d a c => put3 0x64000000 d.toNat 18 a.toNat 10 c.toNat 6
  | .vcvtFrom64 d a c => put3 0x64000004 d.toNat 18 a.toNat 10 c.toNat 6
  | .vcvtX64 d a c => put3 0x64000008 d.toNat 18 a.toNat 10 c.toNat 6
  | .vpack d a s t => put4 0x64000001 d.toNat 18 a.toNat 10 s.toNat 6 t.toNat 2
  | .vunpkl d a s t => put4 0x64000002 d.toNat 18 a.toNat 10 s.toNat 6 t.toNat 2
  | .vunpkh d a s t => put4 0x64000003 d.toNat 18 a.toNat 10 s.toNat 6 t.toNat 2
  | .vaddi d a i => put3 0x68000000 d.toNat 18 a.toNat 10 i.toNat 0
  | .vandi d a i => put3 0x68000100 d.toNat 18 a.toNat 10 i.toNat 0
  | .vori d a i => put3 0x68000200 d.toNat 18 a.toNat 10 i.toNat 0
  | .vshli d a i => put3 0x68000300 d.toNat 18 a.toNat 10 i.toNat 0
  | .vmuli d a i => put3 0x6C000000 d.toNat 18 a.toNat 10 i.toNat 0
  | .vshri d a i => put3 0x6C000100 d.toNat 18 a.toNat 10 i.toNat 0
  | .vsrai d a i => put3 0x6C000200 d.toNat 18 a.toNat 10 i.toNat 0
  | .vcmpi c m a i => put4 0x6C000300 c.toNat 22 m.toNat 18 a.toNat 10 i.toNat 0
  | .vxorl d a m k => put4 0x70000000 d.toNat 18 a.toNat 10 m.toNat 6 k.toNat 2
  | .vrotl d a m k => put4 0x70000001 d.toNat 18 a.toNat 10 m.toNat 6 k.toNat 2
  | .vbcl d a m k => put4 0x70000002 d.toNat 18 a.toNat 10 m.toNat 6 k.toNat 2
  | .vlstep d a m k => put4 0x70000003 d.toNat 18 a.toNat 10 m.toNat 6 k.toNat 2
  | .vscan d a m o => put4 0x74000000 d.toNat 18 a.toNat 10 m.toNat 6 o.toNat 2
  | .vreds d a m o => put4 0x74000001 d.toNat 18 a.toNat 10 m.toNat 6 o.toNat 2
  | .vvote d a m o => put4 0x74000002 d.toNat 18 a.toNat 10 m.toNat 6 o.toNat 2
  | .vmatch d a m o => put4 0x74000003 d.toNat 18 a.toNat 10 m.toNat 6 o.toNat 2
  | .vdiv d a b => put3 0x78000000 d.toNat 18 a.toNat 10 b.toNat 2
  | .vdot4 d a b => put3 0x78000001 d.toNat 18 a.toNat 10 b.toNat 2
  | .vaddc d a b => put3 0x78000002 d.toNat 18 a.toNat 10 b.toNat 2
  | .vmulw d a b => put3 0x78000003 d.toNat 18 a.toNat 10 b.toNat 2
  | .vrng d a b => put3 0x7C000000 d.toNat 18 a.toNat 10 b.toNat 2
  | .vdrop d a b => put3 0x7C000001 d.toNat 18 a.toNat 10 b.toNat 2
  | .vbcst d a => put2 0x7C000002 d.toNat 18 a.toNat 10
  | .vlane d => put1 0x7C000003 d.toNat 18
  | .ld d x b f => put4 0x80000000 d.toNat 18 x.toNat 10 b.toNat 6 f.toNat 0
  | .lda d x b f => put4 0x80000010 d.toNat 18 x.toNat 10 b.toNat 6 f.toNat 0
  | .ldw d x b f => put4 0x80000020 d.toNat 18 x.toNat 10 b.toNat 6 f.toNat 0
  | .ldnt d x b f => put4 0x80000030 d.toNat 18 x.toNat 10 b.toNat 6 f.toNat 0
  | .st d x b f => put4 0x84000000 d.toNat 18 x.toNat 10 b.toNat 6 f.toNat 0
  | .stl d x b f => put4 0x84000010 d.toNat 18 x.toNat 10 b.toNat 6 f.toNat 0
  | .stw d x b f => put4 0x84000020 d.toNat 18 x.toNat 10 b.toNat 6 f.toNat 0
  | .stnt d x b f => put4 0x84000030 d.toNat 18 x.toNat 10 b.toNat 6 f.toNat 0
  | .ldb d x b f => put4 0x88000000 d.toNat 18 x.toNat 10 b.toNat 6 f.toNat 0
  | .ldbs d x b f => put4 0x88000010 d.toNat 18 x.toNat 10 b.toNat 6 f.toNat 0
  | .ldh d x b f => put4 0x88000020 d.toNat 18 x.toNat 10 b.toNat 6 f.toNat 0
  | .ldhs d x b f => put4 0x88000030 d.toNat 18 x.toNat 10 b.toNat 6 f.toNat 0
  | .stb d x b f => put4 0x8C000000 d.toNat 18 x.toNat 10 b.toNat 6 f.toNat 0
  | .sth d x b f => put4 0x8C000010 d.toNat 18 x.toNat 10 b.toNat 6 f.toNat 0
  | .ldd d x b f => put4 0x8C000020 d.toNat 18 x.toNat 10 b.toNat 6 f.toNat 0
  | .std d x b f => put4 0x8C000030 d.toNat 18 x.toNat 10 b.toNat 6 f.toNat 0
  | .ldf d x b f => put4 0x90000000 d.toNat 18 x.toNat 10 b.toNat 6 f.toNat 0
  | .ldf2 d x b f => put4 0x90000010 d.toNat 18 x.toNat 10 b.toNat 6 f.toNat 0
  | .ldfs d x b f => put4 0x90000020 d.toNat 18 x.toNat 10 b.toNat 6 f.toNat 0
  | .ldfx d x b f => put4 0x90000030 d.toNat 18 x.toNat 10 b.toNat 6 f.toNat 0
  | .lds d x b f => put4 0x94000000 d.toNat 18 x.toNat 10 b.toNat 6 f.toNat 0
  | .sts d x b f => put4 0x94000010 d.toNat 18 x.toNat 10 b.toNat 6 f.toNat 0
  | .ldp d x b f => put4 0x94000020 d.toNat 18 x.toNat 10 b.toNat 6 f.toNat 0
  | .stp d x b f => put4 0x94000030 d.toNat 18 x.toNat 10 b.toNat 6 f.toNat 0
  | .atomAdd d x b f => put4 0x98000000 d.toNat 18 x.toNat 10 b.toNat 6 f.toNat 0
  | .atomMin d x b f => put4 0x98000010 d.toNat 18 x.toNat 10 b.toNat 6 f.toNat 0
  | .atomMax d x b f => put4 0x98000020 d.toNat 18 x.toNat 10 b.toNat 6 f.toNat 0
  | .atomXchg d x b f => put4 0x98000030 d.toNat 18 x.toNat 10 b.toNat 6 f.toNat 0
  | .atomAnd d x b f => put4 0x9C000000 d.toNat 18 x.toNat 10 b.toNat 6 f.toNat 0
  | .atomOr d x b f => put4 0x9C000010 d.toNat 18 x.toNat 10 b.toNat 6 f.toNat 0
  | .atomXor d x b f => put4 0x9C000020 d.toNat 18 x.toNat 10 b.toNat 6 f.toNat 0
  | .atomCas d x b f => put4 0x9C000030 d.toNat 18 x.toNat 10 b.toNat 6 f.toNat 0
  | .atomFadd d x b f => put4 0xA0000000 d.toNat 18 x.toNat 10 b.toNat 6 f.toNat 0
  | .atomFmin d x b f => put4 0xA0000010 d.toNat 18 x.toNat 10 b.toNat 6 f.toNat 0
  | .atomFmax d x b f => put4 0xA0000020 d.toNat 18 x.toNat 10 b.toNat 6 f.toNat 0
  | .atomInc d x b f => put4 0xA0000030 d.toNat 18 x.toNat 10 b.toNat 6 f.toNat 0
  | .redAdd d x b f => put4 0xA4000000 d.toNat 18 x.toNat 10 b.toNat 6 f.toNat 0
  | .redMin d x b f => put4 0xA4000010 d.toNat 18 x.toNat 10 b.toNat 6 f.toNat 0
  | .redMax d x b f => put4 0xA4000020 d.toNat 18 x.toNat 10 b.toNat 6 f.toNat 0
  | .redFadd d x b f => put4 0xA4000030 d.toNat 18 x.toNat 10 b.toNat 6 f.toNat 0
  | .redAnd d x b f => put4 0xA8000000 d.toNat 18 x.toNat 10 b.toNat 6 f.toNat 0
  | .redOr d x b f => put4 0xA8000010 d.toNat 18 x.toNat 10 b.toNat 6 f.toNat 0
  | .redXor d x b f => put4 0xA8000020 d.toNat 18 x.toNat 10 b.toNat 6 f.toNat 0
  | .redFmax d x b f => put4 0xA8000030 d.toNat 18 x.toNat 10 b.toNat 6 f.toNat 0
  | .sld d a i => put3 0xAC000000 d.toNat 20 a.toNat 14 i.toNat 0
  | .slda d a i => put3 0xAC001000 d.toNat 20 a.toNat 14 i.toNat 0
  | .sst d a i => put3 0xAC002000 d.toNat 20 a.toNat 14 i.toNat 0
  | .sstl d a i => put3 0xAC003000 d.toNat 20 a.toNat 14 i.toNat 0
  | .satomAdd d a b o => put4 0xB0000000 d.toNat 20 a.toNat 14 b.toNat 8 o.toNat 6
  | .satomMin d a b o => put4 0xB0000001 d.toNat 20 a.toNat 14 b.toNat 8 o.toNat 6
  | .satomMax d a b o => put4 0xB0000002 d.toNat 20 a.toNat 14 b.toNat 8 o.toNat 6
  | .satomXchg d a b o => put4 0xB0000003 d.toNat 20 a.toNat 14 b.toNat 8 o.toNat 6
  | .satomAnd d a b o => put4 0xB0000004 d.toNat 20 a.toNat 14 b.toNat 8 o.toNat 6
  | .satomOr d a b o => put4 0xB0000005 d.toNat 20 a.toNat 14 b.toNat 8 o.toNat 6
  | .satomXor d a b o => put4 0xB0000006 d.toNat 20 a.toNat 14 b.toNat 8 o.toNat 6
  | .satomCas d a b o => put4 0xB0000007 d.toNat 20 a.toNat 14 b.toNat 8 o.toNat 6
  | .satomFadd d a b o => put4 0xB0000008 d.toNat 20 a.toNat 14 b.toNat 8 o.toNat 6
  | .satomFmin d a b o => put4 0xB0000009 d.toNat 20 a.toNat 14 b.toNat 8 o.toNat 6
  | .satomFmax d a b o => put4 0xB000000A d.toNat 20 a.toNat 14 b.toNat 8 o.toNat 6
  | .satomInc d a b o => put4 0xB000000B d.toNat 20 a.toNat 14 b.toNat 8 o.toNat 6
  | .satomMinn d a b o => put4 0xB000000C d.toNat 20 a.toNat 14 b.toNat 8 o.toNat 6
  | .satomMaxn d a b o => put4 0xB000000D d.toNat 20 a.toNat 14 b.toNat 8 o.toNat 6
  | .fence s => put1 0xB4000000 s.toNat 23
  | .fenceEng s => put1 0xB4100000 s.toNat 23
  | .fenceIo => some 0xB4200000
  | .pref a l => put2 0xB4300000 a.toNat 14 l.toNat 12
  | .lease a n => put2 0xB4400000 a.toNat 14 n.toNat 0
  | .wbr s a b => put3 0xB4500000 s.toNat 23 a.toNat 14 b.toNat 8
  | .drain s => put1 0xB4600000 s.toNat 23
  | .mma c a b n t s f => put7 0xC0000000 c.toNat 21 a.toNat 15 b.toNat 9 n.toNat 8 t.toNat 7 s.toNat 6 f.toNat 0
  | .wload d a f => put3 0xC4000000 d.toNat 20 a.toNat 14 f.toNat 4
  | .wloadw d a f => put3 0xC4000001 d.toNat 20 a.toNat 14 f.toNat 4
  | .wclr d => put1 0xC4000002 d.toNat 20
  | .mcompS24 d a f => put3 0xC4000003 d.toNat 20 a.toNat 14 f.toNat 4
  | .mcompS48 d a f => put3 0xC4000103 d.toNat 20 a.toNat 14 f.toNat 4
  | .accz d => put1 0xC8000000 d.toNat 20
  | .accrd d a b f => put4 0xC8000001 d.toNat 20 a.toNat 14 b.toNat 8 f.toNat 4
  | .accwr d a b f => put4 0xC8000002 d.toNat 20 a.toNat 14 b.toNat 8 f.toNat 4
  | .accchk d => put1 0xC8000003 d.toNat 20
  | .layer a => put1 0xCC000000 a.toNat 14
  | .dmma d a b f => put4 0xCC000001 d.toNat 20 a.toNat 14 b.toNat 8 f.toNat 4
  | .drefresh d a b f => put4 0xCC000002 d.toNat 20 a.toNat 14 b.toNat 8 f.toNat 4
  | .dinval a b => put2 0xCC000003 a.toNat 14 b.toNat 8
  | .dstat d a => put2 0xCC000004 d.toNat 20 a.toNat 14
  | .acopy d a b f => put4 0xD0000000 d.toNat 20 a.toNat 14 b.toNat 8 f.toNat 4
  | .agath d a b f => put4 0xD0000001 d.toNat 20 a.toNat 14 b.toNat 8 f.toNat 4
  | .ascat d a b f => put4 0xD0000002 d.toNat 20 a.toNat 14 b.toNat 8 f.toNat 4
  | .afill d a b f => put4 0xD0000003 d.toNat 20 a.toNat 14 b.toNat 8 f.toNat 4
  | .rtkt d a => put2 0xD4000000 d.toNat 20 a.toNat 14
  | .rfill a b => put2 0xD4000001 a.toNat 14 b.toNat 8
  | .rhead d a b => put3 0xD4000002 d.toNat 20 a.toNat 14 b.toNat 8
  | .post a => put1 0xD4000003 a.toNat 14
  | .postn a => put1 0xD4000004 a.toNat 14
  | .walk d => put1 0xD8000000 d.toNat 20
  | .wdone a => put1 0xD8000001 a.toNat 14
  | .ephrd d b => put2 0xD8000002 d.toNat 20 b.toNat 8
  | .ephwr a b => put2 0xD8000003 a.toNat 14 b.toNat 8
  | .ephcommit d => put1 0xD8000004 d.toNat 20
  | .covq d a => put2 0xD8000005 d.toNat 20 a.toNat 14
  | .barinit a b => put2 0xDC000000 a.toNat 14 b.toNat 8
  | .bararr a => put1 0xDC000001 a.toNat 14
  | .bararrGrid => some 0xDC200001
  | .barexp a b => put2 0xDC000002 a.toNat 14 b.toNat 8
  | .barwait n a b => put3 0xDC000003 n.toNat 20 a.toNat 14 b.toNat 8
  | .barwaitGrid => some 0xDC200003
  | .bartry d a b => put3 0xDC000004 d.toNat 20 a.toNat 14 b.toNat 8
  | .watch d a b => put3 0xDC000005 d.toNat 20 a.toNat 14 b.toNat 8
  | .unwatch a b => put2 0xDC000006 a.toNat 14 b.toNat 8
  | .claim a => put1 0xE0000000 a.toNat 14
  | .give a => put1 0xE0000001 a.toNat 14
  | .poolq d => put1 0xE0000002 d.toNat 20
  | .amsg d a b => put3 0xE4000000 d.toNat 20 a.toNat 14 b.toNat 8
  | .abump d a b => put3 0xE4000001 d.toNat 20 a.toNat 14 b.toNat 8
  | .svc d a => put2 0xE8000000 d.toNat 20 a.toNat 14
  | .trap a => put1 0xE8000001 a.toNat 14
  | .eret a b => put2 0xE8000002 a.toNat 14 b.toNat 8
  | .tlbinv a b => put2 0xE8000003 a.toNat 14 b.toNat 8
  | .tlbinva a => put1 0xE8000004 a.toNat 14
  | .haltg a => put1 0xE8000005 a.toNat 14
  | .wakeg a => put1 0xE8000006 a.toNat 14
  | .illegal => some 0xFFFFFFFF
  | .stalledWordIssue _ _ _ => none
  | .instructionFetch _ _ _ => none
  | .pageWalk _ _ _ => none
  | .fifoEntryDrain _ => none
  | .homeStore _ _ => none
  | .storeAcknowledge _ _ => none
  | .releaseSend _ => none
  | .homeLeaseGrant _ _ => none
  | .lineFill _ _ _ _ => none
  | .homeAtomic _ _ => none
  | .atomicAcknowledge _ _ => none
  | .writeBack _ _ => none
  | .homeEvict _ => none
  | .dramRefill _ => none
  | .rebase => none
  | .watchArrival _ _ => none
  | .peerScratchpadAccess _ _ _ => none
  | .barwaitWake _ _ _ => none
  | .coreUngate _ => none
  | .claimGrant _ _ _ => none
  | .gangEnd _ _ => none
  | .blockEnd _ => none
  | .phaseEnd _ => none
  | .phaseRedispatch _ _ => none
  | .launch _ _ _ => none
  | .launchWindowStatusWrite _ _ _ => none
  | .launchAdmit _ _ => none
  | .blockDispatch _ _ => none
  | .completionRecordWrite _ => none
  | .taskDispatch _ _ => none
  | .overflowRingMove _ _ => none
  | .engineCommandStart _ _ => none
  | .granuleLand _ _ => none
  | .matrixOpStart _ _ => none
  | .rowBufferStage _ _ _ => none
  | .kstepPlanes _ _ _ => none
  | .accumulatorAdd _ _ => none
  | .umbraEntryTransfer _ _ _ => none
  | .deferredFaultTaken _ _ => none
  | .weightStoreWindowClose => none
  | .networkArbitration _ => none
  | .linkResend _ _ _ => none
  | .hostRead _ _ => none
  | .hostWrite _ _ _ => none
  | .backInvalidate _ _ _ => none
  | .biasFlip _ => none
  | .biasFlipComplete => none
  | .hreq _ => none
  | .tierWindowWrite _ _ _ => none
  | .bar0RegisterWrite _ _ => none
  | .weightStoreCommand _ => none
  | .weightStoreWriteDone => none
  | .peerRequestReceive _ _ _ _ _ _ _ => none
  | .fabricResend _ => none
  | .fabricTimeout _ _ => none
  | .activeMessageReceive _ _ _ _ _ _ => none
  | .activeMessageAnswer _ _ => none
  | .handlerDispatch _ _ => none
  | .messageRingDrain _ => none
  | .preemptSave => none
  | .preemptRestore _ => none
  | .tctlOff _ => none
  | .tctlRun _ => none
  | .tctlSuspend _ => none
  | .tctlTeardown _ => none
  | .teardownComplete _ => none
  | .trootWrite _ _ => none
  | .umbraRegionWrite _ _ _ => none
  | .flogptrWrite _ _ => none
  | .formatWindowWrite _ _ _ => none
  | .getinfo => none
  | .setcap => none
  | .getpower => none
  | .setwdog => none
  | .loadsup => none
  | .getlog => none
  | .getcert => none
  | .quote => none
  | .geterr => none
  | .diecnt => none
  | .dierd => none
  | .standby => none
  | .wake => none
  | .reset _ _ => none
  | .mailboxStatusWrite _ => none
  | .coldReset _ _ => none
  | .powerRemoval => none
  | .clockStepChange _ => none
  | .currentLimit _ => none
  | .idleEntry => none
  | .hbmSelfRefresh => none
  | .watchdogExpiry _ => none
  | .supervisorRestart _ => none
  | .rootOfTrustFailure => none
  | .peerAccessAnswer _ _ _ _ _ => none

/-- Why a word is no instruction. -/
inductive DecodeError where
  /-- a word with major 0x00 that keeps not its zero bits: judged by the run rules (R63, R80) -/
  | runHeader
  /-- a reserved major (R75, R80) -/
  | reservedMajor
  /-- a reserved selector value or a non-zero bit in a field that must be zero (R80) -/
  | reservedWord
  /-- a reserved value in a field that the word decodes (R57, R64, R78, R80) -/
  | reservedField
  deriving DecidableEq, Repr

/-- Whether a major opcode has forms (R75). -/
def majorUsed (m : Nat) : Bool :=
  decide (m ≤ 4) || (decide (7 ≤ m) && decide (m ≤ 0x0D)) || (decide (0x10 ≤ m) && decide (m ≤ 0x2D)) ||
    (decide (0x30 ≤ m) && decide (m ≤ 0x3A)) || m == 0x3F

/-- The well-formed instruction of a word, or why there is none. -/
noncomputable def decode (w : BitVec 32) : Except DecodeError Instr :=
  match decodeWord w.toNat with
  | some i => if wellFormed i then .ok i else .error .reservedField
  | none =>
    if bits w.toNat 26 6 = 0 then .error .runHeader
    else if majorUsed (bits w.toNat 26 6) then .error .reservedWord
    else .error .reservedMajor

/-- The instruction that the decoder reads from an instruction of the opcode table: one 32-bit word, its
bits above `nbits` zero. -/
noncomputable def decodeTableWord (nbits w : Nat) : Option Instr :=
  match decode (BitVec.ofNat 32 (w % 2 ^ nbits)) with
  | .ok i => some i
  | .error _ => none

end Sys2Proof
end

