-- ==== Sys2Proof/Machine/Bits.lean ====
section
/-! DEFINITION. Bit fields, extensions and byte order (R6, R8, R9, R59). -/

namespace Sys2Proof.Machine

/-- The `len` bits of `w` from bit `lo` up, as a number: x[lo + len - 1 : lo] (R8). -/
def field (w lo len : Nat) : Nat := w / 2 ^ lo % 2 ^ len

/-- Bit `i` of `w`. -/
def bitOf (w i : Nat) : Bool := w / 2 ^ i % 2 == 1

/-- The low `n` bits of `x` read as a signed number: sext(x, n) of R9. -/
def signedOf (n x : Nat) : Int :=
  if 2 * (x % 2 ^ n) < 2 ^ n then (x % 2 ^ n : Nat) else (x % 2 ^ n : Nat) - (2 ^ n : Nat)

/-- An integer modulo 2 to the `n`, as bits. -/
def wrapTo (n : Nat) (x : Int) : Nat := (x % (2 ^ n : Nat)).toNat

/-- sext to 64 bits. -/
def sext64 {n : Nat} (x : BitVec n) : Word64 := x.signExtend 64

/-- zext to 64 bits. -/
def zext64 {n : Nat} (x : BitVec n) : Word64 := x.setWidth 64

/-- The number of 1 bits of the low `n` bits of `x`. -/
def popCount : Nat → Nat → Nat
  | 0, _ => 0
  | n + 1, x => x % 2 + popCount n (x / 2)

/-- The number of zero bits above the highest 1 bit of an `n`-bit value; `n` when it is zero. -/
def leadingZeros (n x : Nat) : Nat := if x % 2 ^ n = 0 then n else n - 1 - Nat.log2 (x % 2 ^ n)

/-- The index of the lowest 1 bit among the low `n` bits; `n` when there is none. -/
def trailingZeros : Nat → Nat → Nat
  | 0, _ => 0
  | n + 1, x => if x % 2 = 1 then 0 else 1 + trailingZeros n (x / 2)

/-- The low `n` bits of `x` in reverse order. -/
def reverseBits : Nat → Nat → Nat
  | 0, _ => 0
  | n + 1, x => x % 2 * 2 ^ n + reverseBits n (x / 2)

/-- `x`, of `n` bits, rotated left by `k` below `n`. -/
def rotateLeft (n x k : Nat) : Nat := (x * 2 ^ k + x / 2 ^ (n - k)) % 2 ^ n

/-- The bytes of a number, least significant first (R6). -/
def bytesOf : Nat → Nat → List Byte
  | 0, _ => []
  | n + 1, x => BitVec.ofNat 8 x :: bytesOf n (x / 256)

/-- The number that bytes hold, least significant first (R6). -/
def ofBytes : List Byte → Nat
  | [] => 0
  | b :: rest => b.toNat + 256 * ofBytes rest

/-- The numbers below `n` whose bit is set in `m`, in rising order. -/
def bitsSet (n m : Nat) : List Nat := (List.range n).filter (fun i => bitOf m i)

/-- The mask whose set bits are the listed indices. -/
def maskOf (l : List Nat) : Nat := l.foldl (fun m i => m ||| 2 ^ i) 0

/-- The integer part of a square root, by trial of bit `i - 1` down to bit 0. -/
def sqrtStep (n : Nat) : Nat → Nat → Nat
  | 0, r => r
  | i + 1, r => if (r + 2 ^ i) * (r + 2 ^ i) ≤ n then sqrtStep n i (r + 2 ^ i) else sqrtStep n i r

/-- The integer part of the square root of `n`. -/
def isqrt (n : Nat) : Nat := sqrtStep n (Nat.log2 n / 2 + 1) 0

end Sys2Proof.Machine
end

