-- ==== Sys2Proof/Machine/Numeric.lean ====
section
/-! DEFINITION. Number formats, rounding and narrowing (05_number_formats.md).  A value is exact: a
ratio of natural numbers with a sign, an infinity or a NaN; every result is rounded once. -/

namespace Sys2Proof.Machine

/-- The parameters of a floating format (R99). -/
structure Fmt where
  /-- bits of the exponent field -/
  ebits : Nat
  /-- bits of the fraction field -/
  fbits : Nat
  /-- the exponent bias -/
  bias : Nat
  /-- the largest magnitude code of a finite value -/
  maxCode : Nat
  /-- the magnitude code of infinity, in the formats that have one -/
  infCode : Option Nat
  /-- the canonical NaN (R100), in the formats that have one -/
  nanCode : Option Nat
  deriving DecidableEq, Repr

namespace Fmt
/-- The bits of a value of the format. -/
def width (f : Fmt) : Nat := 1 + f.ebits + f.fbits
/-- IEEE binary64. -/
def f64 : Fmt := ⟨11, 52, 1023, 0x7FEFFFFFFFFFFFFF, some 0x7FF0000000000000, some 0x7FF8000000000000⟩
/-- IEEE binary32. -/
def f32 : Fmt := ⟨8, 23, 127, 0x7F7FFFFF, some 0x7F800000, some 0x7FC00000⟩
/-- IEEE binary16. -/
def f16 : Fmt := ⟨5, 10, 15, 0x7BFF, some 0x7C00, some 0x7E00⟩
/-- bfloat16. -/
def bf16 : Fmt := ⟨8, 7, 127, 0x7F7F, some 0x7F80, some 0x7FC0⟩
/-- The 8-bit format with no infinities. -/
def e4m3 : Fmt := ⟨4, 3, 7, 0x7E, none, some 0x7F⟩
/-- The IEEE-like 8-bit format. -/
def e5m2 : Fmt := ⟨5, 2, 15, 0x7B, some 0x7C, some 0x7E⟩
/-- The 4-bit format with neither infinities nor NaN. -/
def e2m1 : Fmt := ⟨2, 1, 1, 7, none, none⟩
end Fmt

/-- An exact value: NaN, an infinity, or plus or minus `n / d` (`d` is never zero; a zero keeps
its sign). -/
inductive Num where
  | nan
  | inf (neg : Bool)
  | fin (neg : Bool) (n d : Nat)
  deriving DecidableEq, Repr

namespace Num
/-- An integer, with +0 for zero. -/
def ofInt (x : Int) : Num := .fin (decide (x < 0)) x.natAbs 1
/-- The sign with which a value is written. -/
def isNeg : Num → Bool
  | .nan => false
  | .inf s => s
  | .fin s _ _ => s
/-- Whether the value is NaN. -/
def isNan : Num → Bool
  | .nan => true
  | _ => false
/-- Whether the value is zero, of either sign. -/
def isZero : Num → Bool
  | .fin _ n _ => n == 0
  | _ => false
/-- The value with its sign inverted. -/
def negate : Num → Num
  | .nan => .nan
  | .inf s => .inf (!s)
  | .fin s n d => .fin (!s) n d
/-- The signed numerator of a finite value. -/
def numer (s : Bool) (n : Nat) : Int := if s then -(n : Int) else n
end Num

/-- Rounding modes of MODE.RND (R108). -/
inductive Rnd where
  | rne | rtz | rup | rdn | rna
  deriving DecidableEq, Repr

/-- The rounding mode of a MODE.RND value. -/
def Rnd.ofCode : Nat → Rnd
  | 1 => .rtz
  | 2 => .rup
  | 3 => .rdn
  | 4 => .rna
  | _ => .rne

/-- How one result is rounded: a mode of MODE.RND, or stochastically by 24 hash bits (R110). -/
inductive Rounding where
  | mode (r : Rnd)
  | stochastic (u : Nat)
  deriving DecidableEq, Repr

/-- Whether a magnitude `k + r / d` between the neighbours `k` and `k + 1` rounds up. -/
def roundsUp (m : Rounding) (neg : Bool) (k r d : Nat) : Bool :=
  match m with
  | .mode .rne => decide (2 * r > d) || (decide (2 * r = d) && k % 2 == 1)
  | .mode .rna => decide (2 * r ≥ d) && decide (r > 0)
  | .mode .rtz => false
  | .mode .rup => !neg && decide (r > 0)
  | .mode .rdn => neg && decide (r > 0)
  | .stochastic u => decide (u * d < r * 2 ^ 24)

/-- The integer part of the base-2 logarithm of `n / d`, for `n` and `d` above zero. -/
def ratLog2 (n d : Nat) : Int :=
  let l : Int := (Nat.log2 n : Int) - (Nat.log2 d : Int)
  let below : Bool := if 0 ≤ l then decide (n < d * 2 ^ l.toNat) else decide (n * 2 ^ (-l).toNat < d)
  if below then l - 1 else l

/-- A magnitude `n / d` over the quantum 2 to the `q`: the whole quanta, the remainder and its
divisor. -/
def overQuantum (n d : Nat) (q : Int) : Nat × Nat × Nat :=
  if 0 ≤ q then
    let dd := d * 2 ^ q.toNat
    (n / dd, n % dd, dd)
  else
    let nn := n * 2 ^ (-q).toNat
    (nn / d, nn % d, d)

/-- The exponent of the smallest quantum of a format. -/
def Fmt.minQ (f : Fmt) : Int := 1 - (f.bias : Int) - (f.fbits : Int)

/-- The quantum exponent in which a non-zero magnitude is rounded, subnormals included. -/
def Fmt.quantum (f : Fmt) (n d : Nat) : Int := max f.minQ (ratLog2 n d - f.fbits)

/-- A magnitude rounded with an unbounded exponent: its magnitude code (codes past `maxCode` are an
overflow) and whether the rounding was exact. -/
def Fmt.roundMag (f : Fmt) (m : Rounding) (neg : Bool) (n d : Nat) : Nat × Bool :=
  if n = 0 then (0, true)
  else
    let q := f.quantum n d
    let (k, r, dd) := overQuantum n d q
    let k' := if roundsUp m neg k r dd then k + 1 else k
    ((q - f.minQ).toNat * 2 ^ f.fbits + k', r == 0)

/-- The bits of a sign and a magnitude code. -/
def Fmt.pack (f : Fmt) (neg : Bool) (c : Nat) : Nat := (if neg then 2 ^ (f.ebits + f.fbits) else 0) + c

/-- The canonical NaN, or +0 in a format without one. -/
def Fmt.nan (f : Fmt) : Nat := f.nanCode.getD 0

/-- The value of the magnitude code `c`. -/
def Fmt.magnitude (f : Fmt) (c : Nat) : Nat × Nat :=
  let e := c / 2 ^ f.fbits
  let k := if e = 0 then c else c % 2 ^ f.fbits + 2 ^ f.fbits
  let q : Int := f.minQ + ((e - 1 : Nat) : Int)
  if 0 ≤ q then (k * 2 ^ q.toNat, 1) else (k, 2 ^ (-q).toNat)

/-- The value that the bits `x` hold (R99 to R101). -/
def Fmt.decode (f : Fmt) (x : Nat) : Num :=
  let neg := bitOf x (f.ebits + f.fbits)
  let c := x % 2 ^ (f.ebits + f.fbits)
  if c ≤ f.maxCode then
    let (n, d) := f.magnitude c
    .fin neg n d
  else if f.infCode = some c then .inf neg
  else .nan

/-- Whether the bits hold a subnormal, zero included. -/
def Fmt.isTiny (f : Fmt) (x : Nat) : Bool := decide (x % 2 ^ (f.ebits + f.fbits) < 2 ^ f.fbits)

/-- An input under MODE.FTZ: a subnormal becomes a zero of the same sign (R109). -/
def Fmt.flush (f : Fmt) (ftz : Bool) (x : Nat) : Nat :=
  if ftz && f.isTiny x then f.pack (bitOf x (f.ebits + f.fbits)) 0 else x

/-- An input of arithmetic: its value after the flush of R109. -/
def Fmt.input (f : Fmt) (ftz : Bool) (x : Nat) : Num := f.decode (f.flush ftz x)

/-- Rounding under MODE.RND and MODE.FTZ with the overflow handling of R108: the helper fl. -/
def Fmt.round (f : Fmt) (r : Rnd) (ftz : Bool) : Num → Nat
  | .nan => f.nan
  | .inf neg =>
    match f.infCode with
    | some c => f.pack neg c
    | none => f.nan
  | .fin neg n d =>
    let (c, _) := f.roundMag (.mode r) neg n d
    if c ≤ f.maxCode then
      if ftz && decide (c < 2 ^ f.fbits) then f.pack neg 0 else f.pack neg c
    else
      let toInf : Bool := match r with
        | .rne => true
        | .rna => true
        | .rtz => false
        | .rup => !neg
        | .rdn => neg
      if toInf then
        match f.infCode with
        | some i => f.pack neg i
        | none => f.nan
      else f.pack neg f.maxCode

/-- The exact sum, with the zero signs of R133. -/
def Num.add (r : Rnd) : Num → Num → Num
  | .nan, _ => .nan
  | _, .nan => .nan
  | .inf s, .inf t => if s = t then .inf s else .nan
  | .inf s, .fin .. => .inf s
  | .fin .., .inf t => .inf t
  | .fin s n d, .fin t m e =>
    let x : Int := Num.numer s n * e + Num.numer t m * d
    if x = 0 then .fin (if n = 0 ∧ m = 0 ∧ s = t then s else decide (r = .rdn)) 0 1
    else .fin (decide (x < 0)) x.natAbs (d * e)

/-- The exact product. -/
def Num.mul : Num → Num → Num
  | .nan, _ => .nan
  | _, .nan => .nan
  | .inf s, .inf t => .inf (s != t)
  | .inf s, .fin t m _ => if m = 0 then .nan else .inf (s != t)
  | .fin s n _, .inf t => if n = 0 then .nan else .inf (s != t)
  | .fin s n d, .fin t m e => .fin (s != t) (n * m) (d * e)

/-- The exact quotient, with the IEEE results for zero and infinite operands. -/
def Num.div : Num → Num → Num
  | .nan, _ => .nan
  | _, .nan => .nan
  | .inf _, .inf _ => .nan
  | .inf s, .fin t _ _ => .inf (s != t)
  | .fin s _ _, .inf t => .fin (s != t) 0 1
  | .fin s n d, .fin t m e =>
    if m = 0 then (if n = 0 then .nan else .inf (s != t))
    else .fin (s != t) (n * e) (d * m)

/-- The square root.  An irrational root is given as a value strictly between two neighbours of a
grid far finer than any format, so that one rounding of it is the rounding of the exact root. -/
def Num.sqrt : Num → Num
  | .nan => .nan
  | .inf s => if s then .nan else .inf false
  | .fin s n d =>
    if n = 0 then .fin s 0 1
    else if s then .nan
    else
      let k := 64 + (Nat.log2 d + 1 - Nat.log2 n) / 2
      let x := n * 2 ^ (2 * k)
      let r := isqrt (x / d)
      if r * r * d = x then .fin false r (2 ^ k) else .fin false (2 * r + 1) (2 ^ (k + 1))

/-- Numeric order of two non-NaN values (−0 equals +0). -/
def Num.lt : Num → Num → Bool
  | .nan, _ => false
  | _, .nan => false
  | .inf s, .inf t => s && !t
  | .inf s, .fin .. => s
  | .fin .., .inf t => !t
  | .fin s n d, .fin t m e => decide (Num.numer s n * e < Num.numer t m * d)

/-- Numeric equality of two non-NaN values (−0 equals +0). -/
def Num.eq : Num → Num → Bool
  | .nan, _ => false
  | _, .nan => false
  | .inf s, .inf t => s == t
  | .inf _, .fin .. => false
  | .fin .., .inf _ => false
  | .fin s n d, .fin t m e => decide (Num.numer s n * e = Num.numer t m * d)

/-- The magnitude of a finite value rounded to an integer. -/
def roundIntMag (m : Rounding) (neg : Bool) (n d : Nat) : Nat :=
  if roundsUp m neg (n / d) (n % d) d then n / d + 1 else n / d

/-- A finite value rounded to an integer. -/
def roundInt (m : Rounding) (neg : Bool) (n d : Nat) : Int := Num.numer neg (roundIntMag m neg n d)

/-- The smallest value of an integer format of `w` bits. -/
def intMin (signed : Bool) (w : Nat) : Int := if signed then -(2 ^ (w - 1) : Nat) else 0
/-- The largest value of an integer format of `w` bits. -/
def intMax (signed : Bool) (w : Nat) : Int := if signed then (2 ^ (w - 1) : Nat) - 1 else (2 ^ w : Nat) - 1
/-- A value clamped to an integer format: sat of R9. -/
def intSat (signed : Bool) (w : Nat) (x : Int) : Int := max (intMin signed w) (min (intMax signed w) x)
/-- Bits read in a format's signedness. -/
def intRead (signed : Bool) (w : Nat) (x : Nat) : Int := if signed then signedOf w x else (x % 2 ^ w : Nat)

/-- A floating value converted to an integer under MODE.RND: saturating, NaN gives 0 (R108). -/
def Num.toIntSat (r : Rnd) (signed : Bool) (w : Nat) : Num → Nat
  | .nan => 0
  | .inf s => wrapTo w (if s then intMin signed w else intMax signed w)
  | .fin s n d => wrapTo w (intSat signed w (roundInt (.mode r) s n d))

/-! ## Storage formats (R98) -/

/-- What a storage format holds. -/
inductive Storage where
  | float (f : Fmt)
  | int (signed : Bool) (w : Nat)
  | sq4
  | sq8
  deriving DecidableEq, Repr

/-- The storage format of a code; 18 and above are reserved. -/
def storage : Nat → Option Storage
  | 0 => some (.float .f32)
  | 1 => some (.float .f16)
  | 2 => some (.float .bf16)
  | 3 => some (.float .e4m3)
  | 4 => some (.float .e5m2)
  | 5 => some (.float .e2m1)
  | 6 => some .sq4
  | 7 => some .sq8
  | 8 => some (.int true 32)
  | 9 => some (.int false 32)
  | 10 => some (.int true 16)
  | 11 => some (.int false 16)
  | 12 => some (.int true 8)
  | 13 => some (.int false 8)
  | 14 => some (.int true 4)
  | 15 => some (.int false 4)
  | 16 => some (.float .f64)
  | 17 => some (.int true 64)
  | _ => none

/-- Bits per element of a storage format. -/
def Storage.width : Storage → Nat
  | .float f => f.width
  | .int _ w => w
  | .sq4 => 4
  | .sq8 => 8

/-- Bits per element of a storage code; 0 for a reserved code. -/
def codeWidth (c : Nat) : Nat := (storage c).elim 0 Storage.width

/-! ## Block records (R104, R105) -/

/-- Whether a block record keeps the rules of R104: SCALE positive and finite, [63:41] zero. -/
def recordOk (rec : Word64) : Bool :=
  let s := field rec.toNat 0 32
  decide (0 < s) && decide (s ≤ Fmt.f32.maxCode) && field rec.toNat 41 23 == 0

/-- The SCALE of a record. -/
def recordScale (rec : Word64) : Num := Fmt.f32.decode (field rec.toNat 0 32)
/-- The SPECIAL code of a record. -/
def recordSpecial (rec : Word64) : Nat := field rec.toNat 32 8
/-- The SPEN bit of a record. -/
def recordSpen (rec : Word64) : Bool := bitOf rec.toNat 40

/-- The element value before scaling, in units of SCALE. -/
def decodeSqElem (wide : Bool) (c : Nat) (rec : Word64) : Num :=
  if recordSpen rec && c == (if wide then 0x80 else 8) then Fmt.e4m3.decode (recordSpecial rec)
  else if wide then Fmt.e4m3.decode c else Fmt.e2m1.decode c

/-- decode_sq4 and decode_sq8 of R105, for a record that R104 accepts. -/
def decodeSq (wide : Bool) (c : Nat) (rec : Word64) : Num := (decodeSqElem wide c rec).mul (recordScale rec)

/-- The exact value of an element's bits; square-scaled elements decode under `rec`. -/
def Storage.decode (s : Storage) (rec : Word64) (x : Nat) : Num :=
  match s with
  | .float f => f.decode x
  | .int sg w => .ofInt (intRead sg w x)
  | .sq4 => decodeSq false (x % 16) rec
  | .sq8 => decodeSq true (x % 256) rec

/-- Whether a SPECIAL may reach the matrix path: k / 2 with |k| at most 15 (R106). -/
def specialOnGrid (rec : Word64) : Bool :=
  if recordSpen rec then
    match Fmt.e4m3.decode (recordSpecial rec) with
    | .fin _ n d => 2 * n % d == 0 && decide (2 * n / d ≤ 15)
    | _ => false
  else true

/-! ## Narrowing (R110 to R113) -/

/-- A NARROW control: rounding in [1:0], overflow handling in [3:2]. -/
structure Control where
  rounding : Nat
  overflow : Nat
  deriving DecidableEq, Repr

/-- The hash of the device (R156). -/
def hash64 (key seed : Word64) : Word64 :=
  let x := key ^^^ (seed * 0x9E3779B97F4A7C15#64)
  let x := x ^^^ (x >>> 30)
  let x := x * 0xBF58476D1CE4E5B9#64
  let x := x ^^^ (x >>> 27)
  let x := x * 0x94D049BB133111EB#64
  x ^^^ (x >>> 31)

/-- The 24 random bits of a narrowing with this key (R110). -/
def stochasticBits (key : Nat) (seed : Word64) : Nat := field (hash64 (BitVec.ofNat 64 key) seed).toNat 40 24

/-- The rounding that control bits [1:0] select for a result with this key. -/
def Control.mode (c : Control) (key : Nat) (seed : Word64) : Rounding :=
  match c.rounding with
  | 0 => .mode .rne
  | 1 => .mode .rtz
  | 2 => .stochastic (stochasticBits key seed)
  | _ => .mode .rna

/-- The outcome of a finite overflow in a format with NaN (R111). -/
def Fmt.narrowOverflow (f : Fmt) (c : Control) (neg : Bool) : Nat :=
  if c.overflow = 0 then
    if c.rounding = 1 then f.pack neg f.maxCode
    else match f.infCode with
      | some i => f.pack neg i
      | none => f.nan
  else f.pack neg f.maxCode

/-- Narrowing to f16, bf16, e4m3 or e5m2 (R110, R111). -/
def Fmt.narrow (f : Fmt) (c : Control) (key : Nat) (seed : Word64) : Num → Nat
  | .nan => if c.overflow = 1 then 0 else f.nan
  | .inf neg =>
    if c.overflow = 0 then
      match f.infCode with
      | some i => f.pack neg i
      | none => f.nan
    else f.pack neg f.maxCode
  | .fin neg n d =>
    let m := c.mode key seed
    let (mn, md) := f.magnitude f.maxCode
    let beyond := decide (n * md > mn * d)
    let (code, _) := f.roundMag m neg n d
    let tooBig : Bool := match m with
      | .stochastic _ => beyond
      | .mode .rtz => decide (code > f.maxCode)
      | .mode _ => decide (code > f.maxCode)
    if tooBig then f.narrowOverflow c neg else f.pack neg code

/-- A candidate of square-scaled narrowing: its magnitude in units of 1/512, its code, and whether it
is the special (R113). -/
structure Candidate where
  mag : Nat
  code : Nat
  special : Bool
  deriving DecidableEq, Repr

/-- The magnitude of a magnitude code in units of 1/512. -/
def units512 (f : Fmt) (c : Nat) : Nat := (f.magnitude c).1 * 512 / (f.magnitude c).2

/-- The ordinary candidates of one sign, zero included. -/
def ordinaryCandidates (wide : Bool) : List Candidate :=
  let f := if wide then Fmt.e4m3 else Fmt.e2m1
  (List.range (f.maxCode + 1)).map (fun c => ⟨units512 f c, c, false⟩)

/-- The candidates of one sign under a record: the ordinary values, and the special where SPEN is 1
and SPECIAL is finite, of this sign and no ordinary value (R113 step 2). -/
def candidates (wide : Bool) (rec : Word64) (neg : Bool) : List Candidate :=
  let ord := ordinaryCandidates wide
  let sp := recordSpecial rec
  let mag := sp % 128
  if recordSpen rec && decide (mag ≤ Fmt.e4m3.maxCode) && (bitOf sp 7 == neg) &&
      ord.all (fun c => decide (c.mag ≠ units512 .e4m3 mag)) then
    ord ++ [⟨units512 .e4m3 mag, if wide then 0x80 else 8, true⟩]
  else ord

/-- The candidate of greatest magnitude. -/
def topCandidate (l : List Candidate) : Candidate :=
  l.foldl (fun b c => if c.mag > b.mag then c else b) ⟨0, 0, false⟩

/-- The greatest candidate at or below `n / d`. -/
def lowCandidate (l : List Candidate) (n d : Nat) : Candidate :=
  l.foldl (fun b c => if c.mag * d ≤ n ∧ b.mag < c.mag then c else b) ⟨0, 0, false⟩

/-- The least candidate above `n / d`; `top` when there is none. -/
def highCandidate (l : List Candidate) (top : Candidate) (n d : Nat) : Candidate :=
  l.foldl (fun b c => if c.mag * d > n ∧ c.mag < b.mag then c else b) top

/-- Whether the upper of two neighbouring candidates is chosen for `n / d` between them. -/
def picksHigh (m : Rounding) (lo hi : Candidate) (n d : Nat) : Bool :=
  let twice := 2 * n
  let mid := (lo.mag + hi.mag) * d
  match m with
  | .mode .rtz => false
  | .mode .rne =>
    if twice = mid then
      if lo.special then hi.code % 2 == 0
      else if hi.special then lo.code % 2 == 1
      else hi.code % 2 == 0
    else decide (twice > mid)
  | .mode _ => decide (twice ≥ mid)
  | .stochastic u => decide (u * ((hi.mag - lo.mag) * d) < (n - lo.mag * d) * 2 ^ 24)

/-- The code that a chosen candidate is written as (R113 step 8). -/
def writeCandidate (wide : Bool) (rec : Word64) (neg : Bool) (c : Candidate) : Nat :=
  let sign := if wide then 0x80 else 8
  if c.special then c.code
  else if c.mag = 0 then (if recordSpen rec then 0 else if neg then sign else 0)
  else if neg then sign + c.code else c.code

/-- Narrowing of q to sq4, sq8 or e2m1 elements (R113 from step 2, R111).  The largest finite value of an sq4 element is its extreme
candidate, which is the SPECIAL of that sign where that lies beyond 6 (DESIGN CHOICE, log entry 79). -/
def narrowElem (wide : Bool) (rec : Word64) (c : Control) (key : Nat) (seed : Word64) : Num → Nat
  | .nan => if wide && c.overflow != 1 then 0x7F else 0
  | .inf neg =>
    if wide && c.overflow == 0 then 0x7F
    else writeCandidate wide rec neg (topCandidate (candidates wide rec neg))
  | .fin neg n d =>
    let l := candidates wide rec neg
    let m := c.mode key seed
    let top := topCandidate l
    let x := n * 512
    let next := top.mag + (if wide then 32 else 2) * 512
    if top.mag * d < x then
      let tooBig : Bool := match m with
        | .mode .rtz => false
        | .mode .rne =>
          if 2 * x = (top.mag + next) * d then !(top.special || top.code % 2 == 0)
          else decide (2 * x > (top.mag + next) * d)
        | .mode _ => decide (2 * x ≥ (top.mag + next) * d)
        | .stochastic _ => true
      if tooBig && wide && c.overflow == 0 then 0x7F else writeCandidate wide rec neg top
    else
      let lo := lowCandidate l x d
      let hi := highCandidate l ⟨next, 0, false⟩ x d
      if lo.mag * d = x then writeCandidate wide rec neg lo
      else writeCandidate wide rec neg (if picksHigh m lo hi x d then hi else lo)

/-- Narrowing to an integer format (R112). -/
def narrowInt (signed : Bool) (w : Nat) (c : Control) (key : Nat) (seed : Word64) : Num → Nat
  | .nan => 0
  | .inf neg => wrapTo w (if neg then intMin signed w else intMax signed w)
  | .fin neg n d =>
    let x := roundInt (c.mode key seed) neg n d
    wrapTo w (if c.overflow = 0 then x else intSat signed w x)

/-- The field of NARROW that controls a storage code: the bit position of its control (R72). -/
def controlPos : Nat → Option Nat
  | 1 => some 0
  | 2 => some 4
  | 3 => some 8
  | 4 => some 12
  | 5 => some 16
  | 6 => some 20
  | 7 => some 24
  | 10 => some 28
  | 12 => some 32
  | 14 => some 36
  | 11 => some 40
  | 13 => some 44
  | 15 => some 48
  | _ => none

/-- The control of NARROW for a storage code. -/
def controlOf (narrow : Word64) (code : Nat) : Control :=
  let p := (controlPos code).getD 0
  ⟨field narrow.toNat p 2, field narrow.toNat (p + 2) 2⟩

/-- A record that stands for SCALE = 1 and no special. -/
def unitRecord : Word64 := 0x3F800000#64

/-- narrow(x, f) of R9: one of the thirteen destinations of R72, under its control. -/
def narrowTo (code : Nat) (narrow : Word64) (rec : Word64) (key : Nat) (seed : Word64) (x : Num) : Nat :=
  let c := controlOf narrow code
  match storage code with
  | some (.float f) => if code = 5 then narrowElem false unitRecord c key seed x else f.narrow c key seed x
  | some (.int sg w) => narrowInt sg w c key seed x
  | some .sq4 => narrowElem false rec c key seed (x.div (recordScale rec))
  | some .sq8 => narrowElem true rec c key seed (x.div (recordScale rec))
  | none => 0

/-- Whether NARROW holds no reserved control and no reserved bit (R72, R73). -/
def narrowOk (x : Word64) : Bool :=
  field x.toNat 52 12 == 0 && (List.range 13).all (fun i => field x.toNat (4 * i + 2) 2 != 3)

end Sys2Proof.Machine
end

