-- ==== Sys2Proof/Config.lean ====
section
/-! DEFINITION. What the specification leaves to the implementation, and the free values: constants
without a body, of which nothing can be proved. -/

namespace Sys2Proof

/-- A value the specification does not fix, one for each reading of the state's free-value counter
(log entry 2). -/
opaque Config.freeValue : Nat → Word64

/-- The result bits of special function `fn` for a binary32 input outside the special values
(R144: one input always gives the same bits; which bits within the bound is not architectural). -/
opaque Config.specialFunction (fn : Nat) (x : Word) : Word

/-- The verdict on an image: 0 accepted, 1 bad signature, 2 below the minimum version (R409; log entry 9). -/
opaque Config.imageVerdict : List Byte → Nat

/-- The version that an image carries (R409, R410; log entry 9). -/
opaque Config.versionOf : List Byte → Nat

/-- The signature over the signed bytes of a quote with the identity key (R411; log entry 9). -/
opaque Config.signature : List Byte → BitVec 4096

/-- The identity certificate chain of the module (R411; log entry 9). -/
opaque Config.certificate : List Byte

/-- The version and digest of the firmware (0) and supervisor image (1) measured at boot (log entry 9). -/
opaque Config.imageVersion : Nat → Nat
@[inherit_doc Config.imageVersion] opaque Config.imageDigest : Nat → BitVec 512

/-- The column, modulo 8, of the bridge stop of a row ring, by 8 × die + row: R18 gives each row one and says not where
(log entry 49). -/
opaque Config.bridgeColumn : Nat → Nat

/-- The buffers of a stop on one ring beyond two, of which R19 gives no number (log entry 49). -/
opaque Config.spareBuffers : Nat

/-- The buffers of a stop on one ring: at least the two without which nothing would ever enter the ring (R19). -/
def Config.ringBuffers : Nat := Config.spareBuffers + 2

/-- Lanes in a gang: WIDTH of this module (R12). -/
def Config.lanes : Nat := 64

/-- The address at which the supervisor image begins (log entry 4: the specification names the
image and gives no entry address). -/
def Config.supervisorEntry : Nat := 0x004000000000

end Sys2Proof
end

