-- ==== Sys2Proof/Machine/Cause.lean ====
section
/-! DEFINITION. Cause codes (R393). -/

namespace Sys2Proof.Machine

/-- The causes by which an error is reported (R393). -/
inductive Cause where
  | illegal | runform | runtemp | flagcode | claim | uniform | member | misalign | xlate | perm
  | rangelock | format | wswrite | shape | scratch | peergone | priv | pipeerr | uncorr | accsum
  | dsrc | ringmap | watchdog | trap | svc
  deriving DecidableEq, Repr

/-- The 8-bit code of a cause (R393). -/
def Cause.code : Cause → Nat
  | .illegal => 0x01
  | .runform => 0x02
  | .runtemp => 0x03
  | .flagcode => 0x04
  | .claim => 0x05
  | .uniform => 0x06
  | .member => 0x07
  | .misalign => 0x08
  | .xlate => 0x09
  | .perm => 0x0A
  | .rangelock => 0x0B
  | .format => 0x0C
  | .wswrite => 0x0D
  | .shape => 0x0E
  | .scratch => 0x0F
  | .peergone => 0x10
  | .priv => 0x11
  | .pipeerr => 0x12
  | .uncorr => 0x13
  | .accsum => 0x14
  | .dsrc => 0x15
  | .ringmap => 0x16
  | .watchdog => 0x17
  | .trap => 0x18
  | .svc => 0x19

end Sys2Proof.Machine
end

