-- ==== Sys2Proof/Machine/Store.lean ====
section
/-! DEFINITION. Sparse tables keyed by a number: memory, register files, and every other indexed
piece of state.  A table lists its entries with strictly rising keys; a *sparse* table also lists
no entry that equals the table's default, so equal contents are equal lists. -/

namespace Sys2Proof.Machine

/-- Entries keyed by number, lowest key first. -/
abbrev Table (α : Type) := List (Nat × α)

/-- The entry at key `k`. -/
def Table.find {α : Type} : Table α → Nat → Option α
  | [], _ => none
  | (k', v) :: rest, k => if k' = k then some v else Table.find rest k

/-- The table without key `k`. -/
def Table.erase {α : Type} : Table α → Nat → Table α
  | [], _ => []
  | (k', v) :: rest, k => if k' = k then Table.erase rest k else (k', v) :: Table.erase rest k

/-- The table with `v` at key `k`. -/
def Table.insert {α : Type} : Table α → Nat → α → Table α
  | [], k, v => [(k, v)]
  | (k', v') :: rest, k, v =>
    if k < k' then (k, v) :: (k', v') :: rest
    else if k' = k then (k, v) :: rest
    else (k', v') :: Table.insert rest k v

/-- The keys are strictly rising, and all lie above `lo` where one is given. -/
def Table.rising {α : Type} : Table α → Bool
  | [] => true
  | [_] => true
  | (k, _) :: (k', v') :: rest => decide (k < k') && Table.rising ((k', v') :: rest)

/-- The value at key `k` of a sparse table with default `d`. -/
def Table.get {α : Type} (d : α) (t : Table α) (k : Nat) : α := (t.find k).getD d

/-- The sparse table with `v` at key `k`: writing the default removes the entry. -/
def Table.set {α : Type} [DecidableEq α] (d : α) (t : Table α) (k : Nat) (v : α) : Table α :=
  if v = d then t.erase k else t.insert k v

/-- The canonical form of a sparse table with default `d`. -/
def Table.wf {α : Type} [DecidableEq α] (d : α) (t : Table α) : Bool :=
  t.rising && t.all (fun e => decide (e.2 ≠ d))

/-- The keys of a table. -/
def Table.keys {α : Type} (t : Table α) : List Nat := t.map Prod.fst

/-- The values of a table. -/
def Table.vals {α : Type} (t : Table α) : List α := t.map Prod.snd

/-- The table with `f` applied to the entry at `k`, if there is one. -/
def Table.adjust {α : Type} (t : Table α) (k : Nat) (f : α → α) : Table α :=
  match t.find k with
  | some v => t.insert k (f v)
  | none => t

end Sys2Proof.Machine
end

