-- ==== Sys2Proof/Machine/State.lean ====
section
/-! DEFINITION. The state of the machine: every piece of state that the specification gives the
device, as plain data.  INVENTORY.md lists each field with its rule and its reset value. -/

namespace Sys2Proof.Machine

/-! ## Outcomes that stop the model -/

/-- Why the machine stops. -/
inductive Fault where
  /-- The module has no power (18_management.md, R413): every agent has stopped.  Raised by step in a
  state whose power is off.  Safe: nothing happens until power returns. -/
  | powerOff
  deriving DecidableEq, Repr

/-- Why the model gives no next state. -/
inductive Refusal where
  /-- The instruction has no meaning in this model yet.  Raised by an arm of exec.  Safe: nothing can
  be proved of such a step. -/
  | notModelled (mnemonic : String)
  deriving DecidableEq, Repr

/-! ## Groups and gangs (R25, R34) -/

/-- A run in progress (R61): its length and the index of the word to issue next. -/
structure RunPos where
  len : Nat
  idx : Nat
  deriving DecidableEq, Repr

/-- What a group waits for (R36, R65, R331, R339). -/
inductive Wait where
  /-- nothing: its next word may issue -/
  | ready
  /-- at a REGANG word, with the rejoin id (R36) -/
  | regang (id : Nat)
  /-- in BARWAIT on the barrier object at an offset of the block with a key (of the supervisor's scratchpad for
  the supervisor gang), for a phase, at a scope (R331) -/
  | barwait (block : Nat) (offset : Nat) (phase : Nat) (scope : Nat)
  /-- in BARWAIT on the launch's grid barrier (R332) -/
  | grid (phase : Nat)
  /-- in CLAIM for a number of granules, with the place of the request in the core's order (R339) -/
  | claim (n seq : Nat)
  /-- at a class B word whose operations, one batch, are in progress -/
  | op (batch : Nat)
  /-- at a word that cannot issue yet and is tried again (R65) -/
  | stalled
  /-- at a word that meets a fault while the gang is stopped already: it meets it again after the ERET (R362, R400 step 9) -/
  | held
  /-- within its run, at a word to which an ERET has returned while the gang is halted: it goes on after the WAKEG (R362, R370,
  R372) -/
  | halt
  deriving DecidableEq, Repr

/-- A group: slices of one gang that issue together (R34). -/
structure Group where
  /-- the slices of the group, none of them exited -/
  slices : SliceMask := 0
  /-- the address of the header of the run in progress, or of the next run -/
  pc : Word64 := 0
  /-- the run in progress -/
  run : Option RunPos := none
  /-- the written marks of T0 to T7 (R64) -/
  tw : BitVec 8 := 0
  /-- what the group waits for -/
  wait : Wait := .ready
  /-- the marker of the release that the group's word makes: entries of the dirty-line FIFO with a lower
  identifier stand ahead of it (R230) -/
  marker : Option Nat := none
  /-- the identifier at which the group's class B word was first tried: operations of the gang with a lower one are
  earlier (R230, R236) -/
  since : Option Nat := none
  /-- that word is a fence, so later accesses of the gang wait for it (R236) -/
  fence : Bool := false
  /-- WAKEWHY bits that the present wait has gathered: WAKEG, RESTORE, GATED (R334) -/
  why : Nat := 0
  /-- its age (R316): 64 + the cycle from which the header of its run, in progress or next, has been ready, less 64 where the
  header's PRIO bit is 1; none before it is ready -/
  age : Option Nat := none
  /-- the cycle from which the header of its next run may issue (R316, R327) -/
  from_ : Nat := 0
  /-- the pipe to which its run is bound (R316) -/
  pipe : Nat := 0
  /-- the run's header has issued in this cycle, and its first word follows in the same issue slot (R65, R316) -/
  bound : Bool := false
  deriving DecidableEq, Repr

/-- A deferred fault that a gang has not taken yet (R178, R288). -/
structure Deferred where
  /-- the operation or command that met it, and whether it is a command of the copy engine -/
  op : Nat
  engine : Bool
  cause : Cause
  /-- the address of the word that issued the operation -/
  pc : Word64
  word : Word
  index : Nat
  addr : Word64
  code : Nat
  /-- the lowest slice of the group that issued it (R361) -/
  slice : Nat := 0
  deriving DecidableEq, Repr

/-- A stored register of a gang (R404): a word of a V or T register by operand code and lane, an S register of a slice, an M
register, a completion flag, MODE of a slice, NARROW, or a state register. -/
inductive StoredReg where
  | vector (code lane : Nat)
  | scalar (slice reg : Nat)
  | mask (reg : Nat)
  | flag (n : Nat)
  | mode (slice : Nat)
  | narrow
  | seed
  | layer
  | lfault
  | lcause
  | wakewhy
  deriving DecidableEq, Repr

/-- A copy of a stored register that an error has struck (R404). -/
structure BadCopy where
  reg : StoredReg
  /-- the mirror's copy (R43) -/
  mirror : Bool
  /-- its parity passes all the same -/
  silent : Bool
  /-- what the register holds: a write stores new parity -/
  value : Nat
  deriving DecidableEq, Repr

/-- Why a gang is stopped until an ERET names its slot (R362), or for good (R400). -/
inductive Stop where
  | none
  /-- a fault of a kind (0 precise, 1 deferred, 2 SVC, 3 TRAP) with its cause; `dest` is Sd of an SVC -/
  | fault (kind : Nat) (cause : Cause) (slices : SliceMask) (dest : Nat)
  deriving DecidableEq, Repr

/-- A gang (R25): its registers, clocks, flags and groups. -/
structure Gang where
  core : Nat := 0
  slot : Nat := 0
  /-- the key of its block in `State.blocks` -/
  block : Nat := 0
  /-- GANGID (R27) -/
  gangId : Nat := 0
  /-- ROLE (R27) -/
  role : Nat := 0
  /-- granules held (R40) -/
  granules : Nat := 0
  /-- slices that have exited (R33) -/
  exited : SliceMask := 0
  /-- the group on the pipe -/
  grp : Group := {}
  /-- the other groups of a parted gang (R34) -/
  parted : List Group := []
  /-- S registers, keyed 64 × slice + number, default 0 -/
  s : Table Word64 := []
  /-- SCC of each slice -/
  scc : SliceMask := 0
  /-- MODE of each slice, default 0 -/
  mode : Table Word := []
  /-- M0 to M15, default 0 -/
  m : Table LaneMask := []
  /-- V and T registers by operand code (R55), keyed 64 × code + lane, default 0 -/
  v : Table Word := []
  /-- completion flag counts F0 to F11, default 0 (R68) -/
  flags : Table Nat := []
  narrow : Word64 := 0
  pts : Nat := 0
  ats : Nat := 0
  seed : Word64 := 0
  wakewhy : Word64 := 0
  layer : Word64 := 0
  lfault : Word64 := 0
  lcause : Word64 := 0
  /-- stopped by a fault, an SVC or a TRAP (R362) -/
  stop : Stop := .none
  /-- halted by HALTG (R372) -/
  halted : Bool := false
  /-- killed (R400) -/
  killed : Bool := false
  /-- ended (R33) -/
  ended : Bool := false
  /-- deferred faults not yet taken, oldest first -/
  deferred : List Deferred := []
  /-- the deferred fault that it has taken and not returned from: later operations of its queue are discarded (R178, R288) -/
  taken : Option Deferred := none
  /-- rebases owed at the next run boundary (R242) -/
  owedRebases : Nat := 0
  /-- executions of the word about to issue that fail their check (R403) -/
  mismatch : Nat := 0
  /-- the copies of its registers that errors have struck and that no write has replaced since (R404) -/
  badRegs : List BadCopy := []
  /-- by line, the least wts of a copy that the gang's loads may use after its earlier loads, stores and atomics there (R238, R266),
  default 0 -/
  floors : Table Nat := []
  /-- the largest wts among the gang's engine writes (R271) -/
  engWts : Nat := 0
  deriving DecidableEq, Repr

/-! ## Memory operations in progress (R225 to R237) -/

/-- The tag of a window line (R116): its block record, format, geometry and block coordinates. -/
structure Tag where
  record : Word64
  /-- 6 or 7 (R98) -/
  fmt : Nat
  /-- 1 for 32 × 32 blocks -/
  geom : Nat
  bi : Nat
  bj : Nat
  deriving DecidableEq, Repr

/-- How one lane of a memory word accesses memory; for a scalar form the lane is a slice. -/
structure LaneAcc where
  lane : Nat
  /-- physical address, or an offset in a scratchpad -/
  addr : Nat
  size : Nat
  /-- the operand: bytes to store, an atomic's operand -/
  data : Nat := 0
  /-- the compare value of CAS -/
  cmp : Nat := 0
  /-- MODE of the lane's slice at issue (R126) -/
  mode : Word := 0
  /-- the element index of a formatted load (R263) -/
  elem : Int := 0
  /-- cluster rank of a peer-scratchpad access -/
  rank : Nat := 0
  deriving DecidableEq, Repr

/-- Classes of load (R225). -/
inductive LoadClass where
  | weak | relaxed | acquire
  deriving DecidableEq, Repr

/-- How loaded bytes become registers. -/
inductive LoadForm where
  /-- zero-extended into one word -/
  | zext
  /-- sign-extended into one word -/
  | sext
  /-- eight bytes into a pair of words -/
  | pair
  /-- a formatted load: minor opcode 0 LDF, 1 LDF2, 2 LDFS, 3 LDFX (R263) -/
  | fmt (min : Nat)
  /-- eight bytes into a scalar register of the slice (R267) -/
  | scalar
  deriving DecidableEq, Repr

/-- The operations of atomics and reductions (R264, R268). -/
inductive AtomOp where
  | add | min | max | minn | maxn | xchg | and | or | xor | cas | fadd | fmin | fmax | inc
  deriving DecidableEq, Repr

/-- What an operation in progress does. -/
inductive OpKind where
  | load (cls : LoadClass) (form : LoadForm) (dest : Nat)
  /-- a store that is not complete; `weak` for STW -/
  | store (release weak : Bool)
  | atomic (op : AtomOp) (acq rel : Bool) (dest : Option Nat) (scalar : Bool)
  /-- a scratchpad or peer-scratchpad access (R251, R262): a load into `dest`, or a store -/
  | scratchLoad (form : LoadForm) (dest : Nat)
  | scratchStore
  /-- an active message that waits for its answer, with the destination, the payload, the result register
  (R346) -/
  | message (dest : Nat) (payload : List Byte) (sd : Nat)
  deriving DecidableEq, Repr

/-- What a fill or an acknowledgement has brought for one line of an operation. -/
structure LineData where
  wts : Nat
  rts : Nat
  data : Line
  tag : Option Tag
  poison : Bool
  deriving DecidableEq, Repr

/-- A memory operation of a gang that is not complete. -/
structure MemOp where
  id : Nat
  core : Nat
  slot : Nat
  kind : OpKind
  scope : Nat
  /-- the flag it counts into -/
  flag : Option Nat
  /-- the word of a scalar form, whose slices are operations of one batch; 0 for a class L form -/
  batch : Nat := 0
  lanes : List LaneAcc
  /-- NARROW and SEED at issue (R126) -/
  narrow : Word64 := 0
  seed : Word64 := 0
  /-- lines granted by their home and on their way back -/
  fills : Table LineData := []
  /-- the value each line was served with: one copy per line (R255) -/
  served : Table Line := []
  /-- tags of the lines served -/
  tags : Table Tag := []
  /-- lines whose home has applied the atomic, with the old values by lane -/
  applied : Table LineData := []
  /-- old values of an atomic, by lane -/
  olds : Table Nat := []
  /-- lines acknowledged -/
  acked : List Nat := []
  /-- the marker of a release store or release atomic, once it is placed (R230, R237) -/
  marker : Option Nat := none
  /-- a store whose bytes are written in the L1 -/
  performed : Bool := false
  /-- lanes whose low and high words are done -/
  doneLo : LaneMask := 0
  doneHi : LaneMask := 0
  /-- the largest wts seen -/
  wts : Nat := 0
  /-- the word that issued it, for the record of a kill (R400) -/
  pc : Word64 := 0
  word : Word := 0
  index : Nat := 0
  /-- the lowest slice of the group that issued it (R361) -/
  slice : Nat := 0
  deriving DecidableEq, Repr

/-- An entry of a core's dirty-line FIFO, or a release store's line on its way (R229, R230). -/
structure FifoItem where
  id : Nat
  line : Nat
  /-- bytes written -/
  mask : LaneMask
  /-- those of them that stand in the core's L1 too, all but the bytes of weak stores, and what the L1 holds of them: a weak
  store leaves it as it is (R233) -/
  shown : LaneMask := 0
  view : Line := 0
  data : Line
  /-- the carried PTS -/
  pts : Nat
  /-- keys of the gangs that wrote into it: its acknowledgement raises their PTS (R229) -/
  gangs : List Nat
  /-- keys of the gangs that loaded its bytes before the acknowledgement (R234) -/
  readers : List Nat := []
  /-- its bytes have an uncorrectable error: the line is poisoned when it drains (R397) -/
  bad : Bool := false
  /-- the launches whose gangs, engines or matrix operations made the stores (R302) -/
  launches : List Nat := []
  /-- a release store's own line, sent by RELEASE_SEND -/
  direct : Bool := false
  /-- the release and weak stores whose completion waits for its acknowledgement (R260) -/
  ops : List Nat := []
  /-- it stands before a marker: no later store merges into it -/
  closed : Bool := false
  /-- the bytes of the line that it does not write are not filled yet, as the host owned the line (R229, R247): the key of the
  gang that asks for them, with the required time -/
  unfilled : Option (Nat × Nat) := none
  /-- 0 in the core, 1 past the cluster cache, 2 timestamped at its home -/
  reach : Nat := 0
  /-- its place among the entries that have passed their cluster cache (R235) -/
  passed : Nat := 0
  wts : Nat := 0
  /-- a rebase has left its wts below B: its acknowledgement installs no copy (R242 step 2) -/
  stale : Bool := false
  snapshot : Line := 0
  tag : Option Tag := none
  poison : Bool := false
  /-- the engine commands and matrix operations that wrote it -/
  engines : List Nat := []
  /-- keys of the gangs whose engine commands and matrix operations wrote it (R271) -/
  writers : List Nat := []
  deriving DecidableEq, Repr

/-- A copy of a line with its lease (R227). -/
structure Copy where
  wts : Nat
  rts : Nat
  data : Line
  tag : Option Tag := none
  poison : Bool := false
  deriving DecidableEq, Repr

/-- What the bridge holds of a line for the host (R247). -/
inductive HostState where
  | invalid | shared | owned
  deriving DecidableEq, Repr

/-- A line at its home (R227, R239, R116). -/
structure HomeLine where
  wts : Nat
  rts : Nat
  lease : Nat := 16
  /-- `lease` was set by a LEASE hint and no store has come since (R239) -/
  hinted : Bool := false
  /-- written since the last grant -/
  written : Bool := true
  /-- written since the line came from DRAM (R397) -/
  dirty : Bool := false
  tag : Option Tag := none
  poison : Bool := false
  host : HostState := .invalid
  /-- the end of the lease that the bridge holds for the host (R247) -/
  hostRts : Nat := 0
  deriving DecidableEq, Repr

/-- A registered range of an engine command or matrix operation (R283, R284): bytes from `low` up to but
not including `high`. -/
structure RangeLock where
  cmd : Nat
  /-- 1 source, 2 destination, 3 index -/
  kind : Nat
  scratch : Bool
  /-- for a scratchpad range the key of its carve-out: the block's, or 2^32 + the core for the supervisor's; for a global
  one the tenant, 16 for physical addresses of the supervisor, 17 for the weight store -/
  owner : Nat
  low : Nat
  high : Nat
  deriving DecidableEq, Repr

/-- A cached leaf translation (R358): the page base, its size in bits, and R, W, X. -/
structure Translation where
  base : Nat
  bits : Nat
  r : Bool
  w : Bool
  x : Bool
  deriving DecidableEq, Repr

/-! ## Matrix and delta engines (07_matrix_engine.md, 08_delta_engine.md) -/

/-- A dyadic number: `m` times 2 to the `e`. -/
structure Dy where
  m : Int
  e : Int
  deriving DecidableEq, Repr

/-- An aligned operand (R166): signed aligned integers keyed 4096 × line + position along K (default 0), marks of
non-finite elements (1 +∞, 2 −∞, 3 NaN), and group scales keyed 256 × line + group (default 1).  A line is a row
of A or a column of B. -/
structure Aligned where
  mags : Table Int := []
  marks : Table Nat := []
  scales : Table Dy := []
  deriving DecidableEq, Repr

/-- A valid B slot (R160). -/
structure BSlot where
  /-- 0 dense, 1 2:4, 2 4:8 -/
  kind : Nat
  /-- 0 memory, 1 weight store -/
  src : Nat
  fmt : Nat
  gen : Nat
  region : Nat
  data : Aligned
  /-- the logical position of each kept element of a sparse slot that is not where its group's first elements stand,
  keyed as the magnitudes (R172) -/
  pos : Table Nat := []
  /-- the checksum column cs by K position (R160), default 0 -/
  cs : Table Dy := []
  deriving DecidableEq, Repr

/-- An accumulator tile with its check state (R169, R170). -/
structure AccTile where
  /-- elements keyed 64 × row + column, default +0 -/
  c : Table Word := []
  cs : Table Word := []
  mg : Table Word := []
  /-- rows whose valid bit CV is 0 -/
  cvOff : Word := 0
  deriving DecidableEq, Repr

/-- A shape record (R162). -/
structure Shape where
  base : Nat
  rows : Nat
  cols : Nat
  fmt : Nat
  space : Nat
  hdrrec : Bool
  geom : Nat
  rstride : Int
  estride : Nat
  sbase : Nat
  spitch : Nat
  row0 : Nat
  col0 : Nat
  key : Nat
  deriving DecidableEq, Repr

/-- An Umbra entry (R191). -/
structure UmbraEntry where
  tenant : Nat
  layer : Nat
  key : Nat
  astar : List Aligned
  /-- keyed 64 × row + column, default +0 -/
  ystar : Table Word
  slots : List Nat
  /-- REGION and GEN by K-step -/
  sources : List (Nat × Nat)
  /-- its offset in the Umbra region (R192, log entry 67) -/
  place : Nat := 0
  fmt : Nat
  geom : Nat
  rows : Nat
  cols : Nat
  count : Nat
  /-- plane cycles of the last operation (R208) -/
  lastCyc : Nat
  /-- the core whose Umbra cache holds pieces of it (R193, R194) -/
  cachedBy : Option Nat
  deriving DecidableEq, Repr

/-- What a matrix-queue operation does (R182 to R189, R203). -/
inductive MatKind where
  | mma (neg ad sp : Bool)
  /-- WLOAD, WLOADW (weight store) -/
  | wload (weights : Bool)
  | wclr
  /-- MCOMP: 1 for 2:4, 2 for 4:8 -/
  | mcomp (kind : Nat)
  | accz
  | accrd
  | accwr
  /-- ACCCHK, whose gang waits at the word for its turn (R189) -/
  | accchk
  | dmma (force : Bool)
  deriving DecidableEq, Repr

/-- One K-step of an operation (R174 to R176). -/
structure KStep where
  /-- its B slot descriptor -/
  desc : Nat
  /-- its aligned A tile -/
  tile : Aligned
  /-- the difference that takes the place of A on the delta path (R203) -/
  diff : Option Aligned := none
  /-- the cycles that staging takes (R175), and the cycle at which its tile is staged -/
  staging : Nat := 0
  staged : Option Nat := none
  /-- plane cycles (R174, R205), and the cycle at which its planes end -/
  cost : Nat := 0
  planes : Option Nat := none
  added : Bool := false
  deriving DecidableEq, Repr

/-- A byte that an operation writes: the bits that `mask` names, at a physical address or a scratchpad offset. -/
structure ByteWrite where
  addr : Nat
  mask : Byte
  value : Byte
  deriving DecidableEq, Repr

/-- A matrix-queue operation that is not complete (R177). -/
structure MatOp where
  id : Nat
  slot : Nat
  block : Nat
  gangId : Nat
  kind : MatKind
  /-- the accumulator tile, or the B slot descriptor -/
  target : Nat
  /-- the record address -/
  record : Nat := 0
  /-- the slot list, the record address of the slot table, or the tile origin -/
  list : Nat := 0
  layer : Nat := 0
  narrow : Word64 := 0
  seed : Word64 := 0
  mode : Word := 0
  flag : Option Nat := none
  /-- PTS where the operation stands in program order (R179) -/
  pts : Nat := 0
  pc : Word64 := 0
  word : Word := 0
  index : Nat := 0
  slice : Nat := 0
  started : Bool := false
  /-- the A shape as read at its start -/
  shape : Option Shape := none
  steps : List KStep := []
  /-- the largest wts of the lines of its shape record, where that stands in global memory (R175) -/
  version : Nat := 0
  /-- the key of its Umbra entry (R191), and the entry that it works on when it takes the delta path (R203) -/
  key : Nat := 0
  entry : Option UmbraEntry := none
  /-- what it has read and will write when it completes: a B slot, tile elements keyed 64 × row + column, bytes
  of global memory or of the carve-out -/
  loaded : Option BSlot := none
  values : Table Word := []
  bytes : List ByteWrite := []
  global : Bool := false
  /-- lines of other devices that its stores wait for (R249) -/
  peerAcks : List Nat := []
  /-- the failing K-step is retried this many times (R403) -/
  mismatch : Nat := 0
  deriving DecidableEq, Repr

/-! ## Copy engine (12_async_engines.md) -/

/-- A copy-engine command that is not complete (R277, R292). -/
structure CopyCmd where
  id : Nat
  slot : Nat
  block : Nat
  gangId : Nat
  /-- 0 ACOPY, 1 AGATH, 2 ASCAT, 3 AFILL -/
  kind : Nat
  /-- the control word (R294) -/
  ctl : Nat
  drec : Nat
  /-- the source record, or the value of AFILL -/
  srec : Nat
  flag : Option Nat
  /-- the issuing ATS and PTS (R244) -/
  ats : Nat
  pts : Nat
  pc : Word64
  word : Word
  index : Nat
  slice : Nat := 0
  started : Bool := false
  /-- the first granule not landed -/
  next : Nat := 0
  dst : Option Shape := none
  src : Option Shape := none
  /-- the index list -/
  list : List Int := []
  /-- translations of the pages it touches, by virtual page number of 512 KiB (R358) -/
  pages : Table Nat := []
  /-- the granule `next` stands in the FIFO and waits for its acknowledgements -/
  sent : Bool := false
  /-- lines of other devices that the granule waits for (R249) -/
  peerAcks : List Nat := []
  /-- the largest wts it has counted -/
  wts : Nat := 0
  /-- its gang was killed: it stops once the granule in flight has landed (R400) -/
  stopping : Bool := false
  deriving DecidableEq, Repr

/-- The answer of another device to a read by an engine command or a matrix operation (R249, R385). -/
structure PeerData where
  op : Nat
  line : Nat
  data : Line
  poison : Bool
  refused : Bool
  deriving DecidableEq, Repr

/-! ## Cores and the device -/

/-- A tile staged in the row buffer: the K-step of a record's tile, the ranges of the carve-out that hold its bytes, its block
records and its shape record, and the cycle at which it is staged (R175). -/
structure Staged where
  block : Nat
  record : Nat
  step : Nat
  sp : Bool
  tile : Aligned
  spans : List (Nat × Nat) := []
  /-- the largest wts of the lines of its shape record, where that stands in global memory -/
  version : Nat := 0
  /-- a store has landed in its bytes or records since: it is staged anew before a later use -/
  stale : Bool := false
  ready : Nat
  deriving DecidableEq, Repr

/-- A core (R15). -/
structure Core where
  /-- EVC0 to EVC15, default 0 (R417) -/
  evc : Table Word64 := []
  /-- those of them that were written in the present cycle, whose events are not counted (R417) -/
  evcSet : List Nat := []
  /-- SPLIT of the unified array (R215) -/
  split : Nat := 0
  /-- L1 copies by line (R227) -/
  l1 : Table Copy := []
  fifo : List FifoItem := []
  /-- the range-lock table (R283) -/
  locks : List RangeLock := []
  /-- cached instruction lines, by physical line (R221), and those of them that are poisoned (R398) -/
  icache : Table Line := []
  icachePoison : List Nat := []
  /-- leaf translations: key 2^40 × tenant + VA / 2^19 (R358) -/
  tlb : Table Translation := []
  /-- supervisor scratchpad bytes, default 0 (R359) -/
  supScratch : Table Byte := []
  /-- its poisoned words (R397) -/
  supPoison : List Nat := []
  /-- phase timestamps of the supervisor's barrier objects by offset, default 0 (R245) -/
  phaseTs : Table Nat := []
  /-- what completed the last phase of those objects, default 0 (log entry 18) -/
  reason : Table Nat := []
  /-- the tenant that occupies or last occupied the core (R351) -/
  tenant : Nat := 0
  /-- the issue clock is gated (R318) -/
  gated : Bool := false
  /-- the times of supervisor restarts (R407) -/
  restarts : List Nat := []
  /-- no further dispatch until module reset (R407) -/
  noDispatch : Bool := false
  /-- the valid B slots, keyed 8 × macro + slot (R159, R160) -/
  slots : Table BSlot := []
  /-- the matrix queue, oldest first (R177) -/
  mq : List MatOp := []
  /-- the row buffer (R175) -/
  rowBuffer : List Staged := []
  /-- the accumulator tiles added to in the latest cycle of an add, as cycle, block and tile (R176) -/
  adds : List (Nat × Nat × Nat) := []
  /-- copy-engine commands, oldest first (R277) -/
  cmds : List CopyCmd := []
  /-- when each pending mailbox entry was set, by slot (R408) -/
  pendingSince : Table Nat := []
  deriving DecidableEq, Repr

/-- A cluster (R16). -/
structure Cluster where
  /-- cluster-cache copies by line -/
  copies : Table Copy := []
  /-- L2 TLB, keyed as the L1 TLB (R358) -/
  tlb : Table Translation := []
  deriving DecidableEq, Repr

/-- A resident block (R25, R30). -/
structure Block where
  core : Nat := 0
  tenant : Nat := 0
  /-- the key of its launch in `State.launches` (its root launch, for a task) -/
  launch : Nat := 0
  /-- the job of a task or handler block, whose key in `State.jobs` this is (R25) -/
  job : Option Nat := none
  /-- block linear id and block count (R29, R94) -/
  linear : Nat := 0
  count : Nat := 1
  /-- cluster rank and cluster size k (R30) -/
  rank : Nat := 0
  ranks : Nat := 1
  /-- keys of the blocks of its cluster by rank -/
  peers : Table Nat := []
  /-- gangs G of the block -/
  gangCount : Nat := 1
  /-- gangs that have neither ended nor been killed, a bit for each gang index -/
  live : Nat := 0
  /-- LCAUSE of each gang that has ended, by gang index, default 0 (R396) -/
  causes : Table Nat := []
  /-- carve-out bytes, default 0, and size (R215) -/
  scratch : Table Byte := []
  scratchSize : Nat := 0
  /-- poisoned scratchpad words (R398) -/
  poison : List Nat := []
  /-- accumulator tiles by number (R169), and ACCS -/
  accs : Table AccTile := []
  accCount : Nat := 0
  /-- CWP0 to CWP7, default 0 (R279) -/
  cwp : Table Word64 := []
  /-- phase timestamps of barrier objects by offset, default 0 (R245) -/
  phaseTs : Table Nat := []
  /-- what completed the last phase of each object, default 0 (log entry 18) -/
  reason : Table Nat := []
  /-- abandoned by the kill of a gang (R333) -/
  abandoned : Bool := false
  /-- ended: its resources are released (R33) -/
  ended : Bool := false
  deriving DecidableEq, Repr

/-- The fields of a kernel descriptor (R95). -/
structure Descriptor where
  entry : Nat
  lanes : Nat
  gm1 : Nat
  phased : Bool
  gridbar : Bool
  carry : Nat
  accs : Nat
  scratch : Nat
  /-- role code and initial granules by gang index -/
  roles : List (Nat × Nat)
  /-- EPH.DIMS, GRAIN, TILE, ORDER and PLACE -/
  eph : List Nat
  ephv : Bool
  deriving DecidableEq, Repr

/-- A ticket of the tile walker (R313, R314). -/
structure Ticket where
  num : Nat
  gen : Nat
  cells : List Nat
  /-- block key and gang index of the gang that holds it -/
  block : Nat
  gangId : Nat
  deriving DecidableEq, Repr

/-- Where a launch stands. -/
inductive LaunchStage where
  /-- its record waits in its queue -/
  | queued
  /-- accepted: its blocks are dispatched -/
  | running
  /-- its completion record is written, or it was rejected -/
  | complete
  deriving DecidableEq, Repr

/-- A launch (R300 to R315). -/
structure Launch where
  tenant : Nat := 0
  queue : Nat := 0
  /-- the place of its record among all records received -/
  order : Nat := 0
  stage : LaunchStage := .queued
  /-- the virtual address of its launch record -/
  record : Nat := 0
  /-- LID of the launch record -/
  lid : Nat := 0
  arg : Nat := 0
  blocks : Nat := 0
  split : Nat := 0
  swz : Bool := false
  ranks : Nat := 1
  serial : Bool := false
  phbase : Nat := 0
  cpl : Nat := 0
  desc : Option Descriptor := none
  /-- the Ephemeris registers (R310), default 0 -/
  eph : Table Word64 := []
  /-- the starting PTS and ATS of its gangs (R299) -/
  pts : Nat := 0
  /-- blocks started in the present phase, blocks of the grid ended -/
  started : Nat := 0
  ended : Nat := 0
  /-- the present phase of a phased kernel and the blocks that have completed it or ended (R47) -/
  phase : Nat := 0
  phaseDone : List Nat := []
  /-- blocks of the grid that have ended, by linear id -/
  endedIds : List Nat := []
  /-- the keys of the blocks that have started, by linear id: a block of a phased kernel keeps its key (R47) -/
  blockKeys : Table Nat := []
  /-- blocks that had a gang killed in an earlier phase, by linear id: they stay abandoned (R333) -/
  abandonedIds : List Nat := []
  /-- by gang linear id, the rebases that had been made when the gang's phase record was written, default 0, and the floors that
  its loads keep for the next phase (R49, R238, R242) -/
  recordAge : Table Nat := []
  recordFloors : Table (Table Nat) := []
  /-- the grid barrier (R332): its phase count, slices arrived keyed 16 × linear id + gang, the largest PTS of the
  present phase's arrivals and that of the last complete phase -/
  gridPhase : Nat := 0
  gridSlices : Table Nat := []
  gridPts : Nat := 0
  gridTs : Nat := 0
  tickets : List Ticket := []
  nextTicket : Nat := 1
  /-- cells returned to FREE by a kill and not claimed since (R314) -/
  returned : List Nat := []
  reruns : Nat := 0
  peerfail : Nat := 0
  laneflt : Nat := 0
  /-- the cause of its first gang that ended by fault, and whether one did (R302) -/
  fault : Option Nat := none
  /-- it is being stopped, with this cause (R312) -/
  stopping : Option Nat := none
  /-- a teardown ends it (R355) -/
  aborted : Bool := false
  /-- the largest wts of its acknowledged stores and PTS of its ended gangs (R302) -/
  largest : Nat := 0
  /-- by core, 1 while its registers are mirrored, 2 once mirroring was dropped, 3 never mirrored (R43) -/
  mirror : Table Nat := []
  /-- DONE, or the status of a rejection (R301) -/
  status : Nat := 0
  deriving DecidableEq, Repr

/-- Where a job stands (R305 to R308, R386). -/
inductive JobPlace where
  | queue
  | ring
  /-- kept in the saved state of a context that RINGMAP stopped (R308) -/
  | kept
  /-- in the tenant's message ring (R386) -/
  | messages
  | running
  deriving DecidableEq, Repr

/-- A task's job card (R305), or an active message's handler (R387). -/
structure Job where
  tenant : Nat
  cluster : Nat
  place : JobPlace
  /-- the place of its post among all posts -/
  order : Nat
  descAddr : Nat
  arg : Nat
  blocks : Nat
  ranks : Nat
  prio : Nat
  depen : Bool := false
  depphase : Nat := 0
  depoff : Nat := 0
  donectr : Nat := 0
  /-- the key of the root launch; none for a handler -/
  launch : Option Nat := none
  /-- the posting block -/
  block : Nat := 0
  pts : Nat := 0
  /-- the phase timestamp with which a phase completion has met its dependence (R306) -/
  met : Option Nat := none
  /-- the ring slot that holds its card -/
  ringSlot : Nat := 0
  /-- the header and payload of a handler's carve-out, with the source device -/
  payload : List Byte := []
  source : Option Nat := none
  desc : Option Descriptor := none
  started : Nat := 0
  ended : Nat := 0
  /-- once its last block has ended: FIFO entries with a lower identifier stand ahead of the release that counts it in
  DONECTR (R305) -/
  doneMark : Option Nat := none
  /-- for a handler, by core, as `Launch.mirror` (R43) -/
  mirror : Table Nat := []
  deriving DecidableEq, Repr

/-- A saved block (R364, R366). -/
structure SavedBlock where
  /-- its key in `State.blocks` -/
  key : Nat
  /-- the core whose save area holds it -/
  area : Nat
  block : Block
  gangs : List Gang
  cmds : List CopyCmd
  /-- their resume records as they stand in the save area (R291, R292) -/
  records : List (BitVec 1024) := []
  locks : List RangeLock
  slots : Table BSlot
  /-- mailbox entries that were pending, by slot: the 128 bytes as a number -/
  mailbox : Table Nat
  /-- watches that fire at its restore -/
  watches : List (Nat × Nat)
  /-- gangs whose saved state holds poison: they are killed at the restore (R401) -/
  lost : List Nat := []
  deriving DecidableEq, Repr

/-- An armed watch (R335): its line, and the barrier object of its block. -/
structure Watch where
  line : Nat
  block : Nat
  offset : Nat
  deriving DecidableEq, Repr

/-- A fired watch's arrival on its way to its object (R336). -/
structure WatchArrival where
  line : Nat
  block : Nat
  offset : Nat
  wts : Nat
  /-- fired by a rebase (R334) -/
  rebase : Bool
  deriving DecidableEq, Repr

/-- A fire-and-forget store on its way (R389). -/
structure FfStore where
  id : Nat
  launch : Option Nat
  deriving DecidableEq, Repr

/-- What a packet carries, as far as its priority class goes (R319). -/
inductive Traffic where
  /-- the arrival that a watch sends -/
  | watch
  /-- supervisor mailbox traffic -/
  | mailbox
  /-- rebase and pre-emption control -/
  | control
  /-- a back-invalidate snoop -/
  | snoop
  /-- any other traffic, whose class below 3 is the sender's -/
  | other (cls : Nat)
  deriving DecidableEq, Repr

/-- A packet that stands at a stop of the network (R18, R19, R319): the stop, 64 × die + 8 × row + column; the input port by which
it came, 0 local, 1 x+, 2 x−, 3 y+, 4 y−, 5 bridge, where a ring's port is named after the direction of travel; the egress ports of
its way, this stop's first, numbered alike; its class and its ageing counter. -/
structure Packet where
  stop : Nat
  input : Nat
  path : List Nat
  cls : Nat
  age : Nat
  deriving DecidableEq, Repr

/-- A request of the host that is held at the bridge until its page has host bias (R379, R381): a read, which may ask for
ownership, or a write. -/
structure HostRequest where
  line : Nat
  write : Bool
  own : Bool := false
  mask : LaneMask := 0
  data : Line := 0
  poison : Bool := false
  deriving DecidableEq, Repr

/-- A request that this device sends to another (R383): its device, path and port, the remote physical address, what it is
(0 load, 1 store, 2 atomic), and the bytes that a store writes. -/
structure PeerRequest where
  op : Nat
  device : Nat
  cxl : Bool
  port : Nat
  addr : Nat
  kind : Nat
  mask : LaneMask := 0
  data : Line := 0
  deriving DecidableEq, Repr

/-- A write of the device itself at a line's home, made at once or once what it waits for is over (R247, R305, R362). -/
inductive DeviceWork where
  /-- the bits of a line that `mask` names, with the carried time -/
  | put (line t : Nat) (mask value : Line)
  /-- `n` added to the 8-byte counter at an offset of a line -/
  | add (line t off n : Nat)
  /-- a record appended to a tenant's fault log, after what a release of the gang with a key waits for behind a marker: the
  carried time is above the gang's PTS (R362) -/
  | log (tenant : Nat) (record : BitVec 512) (gang : Option Nat) (marker pts : Nat)
  deriving DecidableEq, Repr

/-- A save or restore that PREEMPT started (R363, R364). -/
structure Preempt where
  tenant : Nat
  core : Nat
  restore : Bool
  since : Nat
  /-- for a save, the keys of the set, as it was when PREEMPT was written (R363) -/
  blocks : List Nat := []
  deriving DecidableEq, Repr

/-- A weight-store command that was accepted: its tenant, source, destination and length (R378). -/
structure WsCommand where
  tenant : Nat
  src : Nat
  dst : Nat
  len : Nat
  deriving DecidableEq, Repr

/-- A bias flip in progress (R381): its page, its target, whether a host request started it, and the first identifier
of a FIFO entry that its drain does not wait for. -/
structure Flip where
  page : Nat
  host : Bool
  auto : Bool
  marker : Nat
  deriving DecidableEq, Repr

/-- Power states (R413). -/
inductive Power where
  | active | idle | standby | off
  deriving DecidableEq, Repr

/-- The management controller and the root of trust (17_recovery.md, 18_management.md). -/
structure Management where
  /-- RESULT and RLEN of the mailbox, and its LOST bit (R415) -/
  result : Nat := 0
  rlen : Nat := 0
  lost : Bool := false
  /-- the LOADSUP that waits for the host's lines, by its arguments: BUSY is 1 (R415) -/
  busy : Option (Nat × Nat) := none
  /-- ARGS and RESP areas by byte, default 0 -/
  args : Table Byte := []
  resp : Table Byte := []
  /-- the power cap in watts, the clock step and the watchdog period (R412, R408) -/
  cap : Nat := 1800
  step : Nat := 0
  watchdog : Nat := 2400000000
  power : Power := .active
  /-- reference time since reset in units of a 21st of a count (R413) -/
  time : Nat := 0
  /-- when every tenant became OFF, and when IDLE was entered (R413) -/
  offSince : Nat := 0
  idleSince : Nat := 0
  refresh : Bool := false
  /-- the measurement log, oldest first (R410), and RUN -/
  log : List (BitVec 1024) := []
  run : BitVec 512 := 0
  /-- the resident supervisor image: its address and length in memory -/
  image : Nat × Nat := (0, 0)
  /-- module error: MKIND, DIE, UNIT and WHEN (R408, R416) -/
  error : Option (Nat × Nat × Nat × Nat) := none
  /-- the module stopped at step 2 of reset: only recovery commands answer (R414) -/
  recovery : Bool := false
  /-- the supervisor gangs have started (R414 step 6) -/
  started : Bool := true
  /-- the time of the last regular clock step (R412) -/
  stepAt : Nat := 0
  /-- CORR, POIS, RESEND, RETRY, RESTART, UNLOGGED (R416) -/
  corr : Nat := 0
  pois : Nat := 0
  resend : Nat := 0
  retry : Nat := 0
  restart : Nat := 0
  unlogged : Nat := 0
  /-- die counters, keyed 64 × die + counter, default 0 (R417) -/
  dies : Table Word64 := []
  deriving DecidableEq, Repr

/-- An error that strikes a stored structure or a pipe (R397, R403, R404). -/
inductive Upset where
  /-- an uncorrectable error in a line's data at its home, which refetches a clean one, or in DRAM -/
  | line (line : Nat)
  /-- a corrected error in a word of a die's memories -/
  | corrected (die : Nat)
  /-- an uncorrectable error in the tag of a home line -/
  | homeTag (channel : Nat)
  /-- parity of a clean copy in an L1 or cluster cache, an instruction-cache line or a TLB entry: dropped -/
  | cleanL1 (core line : Nat)
  | cleanCluster (cluster line : Nat)
  | icache (core line : Nat)
  | tlb (core key : Nat)
  | clusterTlb (cluster key : Nat)
  /-- an uncorrectable error in 64 bytes of the weight store -/
  | weights (unit : Nat)
  /-- a line on its way from its home to an operation fails its check where it arrives: it is marked poisoned (R398, R406) -/
  | arriving (op line : Nat)
  /-- so does a line that a core fetches, with a required time, for an engine or a record, or an instruction line -/
  | arrivingCopy (core line t : Nat)
  | arrivingCode (core line : Nat)
  /-- so does what one lane of a peer-scratchpad operation sends or is sent -/
  | flit (op lane : Nat)
  /-- an uncorrectable error in a dirty-line FIFO entry, in the FIFO or on its way home -/
  | dirty (core item : Nat)
  /-- parity of a scratchpad word of a block -/
  | scratch (block word : Nat)
  | supScratch (core word : Nat)
  /-- an error in a stored register, or in the mirror's copy of it: its parity fails, or, where `silent`, passes (R404) -/
  | register (core slot : Nat) (reg : StoredReg) (mirror silent : Bool)
  /-- the next word of a gang fails its check this many times -/
  | pipe (core slot times : Nat)
  /-- the next K-step of a matrix operation fails its check this many times -/
  | matrix (core op times : Nat)
  /-- an Umbra entry lost to an error -/
  | umbra (core tenant layer key : Nat)
  /-- an element of an accumulator tile, or an aligned integer of a B slot, altered (R405) -/
  | accumulator (block tile index : Nat) (value : Word)
  | bslot (core key index : Nat) (value : Int)
  /-- the checksum column of a B slot, or the check state of a row of a tile, altered (R160, R170, R405) -/
  | slotSum (core key pos : Nat) (value : Dy)
  | tileSum (block tile row : Nat) (cs mg : Word)
  /-- an error of a pipe that its residue and parity checks do not detect: a result in a register, or the address of an access
  that is not yet made, is wrong, unreported (R392) -/
  | undetected (core slot : Nat) (reg : StoredReg) (value : Nat)
  | strayed (op lane addr : Nat)
  /-- a byte of a gang's saved state, or of a saved carve-out, lost in the save area (R401) -/
  | savedGang (block gangId : Nat)
  | savedScratch (block word : Nat)
  deriving DecidableEq, Repr

/-- Agents' turns: which agent moves next (log entry 1). -/
inductive Turn where
  /-- a step of the device, the host or the management controller -/
  | event (i : Instr)
  /-- the pipe turns to the group of a gang that holds a slice -/
  | focus (core slot slice : Nat)
  /-- words of a scratchpad operation are performed at their banks: low and high words by lane (R251) -/
  | scratch (op : Nat) (lo hi : LaneMask)
  /-- cycles pass -/
  | elapse (cycles : Nat)
  /-- an error strikes -/
  | upset (u : Upset)
  /-- HOST_WRITE, or BACK_INVALIDATE where `back`, whose data the host marks as poison (R392) -/
  | hostPoison (back : Bool) (line : Nat) (mask : LaneMask) (data : Line)
  /-- the host reads eight bytes of BAR0 (R376) -/
  | barRead (off : Nat)
  /-- a packet is injected at a stop, by its local or bridge port, for the way that its egress ports name (R18, R19, R319) -/
  | packet (stop input : Nat) (path : List Nat) (t : Traffic)
  deriving DecidableEq, Repr

/-- The whole machine. -/
structure State where
  /-- the gang whose word a pipe issues -/
  here : Gang := {}
  /-- the other gangs, keyed 64 × core + slot -/
  gangs : Table Gang := []
  cores : Table Core := []
  clusters : Table Cluster := []
  blocks : Table Block := []
  launches : Table Launch := []
  jobs : Table Job := []
  /-- the privileged registers by state-register index, default 0 (R353); WR, RD and DROPPED of FLOGPTR as they
  read -/
  priv : Table Word64 := []
  /-- BAR0 registers by offset, default 0: weight-store command, bias control, second-tier windows, FABID, peer
  windows and exports, sticky bits of the launch windows (R376 to R383) -/
  bar : Table Word64 := []
  /-- memory bytes by physical address, default 0 (log entry 3) -/
  mem : Table Byte := []
  /-- lines held at their homes -/
  homes : Table HomeLine := []
  /-- lines poisoned in DRAM, which return so to their homes (R398) -/
  dramPoison : List Nat := []
  /-- MTS, keyed as `clocks`, default 0 (R241) -/
  mts : Table Nat := []
  /-- clocks of the stacks (0 to 3), the second-tier ports (100 + port) and the bridge (200), default 0
  (R241) -/
  clocks : Table Nat := []
  /-- HTS of the bridge (R248) -/
  hts : Nat := 0
  /-- a rebase is running (R242, R243), and the rebases made so far -/
  rebasing : Bool := false
  rebases : Nat := 0
  /-- writes of the device that wait for the host to give their lines up, or for a release, oldest first (R247, R362) -/
  work : List DeviceWork := []
  /-- armed watches, oldest first (R336) -/
  watches : List Watch := []
  arrivals : List WatchArrival := []
  ops : List MemOp := []
  /-- answers of other devices to reads by engines -/
  peerData : List PeerData := []
  /-- weight-store bytes, default 0 (R197), and generations by region, default 0 (R198) -/
  ws : Table Byte := []
  wsGen : Table Nat := []
  /-- poisoned 64-byte units of the weight store (R397) -/
  wsPoison : List Nat := []
  /-- the weight-store command in progress (R378) -/
  wsBusy : Option WsCommand := none
  /-- Umbra entries, oldest first (R191) -/
  umbra : List UmbraEntry := []
  /-- saved blocks (R364) -/
  saved : List SavedBlock := []
  preempt : Option Preempt := none
  /-- overflow rings: cards ever written and cards ever taken out, by tenant, default 0 (R308) -/
  ringIn : Table Nat := []
  ringOut : Table Nat := []
  /-- tenants whose context RINGMAP has stopped (R308) -/
  ringStopped : List Nat := []
  /-- fire-and-forget stores not answered (R389, R390) -/
  ff : List FfStore := []
  packets : List Packet := []
  /-- pages of HBM with device bias, by page number (R379), and the flip in progress (R381) -/
  deviceBias : List Nat := []
  flip : Option Flip := none
  /-- host requests held at the bridge, oldest first (R381) -/
  heldHost : List HostRequest := []
  /-- requests sent to other devices, newest first (R383) -/
  sent : List PeerRequest := []
  mgmt : Management := {}
  /-- what host reads, mailbox reads and answers to other devices have returned, newest first (log entry 8) -/
  seen : List (Nat × Nat) := []
  nextId : Nat := 1
  /-- the issue slots taken in the present cycle, as 2 × core + pipe (R316) -/
  used : List Nat := []
  agenda : List Turn := []
  tick : Nat := 0
  cycle : Nat := 0
  deriving DecidableEq, Repr

/-- The first fields of a measurement-log entry: index, kind, verdict and version (R410). -/
def logHeader (index kind verdict version : Nat) : Nat :=
  index % 2 ^ 16 + kind % 2 ^ 8 * 2 ^ 16 + verdict % 2 ^ 8 * 2 ^ 24 + version % 2 ^ 64 * 2 ^ 64

/-- The boot entries of the measurement log, management firmware and supervisor image: both accepted, with the
version and digest of images that the specification does not give (R409, R414; log entry 9). -/
def bootLog : List (BitVec 1024) :=
  [BitVec.ofNat 1024 (logHeader 0 0 0 (Config.imageVersion 0) + (Config.imageDigest 0).toNat * 2 ^ 128),
   BitVec.ofNat 1024 (logHeader 1 1 0 (Config.imageVersion 1) + (Config.imageDigest 1).toNat * 2 ^ 128)]

/-- RUN once an entry is appended (R410). -/
def runAfter (run : BitVec 512) (e : BitVec 1024) : BitVec 512 :=
  sha512 (bytesOf 64 run.toNat ++ bytesOf 128 e.toNat)

/-- The machine right after reset (R414): no user work, the supervisor gangs about to start their image, the
one of core 0 on the pipe.  Every field is at the value the specification states for reset, or at the value
that a log entry names. -/
def State.reset : State :=
  { here :=
      { core := 0, slot := 48, granules := 4
        grp := { slices := BitVec.allOnes 16, pc := BitVec.ofNat 64 Config.supervisorEntry } }
    mgmt := { log := bootLog, run := bootLog.foldl runAfter 0 } }

end Sys2Proof.Machine
end

