-- ==== Sys2Proof/Machine/Operands.lean ====
section
/-! DEFINITION. Operands: S, M, V and T registers, MODE fields, the lanes and slices that take part
(R9, R26, R34, R37, R55 to R60, R71). -/

namespace Sys2Proof.Machine

/-! ## Slices and lanes -/

/-- The slices of the issuing group, in increasing index: the participating slices (R37). -/
def Gang.members (g : Gang) : List Nat := bitsSet 16 g.grp.slices.toNat

/-- Whether a slice belongs to the issuing group. -/
def Gang.inGroup (g : Gang) (slice : Nat) : Bool := g.grp.slices.getLsbD slice

/-- The lanes of the issuing group's slices, in increasing index. -/
def Gang.groupLanes (g : Gang) : List Nat := (List.range 64).filter (fun l => g.inGroup (l / 4))

/-- Mask register `i`; lanes of the gang are its bits (R25). -/
def Gang.mask (g : Gang) (i : Nat) : LaneMask := Table.get 0 g.m i

/-- Mask register `i` written whole. -/
def Gang.setMask (g : Gang) (i : Nat) (v : LaneMask) : Gang := { g with m := Table.set 0 g.m i v }

/-- The bits of `lanes` in mask register `i` replaced by those of `v` (R57). -/
def Gang.writeMask (g : Gang) (i : Nat) (lanes : List Nat) (v : LaneMask) : Gang :=
  let sel : LaneMask := BitVec.ofNat 64 (maskOf lanes)
  g.setMask i ((g.mask i &&& ~~~sel) ||| (v &&& sel))

/-! ## MODE (R71) -/

/-- MODE of a slice. -/
def Gang.modeOf (g : Gang) (slice : Nat) : Word := Table.get 0 g.mode slice

/-- MODE of a slice written. -/
def Gang.setMode (g : Gang) (slice : Nat) (v : Word) : Gang := { g with mode := Table.set 0 g.mode slice v }

/-- MODE.ETYPE. -/
def modeEtype (m : Word) : Nat := field m.toNat 0 4
/-- MODE.GUARD. -/
def modeGuard (m : Word) : Nat := field m.toNat 4 3
/-- MODE.GINV. -/
def modeGinv (m : Word) : Bool := bitOf m.toNat 7
/-- MODE.RND. -/
def modeRnd (m : Word) : Nat := field m.toNat 8 3
/-- MODE.FTZ. -/
def modeFtz (m : Word) : Bool := bitOf m.toNat 11
/-- MODE.SCOPE. -/
def modeScope (m : Word) : Nat := field m.toNat 12 3
/-- MODE.AORD. -/
def modeAord (m : Word) : Nat := field m.toNat 15 2
/-- MODE.IXS. -/
def modeIxs (m : Word) : Bool := bitOf m.toNat 17

/-- Whether a value may be written to MODE: no reserved value and no reserved bit (R73). -/
def modeOk (m : Word) : Bool :=
  decide (modeEtype m ≤ 13) && decide (modeRnd m ≤ 4) && decide (modeScope m ≤ 4) && field m.toNat 18 14 == 0

/-- Whether the guard selects a lane: always where GUARD is 0 (R71). -/
def Gang.guardSelects (g : Gang) (lane : Nat) : Bool :=
  let m := g.modeOf (lane / 4)
  modeGuard m == 0 || ((g.mask (modeGuard m)).getLsbD lane != modeGinv m)

/-- active() of R9, over the lanes of the issuing group. -/
def Gang.active (g : Gang) : List Nat :=
  g.groupLanes.filter (fun l => (g.mask 0).getLsbD l && g.guardSelects l)

/-- The lanes of the issuing group whose EXEC bit is 1. -/
def Gang.execLanes (g : Gang) : List Nat := g.groupLanes.filter (fun l => (g.mask 0).getLsbD l)

/-! ## Scalar registers (R56) -/

/-- Scalar register `r` of a slice; S0 reads zero. -/
def Gang.sreg (g : Gang) (slice r : Nat) : Word64 := if r = 0 then 0 else Table.get 0 g.s (64 * slice + r)

/-- Scalar register `r` of a slice written; a write to S0 is discarded. -/
def Gang.setS (g : Gang) (slice r : Nat) (v : Word64) : Gang :=
  if r = 0 then g else { g with s := Table.set 0 g.s (64 * slice + r) v }

/-- Register `r` written in each listed slice with the value `f` gives for it. -/
def Gang.writeS (g : Gang) (slices : List Nat) (r : Nat) (f : Nat → Word64) : Gang :=
  slices.foldl (fun acc sl => acc.setS sl r (f sl)) g

/-- SCC of a slice. -/
def Gang.sccOf (g : Gang) (slice : Nat) : Bool := g.scc.getLsbD slice

/-- SCC of a slice written. -/
def Gang.setScc (g : Gang) (slice : Nat) (v : Bool) : Gang :=
  let bit : SliceMask := BitVec.ofNat 16 (2 ^ slice)
  { g with scc := if v then g.scc ||| bit else g.scc &&& ~~~bit }

/-- SCC written in each listed slice. -/
def Gang.writeScc (g : Gang) (slices : List Nat) (f : Nat → Bool) : Gang :=
  slices.foldl (fun acc sl => acc.setScc sl (f sl)) g

/-- The value of a uniform operand: that of the lowest participating slice (R38). -/
def Gang.uniformS (g : Gang) (r : Nat) : Word64 := g.sreg (g.members.headD 0) r

/-- Whether a scalar register holds one value in every participating slice (R38). -/
def Gang.isUniform (g : Gang) (r : Nat) : Bool := g.members.all (fun sl => g.sreg sl r == g.uniformS r)

/-- Whether a function of a slice's MODE is the same in every participating slice. -/
def Gang.uniformMode (g : Gang) (f : Word → Nat) : Bool :=
  g.members.all (fun sl => f (g.modeOf sl) == f (g.modeOf (g.members.headD 0)))

/-- MODE of the lowest participating slice. -/
def Gang.firstMode (g : Gang) : Word := g.modeOf (g.members.headD 0)

/-! ## Vector registers (R55, R60) -/

/-- A lane's word of the register with operand code `c`: V0 to V247, then T0 to T7. -/
def Gang.vword (g : Gang) (c lane : Nat) : Word := Table.get 0 g.v (64 * c + lane)

/-- A lane's word of a V or T register written. -/
def Gang.setV (g : Gang) (c lane : Nat) (v : Word) : Gang := { g with v := Table.set 0 g.v (64 * c + lane) v }

/-- A lane's operand: one word, or the pair of words from code `c` (R60). -/
def Gang.operand (g : Gang) (wide : Bool) (c lane : Nat) : Nat :=
  if wide then (g.vword c lane).toNat + 2 ^ 32 * (g.vword (c + 1) lane).toNat else (g.vword c lane).toNat

/-- A lane's operand written. -/
def Gang.setOperand (g : Gang) (wide : Bool) (c lane : Nat) (x : Nat) : Gang :=
  if wide then (g.setV c lane (BitVec.ofNat 32 x)).setV (c + 1) lane (BitVec.ofNat 32 (x / 2 ^ 32))
  else g.setV c lane (BitVec.ofNat 32 x)

/-- Whether an operand code names a T register. -/
def isT (c : Nat) : Bool := decide (248 ≤ c)

/-- Whether MODE gives a 64-bit element type: f64, i64 or n64 (R60). -/
def wideEtype (e : Nat) : Bool := e == 9 || e == 10 || e == 11

/-- Whether a lane's slice has a 64-bit element type. -/
def Gang.wideLane (g : Gang) (lane : Nat) : Bool := wideEtype (modeEtype (g.modeOf (lane / 4)))

/-- Whether any participating slice has a 64-bit element type. -/
def Gang.anyWide (g : Gang) : Bool := g.members.any (fun sl => wideEtype (modeEtype (g.modeOf sl)))

/-- The registers that a pair-ruled operand names: the code, and the next one where some slice has a
64-bit element type. -/
def Gang.spans (g : Gang) (c : Nat) : List Nat := if g.anyWide then [c, c + 1] else [c]

/-- Whether an operand code breaks the pair rule: odd while some slice has a 64-bit ETYPE (R60). -/
def Gang.oddPair (g : Gang) (c : Nat) : Bool := g.anyWide && c % 2 == 1

/-- Whether a V register lies above the gang's granules (R41, R55). -/
def Gang.aboveClaim (g : Gang) (c : Nat) : Bool := !isT c && decide (8 * g.granules ≤ c)

/-- Whether a T register is still unwritten in the group's run (R64). -/
def Gang.unwrittenT (g : Gang) (c : Nat) : Bool := isT c && !g.grp.tw.getLsbD (c - 248)

/-- The written marks with those of the listed T registers set (R64). -/
def Gang.markT (g : Gang) (codes : List Nat) : Gang :=
  { g with grp := { g.grp with tw := codes.foldl (fun t c => if isT c then t ||| BitVec.ofNat 8 (2 ^ (c - 248)) else t) g.grp.tw } }

/-- Every T register unwritten and zero in the group's lanes: a run start (R64). -/
def Gang.clearT (g : Gang) : Gang :=
  { g with
    v := g.v.filter (fun e => !(isT (e.1 / 64) && g.inGroup (e.1 % 64 / 4)))
    grp := { g.grp with tw := 0 } }

/-! ## Words and runs (R61, R65) -/

/-- The address of the word that the group issues next. -/
def Gang.wordPc (g : Gang) : Word64 :=
  match g.grp.run with
  | none => g.grp.pc
  | some r => g.grp.pc + BitVec.ofNat 64 (4 * (r.idx + 1))

/-- The index, in its run, of the word that the group issues next. -/
def Gang.wordIndex (g : Gang) : Nat := (g.grp.run.map RunPos.idx).getD 0

/-- Whether the word about to issue is the last of its run (R62). -/
def Gang.lastWord (g : Gang) : Bool :=
  match g.grp.run with
  | none => false
  | some r => r.idx + 1 == r.len

/-- A group about to issue: it waits for nothing, and no word of it has been tried. -/
def Group.fresh (p : Group) : Group := { p with wait := .ready, marker := none, since := none, fence := false, bound := false }

/-- A group between runs, at a run start: its age begins anew (R316, R327). -/
def Group.goTo (p : Group) (pc : Word64) : Group := { p with pc := pc, run := none, age := none }.fresh

/-- The group moves past its word: to the run's next word, or to the run that follows. -/
def Gang.advance (g : Gang) : Gang :=
  match g.grp.run with
  | none => g
  | some r =>
    if r.idx + 1 < r.len then { g with grp := { g.grp with run := some { r with idx := r.idx + 1 } }.fresh }
    else { g with grp := g.grp.goTo (g.grp.pc + BitVec.ofNat 64 (4 * (r.len + 1))) }

/-- The group goes to a run start. -/
def Gang.jump (g : Gang) (target : Word64) : Gang :=
  { g with grp := g.grp.goTo target }

/-- Every group of a gang, the one on the pipe first. -/
def Gang.groups (g : Gang) : List Group := g.grp :: g.parted

/-- The group waits at its word. -/
def Gang.waitFor (g : Gang) (w : Wait) : Gang := { g with grp := { g.grp with wait := w } }

end Sys2Proof.Machine
end

