-- ==== Sys2Proof/Machine/Flags.lean ====
section
/-! DEFINITION. Completion flags (R58, R68) and the bits of LCAUSE and WAKEWHY (R334, R395). -/

namespace Sys2Proof.Machine

/-- The count of completion flag `n`. -/
def Gang.flag (g : Gang) (n : Nat) : Nat := Table.get 0 g.flags n

/-- A flag count written. -/
def Gang.setFlag (g : Gang) (n c : Nat) : Gang := { g with flags := Table.set 0 g.flags n c }

/-! ## Clocks (R227, R242) -/

/-- The amount by which a rebase lowers every timestamp (R242). -/
def rebaseBy : Nat := 0x80000000

/-- PTS as the homes see it: less the rebases that the gang owes at its next run boundary (R242, R243). -/
def Gang.ptsNow (g : Gang) : Nat := g.pts - rebaseBy * g.owedRebases

/-- ATS as the homes see it. -/
def Gang.atsNow (g : Gang) : Nat := g.ats - rebaseBy * g.owedRebases

/-- Whether a time `w`, counted up by the rebases that the gang owes, is no 32-bit value (R227). -/
def Gang.overTime (g : Gang) (w : Nat) : Bool := decide (2 ^ 32 ≤ w + rebaseBy * g.owedRebases)

/-- PTS := max(PTS, w) (R229, R231, R237).  Where that would not be a 32-bit value before the rebases that the gang owes, it takes
them at once (R227, R242; log entry 20). -/
def Gang.raisePts (g : Gang) (w : Nat) : Gang :=
  { g with
    pts := if g.overTime w then max g.ptsNow w else max g.pts (w + rebaseBy * g.owedRebases)
    ats := if g.overTime w then g.atsNow else g.ats
    owedRebases := if g.overTime w then 0 else g.owedRebases }

/-- Later loads of the gang from a line use only copies whose wts is at least `w` (R238, R266). -/
def Gang.raiseFloor (g : Gang) (line w : Nat) : Gang :=
  { g with floors := Table.set 0 g.floors line (max (Table.get 0 g.floors line) w) }

/-- ATS := PTS (R232). -/
def Gang.acquireClock (g : Gang) : Gang := { g with ats := g.pts }

/-- The rebases owed are taken at a run boundary: B less, clamped at 0 (R242). -/
def Gang.payRebases (g : Gang) : Gang := { g with pts := g.ptsNow, ats := g.atsNow, owedRebases := 0 }

/-! ## Flags -/

/-- Whether a 4-bit flag code is reserved: codes 12 to 14 raise FLAGCODE (R58). -/
def badFlag (f : BitVec 4) : Bool := f.toNat == 12 || f.toNat == 13 || f.toNat == 14

/-- The flag that a code names; code 15 names none. -/
def flagOf (f : BitVec 4) : Option Nat := if f.toNat < 12 then some f.toNat else none

/-- Whether the named flag can count one more operation (R65: a word whose flag counts 63 waits). -/
def Gang.flagFull (g : Gang) (f : BitVec 4) : Bool :=
  match flagOf f with
  | some n => decide (63 ≤ g.flag n)
  | none => false

/-- One more incomplete operation on a flag (R68). -/
def Gang.raiseFlag (g : Gang) : Option Nat → Gang
  | some n => g.setFlag n (g.flag n + 1)
  | none => g

/-- One operation of a flag is complete (R68). -/
def Gang.lowerFlag (g : Gang) : Option Nat → Gang
  | some n => g.setFlag n (g.flag n - 1)
  | none => g

/-- Whether every flag named in a header's WAIT field is at zero (R65). -/
def Gang.flagsClear (g : Gang) (wait : BitVec 12) : Bool :=
  (List.range 12).all (fun n => !wait.getLsbD n || g.flag n == 0)

/-- One more lane event, of cause `c` (R395): COUNT saturates and FIRST keeps the first cause. -/
def laneEvent (lcause : Word64) (c : Cause) : Word64 :=
  let first := field lcause.toNat 0 8
  let count := field lcause.toNat 8 8
  let rest := lcause.toNat / 2 ^ 16 * 2 ^ 16
  BitVec.ofNat 64 (rest + 256 * (min 255 (count + 1)) + (if first = 0 then c.code else first))

/-- The lane event of an access that another device refuses, or does not answer, with no lane to switch off (R385; log entry 31). -/
def Gang.peerEvent (g : Gang) : Gang := { g with lcause := laneEvent g.lcause .peergone }

/-- lane_fault of R9 and R224: the lane is switched off, its LFAULT bit set, the cause recorded. -/
def Gang.laneFault (g : Gang) (lane : Nat) (c : Cause) : Gang :=
  let bit : LaneMask := BitVec.ofNat 64 (2 ^ lane)
  { g.setMask 0 (g.mask 0 &&& ~~~bit) with
    lfault := g.lfault ||| bit
    lcause := laneEvent g.lcause c }

/-- A sticky bit of LCAUSE set: 16 EXMEM, 17 BARGONE, 18 ENGGONE (R395). -/
def Gang.stickyCause (g : Gang) (bit : Nat) : Gang := { g with lcause := g.lcause ||| BitVec.ofNat 64 (2 ^ bit) }

/-- The wait status of LCAUSE: 0 OK, 1 ABANDONED (R395). -/
def Gang.waitStatus (g : Gang) (v : Nat) : Gang :=
  { g with lcause := (g.lcause &&& ~~~(0x180000#64)) ||| BitVec.ofNat 64 (v * 2 ^ 19) }

/-- A wait of the group on the pipe ends: WAKEWHY takes the bits of what ended it, and those that the wait has
gathered (R334); the rebases that the parked gang owes are taken (R242 step 3). -/
def Gang.endWait (g : Gang) (bits : Nat) : Gang :=
  { g.payRebases with wakewhy := g.wakewhy ||| BitVec.ofNat 64 (bits ||| g.grp.why), grp := { g.grp with why := 0 } }

end Sys2Proof.Machine
end

