-- ==== Sys2Proof/Machine/Memory.lean ====
section
/-! DEFINITION. Memory: bytes, lines and homes (R213, R214, R227, R228, R231, R239, R241, R116),
translation (R356 to R359), scratchpads (R215 to R217), and the lists of gangs, cores and blocks. -/

namespace Sys2Proof.Machine

/-! ## Bytes -/

/-- What an unlisted address reads as (log entry 3). -/
def Memory.blank : Byte := 0

/-- The byte of memory at a physical address. -/
def State.byte (s : State) (a : Nat) : Byte := Table.get Memory.blank s.mem a

/-- The byte of memory at a physical address written. -/
def State.setByte (s : State) (a : Nat) (b : Byte) : State := { s with mem := Table.set Memory.blank s.mem a b }

/-- The `n` bytes from address `a`. -/
def State.bytes (s : State) (a : Nat) : Nat → List Byte
  | 0 => []
  | n + 1 => s.byte a :: s.bytes (a + 1) n

/-- Bytes written from address `a` on. -/
def State.setBytes (s : State) (a : Nat) : List Byte → State
  | [] => s
  | b :: rest => (s.setByte a b).setBytes (a + 1) rest

/-- The little-endian number of `n` bytes at address `a` (R6). -/
def State.read (s : State) (a n : Nat) : Nat := ofBytes (s.bytes a n)

/-- The canonical form of memory: addresses strictly rising, none listed with the blank value. -/
def Memory.wf (m : Table Byte) : Bool := Table.wf Memory.blank m

/-- The `n` bytes from offset `off` of a line. -/
def lineField (l : Line) (off n : Nat) : Nat := field l.toNat (8 * off) (8 * n)

/-- The bytes of `new` where `mask` has a bit, those of `old` elsewhere. -/
def mergeLine (old new : Line) (mask : LaneMask) : Line :=
  let wide : Nat := (bitsSet 64 mask.toNat).foldl (fun acc i => acc ||| 255 * 2 ^ (8 * i)) 0
  let sel : Line := BitVec.ofNat 512 wide
  (old &&& ~~~sel) ||| (new &&& sel)

/-- The 64 bytes of a memory line. -/
def State.lineBytes (s : State) (line : Nat) : Line := BitVec.ofNat 512 (s.read (64 * line) 64)

/-- The bytes of a line that `mask` names, written to memory. -/
def State.storeLine (s : State) (line : Nat) (mask : LaneMask) (data : Line) : State :=
  (bitsSet 64 mask.toNat).foldl (fun acc i => acc.setByte (64 * line + i) (BitVec.ofNat 8 (lineField data i 1))) s

/-! ## The physical map (R213, R214) -/

/-- What a physical address belongs to. -/
inductive Region where
  | reserved | hbm | tier | host | peer
  deriving DecidableEq, Repr

/-- The region of a physical address (R213). -/
def regionOf (a : Nat) : Region :=
  if a < 2 ^ 38 then .reserved
  else if a < 2 ^ 39 then .hbm
  else if a < 2 ^ 50 then .reserved
  else if a < 2 ^ 51 then .tier
  else if a < 3 * 2 ^ 50 then .host
  else if a < 2 ^ 52 then .peer
  else .reserved

/-- The home channel of an HBM or second-tier address (R214). -/
def channelOf (a : Nat) : Nat :=
  field a 6 7 ^^^ field a 13 7 ^^^ field a 20 7 ^^^ field a 27 7 ^^^ field a 34 4

/-- A BAR0 register, by offset. -/
def State.barReg (s : State) (off : Nat) : Nat := (Table.get 0 s.bar off).toNat

/-- A BAR0 register written. -/
def State.setBar (s : State) (off v : Nat) : State := { s with bar := Table.set 0 s.bar off (BitVec.ofNat 64 v) }

/-- The port, from 2 to 11, whose enabled second-tier window holds an address (R382). -/
def State.tierPort (s : State) (a : Nat) : Option Nat :=
  (List.range' 2 10).find? (fun p =>
    let base := s.barReg (0x13000 + 16 * (p - 2))
    let size := field (s.barReg (0x13000 + 16 * (p - 2) + 8)) 0 22 * 2 ^ 30
    bitOf base 0 && decide (field base 30 22 * 2 ^ 30 ≤ a) && decide (a < field base 30 22 * 2 ^ 30 + size))

/-- The enabled peer window that holds an address (R383). -/
def State.peerWindow (s : State) (a : Nat) : Option Nat :=
  (List.range 64).find? (fun w =>
    let base := s.barReg (0x18000 + 32 * w)
    let lim := s.barReg (0x18000 + 32 * w + 8)
    bitOf base 0 && decide (field base 30 22 * 2 ^ 30 ≤ a) && decide (a < field lim 30 22 * 2 ^ 30))

/-- Where an access to a peer address goes: the owning device, whether by CXL, the port, and the remote physical address
REMOTE + (A − base) (R383). -/
def State.peerTarget (s : State) (a : Nat) : Option (Nat × Bool × Nat × Nat) :=
  (s.peerWindow a).map (fun w =>
    let ctl := s.barReg (0x18000 + 32 * w + 24)
    (field ctl 0 16, bitOf ctl 17, field ctl 18 4,
      field (s.barReg (0x18000 + 32 * w + 16)) 12 40 * 4096 + (a - field (s.barReg (0x18000 + 32 * w)) 30 22 * 2 ^ 30)))

/-- A request for a peer line goes to the owning device (R383): `kind` 0 for a load, 1 for a store, 2 for an atomic. -/
def State.sendPeer (s : State) (op line kind : Nat) (mask : LaneMask) (data : Line) : State :=
  match s.peerTarget (64 * line) with
  | none => s
  | some (device, cxl, port, addr) => { s with sent := ⟨op, device, cxl, port, addr, kind, mask, data⟩ :: s.sent }

/-- Whether a line lies in a peer window whose plain stores are fire-and-forget: PWCTL.FF (R383, R389). -/
def State.ffLine (s : State) (line : Nat) : Bool :=
  match s.peerWindow (64 * line) with
  | some w => bitOf (s.barReg (0x18000 + 32 * w + 24)) 16
  | none => false

/-- Whether something answers at a physical address: a second-tier or peer address needs an enabled window
(R382, R383). -/
def State.mapped (s : State) (a : Nat) : Bool :=
  match regionOf a with
  | .tier => (s.tierPort a).isSome
  | .peer => (s.peerWindow a).isSome
  | _ => true

/-- The clock that covers a line: its stack, its second-tier port, or the bridge (R241). -/
def State.clockOf (s : State) (line : Nat) : Nat :=
  match regionOf (64 * line) with
  | .hbm => channelOf (64 * line) / 32
  | .tier => 100 + (s.tierPort (64 * line)).getD 0
  | _ => 200

/-! ## Counters (R417) -/

/-- A counter register after `n` events of a source: it counts when enabled and set to that source. -/
def countInto (source n : Nat) (c : Word64) : Word64 :=
  if bitOf c.toNat 56 && field c.toNat 48 8 == source then
    BitVec.ofNat 64 (c.toNat / 2 ^ 48 * 2 ^ 48 + (c.toNat + n) % 2 ^ 48)
  else c

/-- `n` events of a source on a table of counters, but for those that `keep` names. -/
def countTable (keep : List Nat) (source n : Nat) (t : Table Word64) : Table Word64 :=
  t.map (fun e => if keep.contains e.1 then e else (e.1, countInto source n e.2))

/-- `n` events of a source at a core's counters; one that was written in the present cycle keeps its value (R417). -/
def State.count (s : State) (core source n : Nat) : State :=
  { s with cores := s.cores.adjust core (fun c => { c with evc := countTable c.evcSet source n c.evc }) }

/-- `n` events of a source at the counters of a die. -/
def State.countDie (s : State) (die source n : Nat) : State :=
  { s with mgmt := { s.mgmt with dies := s.mgmt.dies.map (fun e =>
      if e.1 / 64 = die then (e.1, countInto source n e.2) else e) } }

/-- The die of a line's home (R14, R214). -/
def dieOf (line : Nat) : Nat := channelOf (64 * line) / 64

/-- Whether `n` words of `w` bytes are each one base plus a signed delta of `k` bytes, modulo the width: the base stands
half the deltas' range above one of the words, the least of them (R220). -/
def deltaForm (l : Line) (n w k : Nat) : Bool :=
  (List.range n).any (fun j => (List.range n).all (fun i =>
    decide ((lineField l (w * i) w + 2 ^ (8 * w) - lineField l (w * j) w) % 2 ^ (8 * w) < 2 ^ (8 * k))))

/-- The form in which a home stores a line: the smallest that holds it (R220). -/
def storedForm (l : Line) : Nat :=
  if l = 0 then 1
  else if (List.range 8).all (fun i => lineField l (8 * i) 8 == lineField l 0 8) then 2
  else if deltaForm l 8 8 1 then 3
  else if deltaForm l 16 4 1 then 5
  else if deltaForm l 8 8 2 then 4
  else 0

/-! ## Privileged registers (R353) -/

/-- A privileged register by its state-register index. -/
def State.privReg (s : State) (i : Nat) : Word64 := Table.get 0 s.priv i

/-- A privileged register written. -/
def State.setPriv (s : State) (i : Nat) (v : Word64) : State := { s with priv := Table.set 0 s.priv i v }

/-- The state-register index of register `r` of tenant `t` (R353). -/
def tenantIndex (t r : Nat) : Nat := 0x800 + 0x40 * t + r

/-- A per-tenant register: 0 TROOT, 1 TCTL, 2 to 5 CMASK, 6 QPRIO, 7 UMBASE, 8 UMSIZE, 9 WSPART,
0xA RINGBASE, 0xB RINGSIZE, 0xC FLOGBASE, 0xD FLOGPTR, 0xE CTXBASE, 0xF MSGBASE, 0x10 HTBASE,
0x11 ARTAB. -/
def State.tenantReg (s : State) (t r : Nat) : Nat := (s.privReg (tenantIndex t r)).toNat

/-! ## Format windows and tags (R114 to R116) -/

/-- Whether enabled window `w` holds a physical address. -/
def State.inWindow (s : State) (w a : Nat) : Bool :=
  let base := (s.privReg (0xC00 + 4 * w)).toNat
  let lim := (s.privReg (0xC00 + 4 * w + 1)).toNat
  bitOf base 0 && decide (field base 16 36 * 65536 ≤ a) && decide (a < field lim 16 36 * 65536)

/-- The bytes of a block of a square-scaled tensor (R115). -/
def blockBytes (fmt geom : Nat) : Nat :=
  let g := if geom = 1 then 32 else 16
  if fmt = 6 then g * g / 2 else g * g

/-- The tag that the home forms for a line: that of the lowest-numbered enabled window (R114, R116). -/
def State.formTag (s : State) (line : Nat) : Option Tag :=
  match (List.range 16).find? (fun w => s.inWindow w (64 * line)) with
  | none => none
  | some w =>
    let base := field (s.privReg (0xC00 + 4 * w)).toNat 16 36 * 65536
    let lim := (s.privReg (0xC00 + 4 * w + 1)).toNat
    let sbase := field (s.privReg (0xC00 + 4 * w + 2)).toNat 3 49 * 8
    let pitch := field (s.privReg (0xC00 + 4 * w + 3)).toNat 0 32
    let fmt := field lim 0 5
    let geom := field lim 5 1
    let size := blockBytes fmt geom
    let off := 64 * line - base
    let bi := off / pitch
    let bj := off % pitch / size
    some ⟨BitVec.ofNat 64 (s.read (sbase + (bi * (pitch / size) + bj) * 8) 8), fmt, geom, bi, bj⟩

/-! ## Homes (R227, R228, R231, R239) -/

/-- A line at its home.  A line not held there is in DRAM: it starts with wts_h = rts_h = MTS and
L = 16, and with a tag where it lies in a window (R116, R239, R241). -/
def State.home (s : State) (line : Nat) : HomeLine :=
  match s.homes.find line with
  | some h => h
  | none =>
    let t := Table.get 0 s.mts (s.clockOf line)
    { wts := t, rts := t, tag := s.formTag line, poison := s.dramPoison.contains line }

/-- A line at its home written, with the clock that covers it (R241). -/
def State.setHome (s : State) (line : Nat) (h : HomeLine) : State :=
  { s with
    homes := s.homes.insert line h
    clocks := Table.set 0 s.clocks (s.clockOf line) (max (Table.get 0 s.clocks (s.clockOf line)) (max h.wts h.rts)) }

/-- The host holds a line no longer: its shared copy is invalidated, or it has given up its ownership (R247). -/
def State.recall (s : State) (line : Nat) : State :=
  match (s.home line).host with
  | .invalid => s
  | _ => { s with homes := s.homes.insert line { s.home line with host := .invalid, hostRts := 0 } }

/-- Whether the host owns a line: an access of the device waits until the bridge has recalled it with its data
(R247). -/
def State.hostOwns (s : State) (line : Nat) : Bool := (s.home line).host == HostState.owned

/-- Whether the host owns some line of `n` bytes from a physical address. -/
def State.hostOwnsRange (s : State) (addr n : Nat) : Bool :=
  n != 0 && (List.range' (addr / 64) ((addr + n - 1) / 64 - addr / 64 + 1)).any s.hostOwns

/-- A granted lease (R231, R239, R243): `t` is the required time and `renews` the wts of the copy that
the requesting level holds.  During a rebase it is 8, and L stays. -/
def State.grant (s : State) (line t : Nat) (renews : Option Nat) : State :=
  let h := s.home line
  let lease := if renews = some h.wts ∧ h.written = false ∧ h.hinted = false then min (2 * h.lease) 4096 else h.lease
  let given := if s.rebasing then 8 else lease
  s.setHome line { h with rts := max h.rts (max t h.wts + given), lease := if s.rebasing then h.lease else lease, written := false }

/-- Every watch of a line fires, with a wts (R336). -/
def State.fire (s : State) (line wts : Nat) : State :=
  let hit := s.watches.filter (fun w => w.line == line)
  { s.countDie (dieOf line) 12 hit.length with
    watches := s.watches.filter (fun w => w.line != line)
    arrivals := s.arrivals ++ hit.map (fun w => ⟨line, w.block, w.offset, wts, false⟩) }

/-- home_store of R228: the bytes land, timestamped past every lease; the line is tagged anew (R116),
its poison cleared by a whole-line store (R398), and its watches fire (R336).  A store that allocates its line with a carried
time of at most MTS leaves L at 8, the install's 16 halved (R239; DESIGN CHOICE, log entry 82). -/
def State.homeStore (s : State) (line t : Nat) (mask : LaneMask) (data : Line) (poison : Bool) : State :=
  let h := s.home line
  let w := max (h.rts + 1) t
  let lease := if t ≤ h.rts then max (h.lease / 2) 8 else h.lease
  let s := s.storeLine line mask data
  let s := { s with dramPoison := s.dramPoison.filter (fun x => x != line) }
  let s := s.setHome line { h with
    wts := w, rts := w, lease := lease, hinted := false, written := true, dirty := true, tag := s.formTag line
    poison := if mask = BitVec.allOnes 64 then poison else h.poison || poison }
  (s.countDie (dieOf line) (3 + storedForm (s.lineBytes line)) 1).fire line w

/-- A line has become poisoned: counted (R416, R417). -/
def State.countPoison (s : State) (line : Nat) : State :=
  { s with mgmt := { s.mgmt with pois := s.mgmt.pois + 1 } }.countDie (dieOf line) 10 1

/-! ### Writes of the device itself (R247) -/

/-- The bytes of a line in which a mask has a bit. -/
def bytesOfMask (mask : Line) : LaneMask :=
  BitVec.ofNat 64 (maskOf ((List.range 64).filter (fun i => lineField mask i 1 != 0)))

/-- The bits of a line that `mask` names stored at its home by the device itself with the carried time `t` (R228); a line of
another device is stored there by a request (R383). -/
def State.putBits (s : State) (line t : Nat) (mask value : Line) : State :=
  let data := (s.lineBytes line &&& ~~~mask) ||| (value &&& mask)
  if regionOf (64 * line) = .peer then s.sendPeer 0 line 1 (bytesOfMask mask) value
  else (s.recall line).homeStore line t (bytesOfMask mask) data false

/-- The line that a write of the device is for, but for a record of a fault log. -/
def DeviceWork.line : DeviceWork → Option Nat
  | .put line _ _ _ => some line
  | .add line _ _ _ => some line
  | .log .. => none

/-- Whether a write of the device to a line must wait: the host owns the line, or an earlier write to it waits (R247). -/
def State.putWaits (s : State) (line : Nat) : Bool := s.hostOwns line || s.work.any (fun w => w.line == some line)

/-- A write of the device to a line, now or once the host has given the line up. -/
def State.put (s : State) (line t : Nat) (mask value : Line) : State :=
  if s.putWaits line then { s with work := s.work ++ [DeviceWork.put line t mask value] } else s.putBits line t mask value

/-- The 8-byte counter at an offset of a line raised by `n` (R305). -/
def State.addAt (s : State) (line t off n : Nat) : State :=
  s.putBits line t (BitVec.ofNat 512 ((2 ^ 64 - 1) * 2 ^ (8 * off)))
    (BitVec.ofNat 512 ((lineField (s.lineBytes line) off 8 + n) % 2 ^ 64 * 2 ^ (8 * off)))

/-- The copy that a home hands out: its timestamps, bytes, tag and poison. -/
def State.homeCopy (s : State) (line : Nat) : LineData :=
  let h := s.home line
  ⟨h.wts, h.rts, s.lineBytes line, h.tag, h.poison⟩

/-! ## Cores, clusters, blocks and gangs -/

/-- A core, by number. -/
def State.core (s : State) (n : Nat) : Core := (s.cores.find n).getD {}
/-- A core written. -/
def State.setCore (s : State) (n : Nat) (c : Core) : State := { s with cores := s.cores.insert n c }
/-- A cluster, by number. -/
def State.cluster (s : State) (n : Nat) : Cluster := (s.clusters.find n).getD {}
/-- A cluster written. -/
def State.setCluster (s : State) (n : Nat) (c : Cluster) : State := { s with clusters := s.clusters.insert n c }
/-- A block, by key. -/
def State.block (s : State) (k : Nat) : Block := (s.blocks.find k).getD {}
/-- A block written. -/
def State.setBlock (s : State) (k : Nat) (b : Block) : State := { s with blocks := s.blocks.insert k b }
/-- A launch, by key. -/
def State.launch (s : State) (k : Nat) : Launch := (s.launches.find k).getD {}
/-- A launch written. -/
def State.setLaunch (s : State) (k : Nat) (l : Launch) : State := { s with launches := s.launches.insert k l }

/-- The key of a gang slot. -/
def gangKey (core slot : Nat) : Nat := 64 * core + slot

/-- The supervisor gang of a core as it starts: every register zero, EXEC among them, and four granules
(R359, R407; log entry 4). -/
def Gang.supervisor (core : Nat) : Gang :=
  { core := core, slot := 48, granules := 4
    grp := { slices := BitVec.allOnes 16, pc := BitVec.ofNat 64 Config.supervisorEntry } }

/-- The cores of the module: 128 on each die (R13, R14). -/
def coreCount : Nat := 256

/-- The gang in a slot, if the slot holds one.  Slot 48 of every core always holds the supervisor gang (R359). -/
def State.gang (s : State) (core slot : Nat) : Option Gang :=
  if s.here.core = core ∧ s.here.slot = slot then (if s.here.ended then none else some s.here)
  else match s.gangs.find (gangKey core slot) with
    | some g => some g
    | none => if slot = 48 ∧ core < coreCount then some (Gang.supervisor core) else none

/-- A gang written back to its slot. -/
def State.setGang (s : State) (g : Gang) : State :=
  if s.here.core = g.core ∧ s.here.slot = g.slot then { s with here := g }
  else { s with gangs := s.gangs.insert (gangKey g.core g.slot) g }

/-- A gang changed by `f`, if the slot holds one. -/
def State.onGang (s : State) (core slot : Nat) (f : Gang → Gang) : State :=
  match s.gang core slot with
  | some g => s.setGang (f g)
  | none => s

/-- The gang on the pipe changed. -/
def State.onHere (s : State) (f : Gang → Gang) : State := { s with here := f s.here }

/-- Every gang present: the one on the pipe and the others listed. -/
def State.allGangs (s : State) : List Gang :=
  (if s.here.ended then [] else [s.here]) ++ s.gangs.vals.filter (fun g => !(g.core == s.here.core && g.slot == s.here.slot))

/-- Whether a gang is the supervisor gang (R359). -/
def Gang.isSupervisor (g : Gang) : Bool := g.slot == 48

/-- The tenant of a gang: that of its block.  The supervisor gang belongs to no block and no tenant: a delta form of it (R191,
R207, R208) takes the tenant of the default block, 0 (DESIGN CHOICE, log entry 81). -/
def State.tenantOf (s : State) (g : Gang) : Nat := (s.block g.block).tenant

/-! ## Translation (R356 to R359) -/

/-- Kinds of access that translation tells apart (R357). -/
inductive AccessKind where
  | load | store | atomic | fetch
  deriving DecidableEq, Repr

/-- Whether a translation allows a kind of access (R357). -/
def Translation.allows (t : Translation) : AccessKind → Bool
  | .load => t.r
  | .store => t.w
  | .atomic => t.r && t.w
  | .fetch => t.x

/-- Whether a range of physical memory meets some tenant's Umbra region (R357). -/
def State.meetsUmbra (s : State) (base size : Nat) : Bool :=
  (List.range 16).any (fun t =>
    let b := field (s.tenantReg t 7) 16 36 * 65536
    let n := field (s.tenantReg t 8) 0 32 * 65536
    decide (n ≠ 0) && decide (base < b + n) && decide (b < base + size))

/-- The walk from one table on; `level` runs from 2 down to 0 as `lo` runs 39, 29, 19 (R357).  Poison in a table gives
UNCORR (R391; log entry 73). -/
def State.walkFrom (s : State) (va table : Nat) : Nat → Except Cause Translation
  | 0 => .error .xlate
  | level + 1 =>
    let lo := 19 + 10 * level
    let e := s.read (table + 8 * field va lo 10) 8
    if (s.home ((table + 8 * field va lo 10) / 64)).poison then .error .uncorr
    else if !bitOf e 0 || field e 5 8 != 0 || field e 52 12 != 0 then .error .xlate
    else
      let base := field e 13 39 * 8192
      if bitOf e 1 then
        if base % 2 ^ lo ≠ 0 ∨ regionOf base = .reserved ∨ s.meetsUmbra base (2 ^ lo) = true then .error .xlate
        else .ok ⟨base, lo, bitOf e 2, bitOf e 3, bitOf e 4⟩
      else if level = 0 ∨ field e 2 3 ≠ 0 ∨ (regionOf base ≠ .hbm ∧ regionOf base ≠ .host) then .error .xlate
      else s.walkFrom va base level

/-- The leaf that a walk of the tenant's tables finds for a virtual address (R357). -/
def State.walk (s : State) (tenant va : Nat) : Except Cause Translation :=
  if va / 2 ^ 49 ≠ 0 then .error .xlate
  else s.walkFrom va (field (s.tenantReg tenant 0) 13 39 * 8192) 3

/-- Whether a walk from one table on meets a line that the host owns, and so waits for it (R247). -/
def State.walkMeetsHost (s : State) (va table : Nat) : Nat → Bool
  | 0 => false
  | level + 1 =>
    let at_ := table + 8 * field va (19 + 10 * level) 10
    let e := s.read at_ 8
    s.hostOwns (at_ / 64) || (bitOf e 0 && !bitOf e 1 && s.walkMeetsHost va (field e 13 39 * 8192) level)

/-- Whether a walk of a tenant's tables waits for the host (R247). -/
def State.walkHeld (s : State) (tenant va : Nat) : Bool :=
  va / 2 ^ 49 == 0 && s.walkMeetsHost va (field (s.tenantReg tenant 0) 13 39 * 8192) 3

/-- The key of a TLB entry: tenant and 512 KiB page (R358). -/
def tlbKey (tenant va : Nat) : Nat := 2 ^ 40 * tenant + va / 2 ^ 19

/-- A translation for later accesses of a core: from its L1 TLB, from its cluster's L2 TLB, or by a walk;
a walk that succeeds fills both (R358).  Every walk that completes is counted (R417). -/
def State.fillTlb (s : State) (core tenant va : Nat) : State :=
  let k := tlbKey tenant va
  match (s.core core).tlb.find k with
  | some _ => s
  | none =>
    let s := s.count core 11 1
    let c := s.core core
    match (s.cluster (core / 4)).tlb.find k with
    | some t => s.setCore core { c with tlb := c.tlb.insert k t }
    | none =>
      let s := s.countDie (core / 128) 14 1
      match s.walk tenant va with
      | .error _ => s
      | .ok t =>
        let cl := s.cluster (core / 4)
        (s.setCore core { c with tlb := c.tlb.insert k t }).setCluster (core / 4) { cl with tlb := cl.tlb.insert k t }

/-- The physical address of a virtual address under the cached translation, or under a walk (R357, R358). -/
def State.translateTenant (s : State) (core tenant va : Nat) (kind : AccessKind) : Except Cause Nat :=
  if va / 2 ^ 49 ≠ 0 then .error .xlate
  else
    match (match (s.core core).tlb.find (tlbKey tenant va) with
      | some t => Except.ok t
      | none => s.walk tenant va) with
    | .error c => .error c
    | .ok t =>
      if !s.mapped (t.base + va % 2 ^ t.bits) then .error .xlate
      else if t.allows kind then .ok (t.base + va % 2 ^ t.bits)
      else .error .perm

/-- The physical address of a supervisor address: physical already, checked against R213 (R359). -/
def State.translatePhysical (s : State) (a : Nat) : Except Cause Nat :=
  if a / 2 ^ 52 ≠ 0 ∨ regionOf a = .reserved ∨ s.mapped a = false then .error .xlate else .ok a

/-- The physical address that a gang's global address names. -/
def State.translate (s : State) (g : Gang) (va : Nat) (kind : AccessKind) : Except Cause Nat :=
  if g.isSupervisor then s.translatePhysical va
  else s.translateTenant g.core (s.tenantOf g) va kind

/-- Whether the translation of an address of a gang waits for a walk that the host holds up (R247). -/
def State.walkWaits (s : State) (g : Gang) (va : Nat) : Bool :=
  !g.isSupervisor && ((s.core g.core).tlb.find (tlbKey (s.tenantOf g) va)).isNone &&
    ((s.cluster (g.core / 4)).tlb.find (tlbKey (s.tenantOf g) va)).isNone && s.walkHeld (s.tenantOf g) va

/-- The physical address that a page gives a virtual address, whatever accesses it allows (R274, R357). -/
def State.reaches (s : State) (g : Gang) (va : Nat) : Option Nat :=
  if g.isSupervisor then (s.translatePhysical va).toOption
  else
    match s.translateTenant g.core (s.tenantOf g) va .load with
    | .ok a => some a
    | .error .perm =>
      (((s.core g.core).tlb.find (tlbKey (s.tenantOf g) va)).orElse (fun _ => (s.walk (s.tenantOf g) va).toOption)).map
        (fun (t : Translation) => t.base + va % 2 ^ t.bits)
    | .error _ => none

/-- The TLB of the gang's core filled for an address, before it is translated. -/
def State.fillFor (s : State) (g : Gang) (va : Nat) : State :=
  if g.isSupervisor then s else s.fillTlb g.core (s.tenantOf g) va

/-! ## Scratchpads (R215, R217, R359) -/

/-- A carve-out: the supervisor scratchpad of a core, or that of a block. -/
inductive Carve where
  | supervisor (core : Nat)
  | block (key : Nat)
  deriving DecidableEq, Repr

/-- The key of a carve-out: its block's, or from 2^32 on the supervisor scratchpad of a core. -/
def Carve.key : Carve → Nat
  | .supervisor core => 2 ^ 32 + core
  | .block key => key

/-- The carve-out of a gang (R359). -/
def Gang.carve (g : Gang) : Carve := if g.isSupervisor then .supervisor g.core else .block g.block

/-- The key of a gang's own carve-out. -/
def Gang.carveKey (g : Gang) : Nat := g.carve.key

/-- The size of a carve-out in bytes. -/
def State.carveSize (s : State) : Carve → Nat
  | .supervisor _ => 16384
  | .block k => (s.block k).scratchSize

/-- A byte of a carve-out. -/
def State.sbyte (s : State) (c : Carve) (off : Nat) : Byte :=
  match c with
  | .supervisor n => Table.get 0 (s.core n).supScratch off
  | .block k => Table.get 0 (s.block k).scratch off

/-- A byte of a carve-out written. -/
def State.setSbyte (s : State) (c : Carve) (off : Nat) (b : Byte) : State :=
  match c with
  | .supervisor n =>
    let k := s.core n
    s.setCore n { k with supScratch := Table.set 0 k.supScratch off b }
  | .block key =>
    let k := s.block key
    s.setBlock key { k with scratch := Table.set 0 k.scratch off b }

/-- `n` bytes of a carve-out as a little-endian number. -/
def State.sread (s : State) (c : Carve) (off : Nat) : Nat → Nat
  | 0 => 0
  | n + 1 => (s.sbyte c off).toNat + 256 * s.sread c (off + 1) n

/-- `n` bytes of a carve-out written from a little-endian number. -/
def State.swrite (s : State) (c : Carve) (off : Nat) : Nat → Nat → State
  | 0, _ => s
  | n + 1, x => (s.setSbyte c off (BitVec.ofNat 8 x)).swrite c (off + 1) n (x / 256)

/-! ## Fetch (R53, R221, R222) -/

/-- What a fetch agent reads for a line as a weak load at device scope, with its poison: the home's bytes, once the host does
not own the line (R247), or for peer memory the copy that an earlier weak read left in the cluster cache (R221, R249).  None
while it must wait. -/
def State.agentLine (s : State) (core line : Nat) : Option (Line × Bool) :=
  if regionOf (64 * line) = .peer then ((s.cluster (core / 4)).copies.find line).map (fun c => (c.data, c.poison))
  else if s.hostOwns line then none
  else some (s.lineBytes line, (s.home line).poison)

/-- The instruction line that a core fetches from: its cached line, else as the fetch agent reads it, with its poison (R221,
R398). -/
def State.fetchLine (s : State) (core line : Nat) : Option (Line × Bool) :=
  match (s.core core).icache.find line with
  | some l => some (l, (s.core core).icachePoison.contains line)
  | none => s.agentLine core line

/-- The instruction word at a physical address; poison gives UNCORR (R399). -/
def State.fetchPhysical (s : State) (core a : Nat) : Except Cause (Option Word) :=
  match s.fetchLine core (a / 64) with
  | none => .ok none
  | some (l, poison) => if poison then .error .uncorr else .ok (some (BitVec.ofNat 32 (lineField l (a % 64) 4)))

/-- The instruction word that the group on a gang's pipe issues next, none while its line or its translation has not come, or
the cause of its fetch fault. -/
def State.fetchFor (s : State) (g : Gang) : Except Cause (Option Word) :=
  if s.walkWaits g g.wordPc.toNat then .ok none
  else match s.translate g g.wordPc.toNat .fetch with
    | .error c => .error c
    | .ok a => s.fetchPhysical g.core a

/-- A fetch agent that finds no copy of a peer line asks its owner for it, once (R249, R383). -/
def State.askFetch (s : State) (core line : Nat) : State :=
  if regionOf (64 * line) = .peer ∧ (s.fetchLine core line).isNone = true ∧
      (s.sent.any (fun r => r.op == 0 && r.kind == 0 && s.peerTarget (64 * line) == some (r.device, r.cxl, r.port, r.addr))) = false then
    s.sendPeer 0 line 0 0 0
  else s

/-- The instruction word that the gang on the pipe issues next. -/
def State.fetch (s : State) : Except Cause (Option Word) := s.fetchFor s.here

end Sys2Proof.Machine
end

