-- ==== Sys2Proof/Machine/Ops.lean ====
section
/-! DEFINITION. Operations that many instructions share: barrier objects (R280 to R282, R329), fault
records, taking a fault and returning from one (R361, R362, R370), and the order in which a word's
fault conditions are reported (R81). -/

namespace Sys2Proof.Machine

/-! ## Clock gating (R318) -/

/-- A core no longer gated. -/
def State.ungate (s : State) (core : Nat) : State :=
  if (s.core core).gated then
    let c := s.core core
    s.setCore core { c with gated := false }
  else s

/-- Whether a group waits in BARWAIT, in CLAIM or at REGANG. -/
def Group.parked (p : Group) : Bool :=
  match p.wait with
  | .regang _ => true
  | .barwait _ _ _ _ => true
  | .grid _ => true
  | .claim _ _ => true
  | _ => false

/-- Whether a gang has slices left and every group of it waits in BARWAIT, in CLAIM or at REGANG. -/
def Gang.allWait (g : Gang) : Bool :=
  g.groups.any (fun p => p.slices != 0) && g.groups.all (fun p => p.slices == 0 || p.parked)

/-- The waits in progress of a gang note that the core's clock is gated (R334). -/
def Gang.noteGated (g : Gang) : Gang :=
  let note := fun (p : Group) => { p with why := p.why ||| 1024 }
  { g with grp := note g.grp, parted := g.parted.map note }

/-- The gangs resident on a core, its supervisor gang included. -/
def State.gangsOn (s : State) (core : Nat) : List Gang :=
  (s.allGangs.filter (fun g => g.core == core && g.slot != 48)) ++ (s.gang core 48).toList

/-- A core gates its issue clock once every resident gang waits, its supervisor gang included (R318). -/
def State.tryGate (s : State) (core : Nat) : State :=
  if !(s.core core).gated && (s.gangsOn core).all Gang.allWait then
    let c := s.core core
    (s.gangsOn core).foldl (fun s g => s.onGang g.core g.slot Gang.noteGated) (s.setCore core { c with gated := true })
  else s

/-- The core that holds a carve-out. -/
def State.carveCore (s : State) : Carve → Nat
  | .supervisor n => n
  | .block k => (s.block k).core

/-- The block whose tiles a core stages from a carve-out: 0 for the supervisor gang. -/
def Carve.blockKey : Carve → Nat
  | .supervisor _ => 0
  | .block k => k

/-- A store lands in bytes of a carve-out, from `lo` up to but not including `hi`: staged tiles that it meets are staged anew before
a later use (R175). -/
def State.touch (s : State) (c : Carve) (lo hi : Nat) : State :=
  let core := s.core (s.carveCore c)
  if core.rowBuffer.isEmpty then s
  else s.setCore (s.carveCore c) { core with rowBuffer := core.rowBuffer.map (fun t =>
    if t.block == c.blockKey && t.spans.any (fun p => decide (p.1 < hi) && decide (lo < p.2)) then { t with stale := true } else t) }

/-! ## Barrier objects -/

/-- A barrier object (R280). -/
structure Barrier where
  phase : Nat
  arriveExpect : Nat
  arrived : Nat
  bytesExpect : Nat
  bytesLanded : Nat
  deriving DecidableEq, Repr

/-- The barrier object that 128 bits hold. -/
def Barrier.ofNat128 (x : Nat) : Barrier := ⟨field x 0 32, field x 32 16, field x 48 16, field x 64 32, field x 96 32⟩

/-- The 128 bits of a barrier object. -/
def Barrier.bits (b : Barrier) : Nat :=
  b.phase % 2 ^ 32 + b.arriveExpect % 2 ^ 16 * 2 ^ 32 + b.arrived % 2 ^ 16 * 2 ^ 48 +
    b.bytesExpect % 2 ^ 32 * 2 ^ 64 + b.bytesLanded % 2 ^ 32 * 2 ^ 96

/-- Whether the completion test holds (R281). -/
def Barrier.full (b : Barrier) : Bool := decide (b.arriveExpect ≤ b.arrived) && decide (b.bytesExpect ≤ b.bytesLanded)

/-- The object after the completion test of R281. -/
def Barrier.test (b : Barrier) : Barrier :=
  if b.full then { b with phase := (b.phase + 1) % 2 ^ 32, arrived := 0, bytesLanded := b.bytesLanded - b.bytesExpect }
  else b

/-- Arrivals counted, saturating (R281). -/
def Barrier.arrive (b : Barrier) (n : Nat) : Barrier := { b with arrived := min 65535 (b.arrived + n) }

/-- Bytes counted, saturating (R281). -/
def Barrier.land (b : Barrier) (n : Nat) : Barrier := { b with bytesLanded := min (2 ^ 32 - 1) (b.bytesLanded + n) }

/-- Whether phase `p` is reached when PHASE holds `phase` (R329). -/
def phaseReached (phase p : Nat) : Bool := decide ((phase + 2 ^ 32 - p % 2 ^ 32) % 2 ^ 32 < 2 ^ 31)

/-- The barrier object at an offset of a carve-out. -/
def State.barrier (s : State) (c : Carve) (off : Nat) : Barrier := .ofNat128 (s.sread c off 16)

/-- The phase timestamp of an object (R245). -/
def State.phaseTs (s : State) (c : Carve) (off : Nat) : Nat :=
  match c with
  | .supervisor n => Table.get 0 (s.core n).phaseTs off
  | .block k => Table.get 0 (s.block k).phaseTs off

/-- The phase timestamp of an object written. -/
def State.setPhaseTs (s : State) (c : Carve) (off t : Nat) : State :=
  match c with
  | .supervisor n => let k := s.core n; s.setCore n { k with phaseTs := Table.set 0 k.phaseTs off t }
  | .block key => let k := s.block key; s.setBlock key { k with phaseTs := Table.set 0 k.phaseTs off t }

/-- The WAKEWHY bits of what completed an object's last phase (log entry 18). -/
def State.reason (s : State) (c : Carve) (off : Nat) : Nat :=
  match c with
  | .supervisor n => Table.get 0 (s.core n).reason off
  | .block k => Table.get 0 (s.block k).reason off

/-- What completed an object's last phase, noted. -/
def State.setReason (s : State) (c : Carve) (off why : Nat) : State :=
  match c with
  | .supervisor n => let k := s.core n; s.setCore n { k with reason := Table.set 0 k.reason off why }
  | .block key => let k := s.block key; s.setBlock key { k with reason := Table.set 0 k.reason off why }

/-- An object written at its banks. -/
def State.setBarrier (s : State) (c : Carve) (off : Nat) (b : Barrier) : State := (s.swrite c off 16 b.bits).touch c off (off + 16)

/-- One update with the completion test of R281; `why` is noted when it completes the phase.  It ungates the core whose
object it is (R318). -/
def State.updateBarrier (s : State) (c : Carve) (off why : Nat) (f : Barrier → Barrier) : State :=
  let b := f (s.barrier c off)
  let s := (s.setBarrier c off b.test).ungate (s.carveCore c)
  if b.full then s.setReason c off why else s

/-- The phase timestamp of an object raised to at least `t` (R245). -/
def State.raisePhaseTs (s : State) (c : Carve) (off t : Nat) : State := s.setPhaseTs c off (max (s.phaseTs c off) t)

/-- `n` arrivals at an object, with the timestamp they carry. -/
def State.arriveAt (s : State) (c : Carve) (off n ts why : Nat) : State :=
  (s.raisePhaseTs c off ts).updateBarrier c off why (fun b => b.arrive n)

/-- The offset of the doorbell in the supervisor scratchpad (R360). -/
def doorbell : Nat := 0x1800

/-- One arrival at the doorbell of a core (R360). -/
def State.ringDoorbell (s : State) (core : Nat) : State := s.arriveAt (.supervisor core) doorbell 1 0 1

/-! ## Fault records and the fault log (R361, R362) -/

/-- The fields of a fault record (R361). -/
structure FaultRecord where
  cause : Cause
  tenant : Nat := 0
  slot : Nat := 63
  slice : Nat := 0
  core : Nat := 0
  kind : Nat := 4
  pc : Word64 := 0
  word : Word := 0
  index : Nat := 0
  addr : Word64 := 0
  lid : Nat := 0
  block : Nat := 0
  code : Nat := 0
  deriving DecidableEq, Repr

/-- The 64 bytes of a fault record (R361). -/
def FaultRecord.bits (r : FaultRecord) : Nat :=
  r.cause.code + r.tenant % 16 * 2 ^ 8 + r.slot % 64 * 2 ^ 16 + r.slice % 16 * 2 ^ 22 + r.core % 256 * 2 ^ 32 +
    r.kind % 256 * 2 ^ 40 + r.pc.toNat * 2 ^ 64 + r.word.toNat * 2 ^ 128 + r.index % 32 * 2 ^ 160 +
    r.addr.toNat * 2 ^ 192 + r.lid % 2 ^ 32 * 2 ^ 256 + r.block % 2 ^ 32 * 2 ^ 288 + r.code % 2 ^ 16 * 2 ^ 320

/-- The PENDING bit of a mailbox entry, at byte 0x38 (R360). -/
def pendingAt (slot : Nat) : Nat := 128 * slot + 0x38

/-- Whether the mailbox entry of a slot is pending (R360). -/
def State.isPending (s : State) (core slot : Nat) : Bool := bitOf (s.sbyte (.supervisor core) (pendingAt slot)).toNat 0

/-- A record written to the mailbox entry of a slot with PENDING set, and one doorbell arrival (R362 step 2).  An entry that is
pending already has been so since it was set (R400 step 9, R408). -/
def State.postMailbox (s : State) (core slot : Nat) (r : FaultRecord) : State :=
  let since := if s.isPending core slot then ((s.core core).pendingSince.find slot).getD s.mgmt.time else s.mgmt.time
  let s := (s.swrite (.supervisor core) (128 * slot) 64 (r.bits + 2 ^ (8 * 0x38))).ringDoorbell core
  let c := s.core core
  s.setCore core { c with pendingSince := c.pendingSince.insert slot since }

/-- The line of a tenant's fault log that takes its next record; none while the log is full, or where the tenant has none (R362
step 3). -/
def State.logLine (s : State) (tenant : Nat) : Option Nat :=
  let base := s.tenantReg tenant 0xC
  let ptr := s.tenantReg tenant 0xD
  let wr := field ptr 0 24
  let n := if field base 0 4 = 0 then 2 ^ 16 else 2 ^ field base 0 4
  if base = 0 ∨ (wr + 2 ^ 24 - field ptr 24 24) % 2 ^ 24 = n then none else some (field base 12 40 * 64 + wr % n)

/-- A record appended to a tenant's fault log with a carried time, and WR raised; or counted as dropped (R362 step 3). -/
def State.appendLog (s : State) (tenant t : Nat) (record : BitVec 512) : State :=
  let ptr := s.tenantReg tenant 0xD
  match s.logLine tenant with
  | none => s.setPriv (tenantIndex tenant 0xD) (BitVec.ofNat 64 (ptr % 2 ^ 48 + min 65535 (field ptr 48 16 + 1) * 2 ^ 48))
  | some line => (s.putBits line t (BitVec.allOnes 512) record).setPriv (tenantIndex tenant 0xD)
      (BitVec.ofNat 64 (ptr / 2 ^ 24 * 2 ^ 24 + (field ptr 0 24 + 1) % 2 ^ 24))

/-- Whether what a release at system scope waits for is done: the loads and atomics of its gang from before `since`, its stores
and peer stores from before, and then the entries that stand before its marker in the core's FIFO, and the acknowledgements of
dirty bytes read (R230, R234, R249, R362). -/
def State.recordReady (s : State) (gang : Nat) (marker : Nat) : Bool :=
  !s.ops.any (fun o => gangKey o.core o.slot == gang && decide (o.id < marker)) &&
    (s.core (gang / 64)).fifo.all (fun e => decide (marker ≤ e.id)) &&
    !((List.range 4).any (fun i => (s.core (4 * (gang / 256) + i)).fifo.any (fun e => e.readers.contains gang)))

/-- One write of the device that may be made now; the others stay (R247, R362). -/
def State.workReady (s : State) : DeviceWork → Bool
  | .put line _ _ _ => !s.hostOwns line
  | .add line _ _ _ => !s.hostOwns line
  | .log tenant _ gang marker _ =>
    ((gang.map (fun k => s.recordReady k marker)).getD true) && !((s.logLine tenant).map s.hostOwns).getD false

/-- A write of the device made. -/
def State.doWork (s : State) : DeviceWork → State
  | .put line t mask value => s.putBits line t mask value
  | .add line t off n => s.addAt line t off n
  | .log tenant record gang _ pts =>
    s.appendLog tenant ((gang.map (fun k => max pts (((s.gang (k / 64) (k % 64)).map Gang.ptsNow).getD 0) + 1)).getD pts) record

/-- The writes of the device that wait, each made once it can be: those to one line in their order. -/
def State.flushWork (s : State) : State :=
  s.work.foldl (fun s w =>
    if s.workReady w && !s.work.any (fun v => v.line.isSome && v.line == w.line) then s.doWork w
    else { s with work := s.work ++ [w] }) { s with work := [] }

/-- A fault record of a gang of a core, or of the device where there is none, goes to the tenant's fault log with a release at system scope: the
core's FIFO takes a marker, and the record is appended once the release is made (R230, R362 step 3). -/
def State.logFault (s : State) (tenant : Nat) (r : FaultRecord) (gang : Option Gang := none) : State :=
  let record := BitVec.ofNat 512 r.bits
  match gang with
  | none => { s with work := s.work ++ [DeviceWork.log tenant record none 0 0] }.flushWork
  | some g =>
    let c := s.core g.core
    let s := if c.fifo.isEmpty then s else s.setCore g.core { c with fifo := c.fifo.map (fun e => { e with closed := true }) }
    { s with work := s.work ++ [DeviceWork.log tenant record (some (gangKey g.core g.slot)) s.nextId g.ptsNow], nextId := s.nextId + 1 }.flushWork

/-! ## Taking a fault -/

/-- A fault about to be taken by the gang on the pipe. -/
structure FaultReq where
  cause : Cause
  /-- 0 precise, 1 deferred, 2 SVC, 3 TRAP -/
  kind : Nat := 0
  pc : Word64 := 0
  word : Word := 0
  index : Nat := 0
  addr : Word64 := 0
  code : Nat := 0
  /-- Sd of an SVC -/
  dest : Nat := 0
  /-- the lowest slice of the group that issued the operation at fault; the group on the pipe, where none is named (R361) -/
  slice : Option Nat := none
  deriving DecidableEq, Repr

/-- The fault record of a gang's fault (R361): INDEX is 0 where WORD is. -/
def State.recordFor (s : State) (g : Gang) (f : FaultReq) : FaultRecord :=
  let b := s.block g.block
  { cause := f.cause, tenant := b.tenant, slot := g.slot, slice := f.slice.getD (g.members.headD 0), core := g.core, kind := f.kind
    pc := f.pc, word := f.word, index := if f.word = 0 then 0 else f.index, addr := f.addr, lid := (s.launch b.launch).lid, block := b.linear
    code := f.code }

/-- Taking a fault, an SVC or a TRAP (R362): the gang stops; its record goes to the mailbox entry of its
slot with PENDING set and a doorbell arrival, and, unless it is an SVC, to the tenant's fault log.  The
supervisor gang only stops: the management controller restarts it (R359, R407).  A group that meets a fault in
its run while the gang is already stopped stays at the word, and meets it again after the ERET (R400 step 9). -/
def State.takeFault (s : State) (f : FaultReq) : State :=
  let g := s.here
  if g.stop ≠ .none then s.onHere (fun g => g.waitFor .held)
  else
  let s := s.onHere (fun g => { g with stop := .fault f.kind f.cause g.grp.slices f.dest, grp := g.grp.fresh })
  if g.isSupervisor then s
  else
    let r := s.recordFor g f
    let s := s.postMailbox g.core g.slot r
    if f.kind = 2 then s else s.logFault r.tenant r (some g)

/-- The word at the issuing group's position, zero where it cannot be fetched. -/
def State.wordHere (s : State) : Word :=
  match s.fetch with
  | .ok (some w) => w
  | _ => 0

/-- A precise fault at the word about to issue (R66, R362). -/
def State.precise (s : State) (c : Cause) (addr : Nat := 0) (code : Nat := 0) : State :=
  s.takeFault { cause := c, pc := s.here.wordPc, word := s.wordHere, index := s.here.wordIndex
                addr := BitVec.ofNat 64 addr, code := code }

/-! ## The fault conditions of a word (R81) -/

/-- What a word needs before it takes effect. -/
structure Demand where
  /-- a run-ending form (R62) -/
  ends : Bool := false
  /-- an ILLEGAL condition that depends on state -/
  illegal : Bool := false
  /-- its flag code (R58) -/
  flag : BitVec 4 := 15
  /-- only the supervisor gang may issue it -/
  supervisor : Bool := false
  /-- V and T registers read -/
  reads : List Nat := []
  /-- V and T registers written -/
  writes : List Nat := []
  /-- a uniform operand differs across the participating slices (R38) -/
  differs : Bool := false

/-- The demand of a form whose register operands are uniform (R38). -/
def Gang.uniformDemand (g : Gang) (l : List (BitVec 6)) : Demand := { differs := l.any (fun r => !g.isUniform r.toNat) }

/-- The demand of a gang-wide form that orders memory: its registers and MODE.SCOPE are uniform (R38, R320). -/
def Gang.orderedDemand (g : Gang) (l : List (BitVec 6)) : Demand :=
  { differs := l.any (fun r => !g.isUniform r.toNat) || !g.uniformMode modeScope }

/-- The first fault condition that a word meets, in the order of R81. -/
def State.firstFault (s : State) (d : Demand) : Option Cause :=
  let g := s.here
  if d.ends && !g.lastWord then some .runform
  else if d.illegal then some .illegal
  else if badFlag d.flag then some .flagcode
  else if d.supervisor && !g.isSupervisor then some .priv
  else if d.reads.any g.unwrittenT then some .runtemp
  else if (d.reads ++ d.writes).any g.aboveClaim then some .claim
  else if d.differs then some .uniform
  else none

/-- A word issues: its first fault is taken, or else it takes effect. -/
def State.issue (s : State) (d : Demand) (effect : State → State) : Host.Outcome State Fault Refusal :=
  match s.firstFault d with
  | some c => .next (s.precise c)
  | none => .next (effect s)

/-- The word is done: T destinations are marked and the group moves on. -/
def State.done (s : State) (writes : List Nat := []) : State := s.onHere (fun g => (g.markT writes).advance)

/-- A class S word that acts on the gang alone. -/
def State.issueGang (s : State) (d : Demand) (f : Gang → Gang) : Host.Outcome State Fault Refusal :=
  s.issue d (fun s => (s.onHere f).done d.writes)

end Sys2Proof.Machine
end

