-- ==== Sys2Proof/Machine/Access.lean ====
section
/-! DEFINITION. Memory operations in progress: copies and leases, the dirty-line FIFO, loads, stores and
atomics from issue to completion (R227 to R238, R251, R255, R259, R260, R265, R266). -/

namespace Sys2Proof.Machine

/-! ## Lists of operations -/

/-- The key of a gang. -/
def Gang.key (g : Gang) : Nat := gangKey g.core g.slot

/-- The key of the gang that issued an operation. -/
def MemOp.gang (o : MemOp) : Nat := gangKey o.core o.slot

/-- The operation with an identifier. -/
def State.opAt (s : State) (id : Nat) : Option MemOp := s.ops.find? (fun o => o.id == id)

/-- An operation replaced. -/
def State.setOp (s : State) (o : MemOp) : State := { s with ops := s.ops.map (fun p => if p.id = o.id then o else p) }

/-- An operation added, with a new identifier. -/
def State.addOp (s : State) (o : MemOp) : State :=
  { s with ops := s.ops ++ [{ o with id := s.nextId }], nextId := s.nextId + 1 }

/-- An operation removed. -/
def State.dropOp (s : State) (id : Nat) : State := { s with ops := s.ops.filter (fun o => o.id != id) }

/-- The lines that an operation touches, each once. -/
def MemOp.lines (o : MemOp) : List Nat := (o.lanes.map (fun a => a.addr / 64)).eraseDups

/-- Whether later accesses of the gang wait for an operation: an acquire (R232, R235, R237). -/
def MemOp.holds (o : MemOp) : Bool :=
  match o.kind with
  | .load .acquire _ _ => true
  | .atomic _ acq _ _ _ => acq
  | _ => false

/-- Whether a group of a gang is at a fence that began before `m`: the gang's later accesses wait for it (R236). -/
def State.fenced (s : State) (key m : Nat) : Bool :=
  match s.gang (key / 64) (key % 64) with
  | none => false
  | some g => (g.grp :: g.parted).any (fun p => p.fence && decide (p.since.getD m < m))

/-- Whether the gang's accesses from `m` on wait for an earlier acquire or fence of the gang (R232, R235, R236). -/
def State.heldFrom (s : State) (key m : Nat) : Bool :=
  s.ops.any (fun p => p.gang == key && decide (p.id < m) && p.holds) || s.fenced key m

/-- Whether an operation waits for an earlier acquire or fence of its gang. -/
def State.held (s : State) (o : MemOp) : Bool := s.heldFrom o.gang o.id

/-- Whether the accesses of the word on the pipe wait for an earlier acquire, or for a fence of another group of the gang. -/
def State.wordHeld (s : State) : Bool :=
  s.ops.any (fun p => p.gang == s.here.key && p.holds) || s.here.parted.any (fun p => p.fence)

/-- The time with which a gang's load of a class at a scope asks for a line: ATS, or PTS for an acquire at device or system
scope (R231, R232, R235). -/
def Gang.askTime (g : Gang) (cls : LoadClass) (scope : Nat) : Nat := if cls = .acquire ∧ 3 ≤ scope then g.ptsNow else g.atsNow

/-- The incomplete loads and atomics of a gang. -/
def State.pendingReads (s : State) (key : Nat) : List MemOp :=
  s.ops.filter (fun o => o.gang == key && (match o.kind with
    | .store _ _ => false
    | _ => true))

/-- The stores of a gang whose bytes are not in the L1 yet. -/
def State.unperformed (s : State) (key : Nat) : List MemOp :=
  s.ops.filter (fun o => o.gang == key && !o.performed && (match o.kind with
    | .store _ _ => true
    | _ => false))

/-- Whether an operation has done its access to a line, as the gang's later accesses to the line wait for it: an atomic is
acknowledged (R266), a store written, or at a peer line performed by the owning device (R249), a load of a class that keeps
read-read coherence served (R238). -/
def MemOp.pastLine (p : MemOp) (line : Nat) : Bool :=
  match p.kind with
  | .atomic .. => p.acked.contains line
  | .store .. => p.performed && (regionOf (64 * line) != .peer || p.acked.contains line)
  | .load cls _ _ => cls == .weak || (p.served.find line).isSome
  | _ => true

/-- Whether an earlier access of the gang must come first: one to the same line (R238, R266), or that of a lower slice of
the same scalar word (R267, R268). -/
def State.lineWaits (s : State) (o : MemOp) (line : Nat) : Bool :=
  s.ops.any (fun p => p.gang == o.gang && decide (p.id < o.id) &&
    ((p.lines.contains line && !p.pastLine line) ||
      (p.batch != 0 && p.batch == o.batch && p.lines.any (fun l => !p.pastLine l))))

/-! ## The dirty-line FIFO (R229, R234, R235) -/

/-- The FIFO entries of the four cores of a core's cluster, with their core. -/
def State.clusterItems (s : State) (core : Nat) : List (Nat × FifoItem) :=
  (List.range 4).flatMap (fun i => (s.core (4 * (core / 4) + i)).fifo.map (fun it => (4 * (core / 4) + i, it)))

/-- Whether a gang has loaded dirty bytes whose acknowledgement is outstanding (R234). -/
def State.awaitsAck (s : State) (key : Nat) : Bool := (s.clusterItems (key / 64)).any (fun e => e.2.readers.contains key)

/-- A store's bytes merged into the youngest entry of its line, where that stands after the youngest marker and has not
left the core; nothing where there is none (R229, R238).  A weak store's bytes go to the home without changing what the L1
shows (R233). -/
def mergeStore (it : FifoItem) : List FifoItem → Option (List FifoItem)
  | [] => none
  | e :: rest =>
    if rest.any (fun x => x.line == it.line) then (mergeStore it rest).map (e :: ·)
    else if e.line == it.line && !e.closed && e.reach == 0 && !e.direct && !it.direct then
      some ({ e with mask := e.mask ||| it.mask, shown := e.shown ||| it.shown, data := mergeLine e.data it.data it.mask
                     view := mergeLine e.view it.view it.shown, unfilled := e.unfilled.orElse (fun _ => it.unfilled)
                     pts := max e.pts it.pts, ops := (e.ops ++ it.ops).eraseDups, engines := (e.engines ++ it.engines).eraseDups
                     gangs := (e.gangs ++ it.gangs).eraseDups, launches := (e.launches ++ it.launches).eraseDups
                     writers := (e.writers ++ it.writers).eraseDups, bad := e.bad || it.bad } :: rest)
    else none

/-- A store's bytes of one line enter the FIFO of a core: into the youngest entry of the line or as a new entry (R229). -/
def State.pushStore (s : State) (core : Nat) (it : FifoItem) : State :=
  let c := s.core core
  match mergeStore it c.fifo with
  | some l => s.setCore core { c with fifo := l }
  | none => { s.setCore core { c with fifo := c.fifo ++ [{ it with id := s.nextId }] } with nextId := s.nextId + 1 }

/-- A marker: no later store merges into an entry that stands before it (R229, R230). -/
def State.placeMarker (s : State) (core : Nat) : State :=
  let c := s.core core
  s.setCore core { c with fifo := c.fifo.map (fun e => { e with closed := true }) }

/-- The bytes and byte mask that lanes store to one line; of lanes that write one byte the highest leaves
its value (R255). -/
def laneBytes (lanes : List LaneAcc) (line : Nat) : LaneMask × Line :=
  (lanes.filter (fun a => a.addr / 64 == line)).foldl (fun (acc : LaneMask × Line) a =>
    let off := a.addr % 64
    let mask : LaneMask := BitVec.ofNat 64 ((2 ^ a.size - 1) * 2 ^ off)
    (acc.1 ||| mask, mergeLine acc.2 (BitVec.ofNat 512 (a.data % 2 ^ (8 * a.size) * 2 ^ (8 * off))) mask)) (0, 0)

/-- Bytes of a line overlaid by the bytes that FIFO entries show, oldest first. -/
def overlay (l : Line) (items : List FifoItem) : Line := items.foldl (fun acc e => mergeLine acc e.view e.shown) l

/-- Whether a line is dirty in a core's L1 and not yet acknowledged (R234). -/
def State.dirtyHere (s : State) (core line : Nat) : Bool := (s.core core).fifo.any (fun e => e.line == line && e.shown != 0)

/-- An entry put in its place among others, by the order in which they passed the cluster cache. -/
def insertPassed (e : FifoItem) : List FifoItem → List FifoItem
  | [] => [e]
  | x :: rest => if e.passed < x.passed then e :: x :: rest else x :: insertPassed e rest

/-- Whether dirty bytes may lie over a copy with `wts`: not once their home has timestamped them no later than the copy
(R238). -/
def FifoItem.overlays (e : FifoItem) (wts : Nat) : Bool := decide (e.reach < 2) || decide (wts < e.wts)

/-- The dirty bytes of a line that a core's gangs see over a copy with `wts`: those of its own unacknowledged stores that
wrote the L1 (R234), but for those older than the copy (R238, R266). -/
def State.dirtyItems (s : State) (core line wts : Nat) : List FifoItem :=
  (s.core core).fifo.filter (fun e => e.line == line && e.shown != 0 && e.overlays wts)

/-- The dirty bytes of a line that other cores of the cluster have drained and the cluster cache holds on their way home, in
the order in which they passed it, over a copy with `wts` (R235).  A release store's own line goes to its home directly. -/
def State.passingItems (s : State) (core line wts : Nat) : List FifoItem :=
  (((s.clusterItems core).filter (fun e => e.1 != core && e.2.line == line && e.2.shown != 0 && !e.2.direct &&
    decide (1 ≤ e.2.reach) && e.2.overlays wts)).map Prod.snd).foldr insertPassed []

/-- A line as a core's gangs see it over a copy: the bytes on their way home from the cluster's other cores, and over them
the core's own dirty bytes (R234, R235). -/
def State.seenLine (s : State) (core line wts : Nat) (l : Line) : Line :=
  overlay (overlay l (s.passingItems core line wts)) (s.dirtyItems core line wts)

/-- Whether dirty bytes seen in a line have an uncorrectable error, or are poison (R391, R397, R398). -/
def State.seenPoison (s : State) (core line wts : Nat) : Bool :=
  (s.passingItems core line wts ++ s.dirtyItems core line wts).any (fun e => e.bad || e.poison)

/-- A gang has loaded dirty bytes: the entries that it saw note it, so that its PTS takes their wts when they are
acknowledged (R234). -/
def State.noteReader (s : State) (core line wts key : Nat) : State :=
  let seen := s.passingItems core line wts ++ s.dirtyItems core line wts
  [0, 1, 2, 3].foldl (fun s i =>
    let n := 4 * (core / 4) + i
    match s.cores.find n with
    | none => s
    | some c => s.setCore n { c with fifo := c.fifo.map (fun e =>
        if seen.any (fun x => x.id == e.id) then
          { e with readers := (e.readers ++ [key]).eraseDups } else e) }) s

/-! ## Copies (R231, R233, R235) -/

/-- The later of two copies of a line. -/
def newer (a b : Copy) : Copy := if a.wts < b.wts then b else a

/-- A copy installed at a core's L1: it replaces any copy there with a lower wts (R231). -/
def State.installL1 (s : State) (core line : Nat) (c : Copy) : State :=
  let k := s.core core
  match k.l1.find line with
  | some old => if old.wts ≤ c.wts then s.setCore core { k with l1 := k.l1.insert line c } else s
  | none => s.setCore core { k with l1 := k.l1.insert line c }

/-- A copy installed at a cluster cache. -/
def State.installCluster (s : State) (core line : Nat) (c : Copy) : State :=
  let k := s.cluster (core / 4)
  match k.copies.find line with
  | some old => if old.wts ≤ c.wts then s.setCluster (core / 4) { k with copies := k.copies.insert line c } else s
  | none => s.setCluster (core / 4) { k with copies := k.copies.insert line c }

/-- Every clean copy of a core's L1 dropped (R235, R236). -/
def State.dropL1 (s : State) (core : Nat) : State :=
  let k := s.core core
  s.setCore core { k with l1 := [] }

/-- A fill's line data as a copy. -/
def LineData.copy (d : LineData) : Copy := ⟨d.wts, d.rts, d.data, d.tag, d.poison⟩

/-- The copy that a load of a class may use, and whether it comes from beyond the L1: the nearest level that
holds one whose lease reaches `t` and whose wts is at least `floor` (R266), or the line that its home has sent
(R231, R233). -/
def State.usable (s : State) (core line : Nat) (weak skipL1 : Bool) (t floor : Nat) (fill : Option LineData) :
    Option (Copy × Bool) :=
  let fits := fun (c : Copy) => weak || (decide (t ≤ c.rts) && decide (floor ≤ c.wts))
  match (if skipL1 then none else ((s.core core).l1.find line).filter fits) with
  | some c => some (c, false)
  | none =>
    match ((s.cluster (core / 4)).copies.find line).filter fits with
    | some c => some (c, true)
    | none =>
      match fill with
      | none => none
      | some d =>
        if weak = false ∧ d.wts < floor then none
        else match (s.cluster (core / 4)).copies.find line with
          | some c => some (newer d.copy c, true)
          | none => some (d.copy, true)

/-- The wts of the copy that the nearest level of a core holds, of which a request is a renewal where it is the home's
(R231, R239). -/
def State.ownWts (s : State) (core line : Nat) : Option Nat :=
  (((s.cluster (core / 4)).copies.find line).orElse (fun _ => (s.core core).l1.find line)).map Copy.wts

/-- A copy of a line brought to a core for a relaxed load with required time `t` by a gang with floors: one that the core's
levels hold, or a grant of the home, installed at every level that it passes (R231). -/
def State.fetchCopy (s : State) (core line t : Nat) (floors : Table Nat) : Copy × State :=
  match s.usable core line false false t (Table.get 0 floors line) none with
  | some (c, beyond) => (c, if beyond then (s.count core 10 1).installL1 core line c else s)
  | none =>
    let s := (s.grant line t (s.ownWts core line)).count core 10 1
    let c := (s.homeCopy line).copy
    (c, (s.installCluster core line c).installL1 core line c)

/-- A line read at once as a relaxed load with required time `t` by a gang with floors: engines, records and
cards (R179, R244, R246, R289).  The answer is the line's data with the state in which its copies are
installed.  Who calls it waits first while the host owns the line (R247). -/
def State.loadLine (s : State) (core line t : Nat) (floors : Table Nat) : LineData × State :=
  let (c, s) := s.fetchCopy core line t floors
  (⟨c.wts, c.rts, s.seenLine core line c.wts c.data, c.tag, c.poison || s.seenPoison core line c.wts⟩, s)

/-- What a read of several bytes gives: the little-endian number, whether poison was read, the largest wts. -/
structure ReadResult where
  value : Nat
  poison : Bool
  wts : Nat
  deriving DecidableEq, Repr

/-- `n` bytes at a physical address read at once as relaxed loads, line by line. -/
def State.loadBytes (s : State) (core t : Nat) (floors : Table Nat) (addr : Nat) : Nat → ReadResult × State
  | 0 => (⟨0, false, 0⟩, s)
  | n + 1 =>
    let (d, s) := s.loadLine core (addr / 64) t floors
    let (r, s) := s.loadBytes core t floors (addr + 1) n
    (⟨lineField d.data (addr % 64) 1 + 256 * r.value, d.poison || r.poison, max d.wts r.wts⟩, s)

/-- What a gang has loaded of a line: its PTS rises to the copy's wts, its later loads of the line use only copies as new
(R231, R238), and the entries whose dirty bytes it saw note it (R234). -/
def State.observe (s : State) (core slot line wts : Nat) : State :=
  (s.noteReader core line wts (gangKey core slot)).onGang core slot (fun g => (g.raisePts wts).raiseFloor line wts)

/-- Lines brought to a core for a relaxed load by a gang, each once, with what each is served as: data with the dirty bytes
seen, tag and poison (R231, R234). -/
def State.observeLines (s : State) (g : Gang) (t : Nat) (lines : List Nat) : Table LineData × State :=
  lines.foldl (fun (acc : Table LineData × State) line =>
    let (d, s) := acc.2.loadLine g.core line t g.floors
    (acc.1.insert line d, s.observe g.core g.slot line d.wts)) ([], s)

/-- Whether a store leaves bytes of its line to be filled at once: not where it writes all of them, or where the host owns
the line, so that the fill waits for the recall as a load does (R229, R247). -/
def State.fillsNow (s : State) (line : Nat) (mask : LaneMask) : Bool := mask != BitVec.allOnes 64 && !s.hostOwns line

/-- The bytes of a line that a store does not write filled, as a relaxed load of the gang fills them: from a copy whose
lease reaches ATS, or by a grant (R229).  Where the host owns the line its entry waits for them (`FifoItem.unfilled`). -/
def State.fillStored (s : State) (core slot line : Nat) (mask : LaneMask) : State :=
  if s.fillsNow line mask then
    let g := s.gang core slot
    (s.fetchCopy core line ((g.map Gang.atsNow).getD 0) ((g.map Gang.floors).getD [])).2
  else s

/-- What a store that cannot fill its line yet leaves in its entry. -/
def State.fillLater (s : State) (core slot line : Nat) (mask : LaneMask) : Option (Nat × Nat) :=
  if mask != BitVec.allOnes 64 && s.hostOwns line then
    some (gangKey core slot, ((s.gang core slot).map Gang.atsNow).getD 0)
  else none

/-- Whether a release store goes to its home by itself, past its marker: at device and system scope (R230, R235). -/
def sendsDirect (release : Bool) (scope : Nat) : Bool := release && decide (3 ≤ scope)

/-- A store's bytes are written into the core's L1 and enter the FIFO, and the other bytes of their lines are filled (R229);
a weak store's bytes do not show in the L1 (R233).  A release store places its marker first; at device and system scope its
lines stand apart, to be sent by themselves (R230), and at narrower scopes they follow the others (R235). -/
def State.performStore (s : State) (o : MemOp) : State :=
  match o.kind with
  | .store release weak =>
    let pts := ((s.gang o.core o.slot).map Gang.ptsNow).getD 0
    let launch := ((s.gang o.core o.slot).map (fun g => (s.block g.block).launch)).getD 0
    let s := if release then s.placeMarker o.core else s
    o.lines.foldl (fun s line =>
      if regionOf (64 * line) = .peer then s
      else
        let (mask, data) := laneBytes o.lanes line
        let s := if weak then s else s.fillStored o.core o.slot line mask
        s.pushStore o.core
          { id := 0, line := line, mask := mask, shown := if weak then 0 else mask, view := if weak then 0 else data, data := data
            unfilled := if weak then none else s.fillLater o.core o.slot line mask, pts := pts, gangs := [o.gang]
            direct := sendsDirect release o.scope, launches := [launch], ops := if release || weak then [o.id] else [] }) s
  | _ => s

/-! ## Completion -/

/-- The group that waits for a batch of operations moves on. -/
def Gang.finishOp (g : Gang) (id : Nat) : Gang :=
  if g.grp.wait = .op id then g.advance
  else
    { g with parted := g.parted.map (fun p =>
        if p.wait = .op id then ({ g with grp := p }).advance.grp else p) }

/-- An operation is complete: it leaves the list, its flag falls, and a group that waits for its batch moves on
once none of the batch is left (R68, R267). -/
def State.completeOp (s : State) (o : MemOp) : State :=
  let s := s.dropOp o.id
  let ended := o.batch != 0 && !s.ops.any (fun p => p.gang == o.gang && p.batch == o.batch)
  s.onGang o.core o.slot (fun g => let g := g.lowerFlag o.flag; if ended then g.finishOp o.batch else g)

/-- Whether earlier accesses of the gang hold an operation's write back: an acquire or a fence, an unperformed store to
one of its lines, a lower slice of its scalar word (R267), and, for a release, every earlier load, atomic and unperformed
store and every dirty byte read whose wts is not applied (R230, R232, R234, R238). -/
def State.writeWaits (s : State) (o : MemOp) (release : Bool) : Bool :=
  s.held o ||
    (s.unperformed o.gang).any (fun p => decide (p.id < o.id) && (release || (p.batch != 0 && p.batch == o.batch) ||
      p.lines.any (fun l => o.lines.contains l))) ||
    (release && ((s.pendingReads o.gang).any (fun p => decide (p.id < o.id)) || s.awaitsAck o.gang))

/-- A fire-and-forget store is taken by the transport; those of handler blocks are counted nowhere (R389, R390). -/
def State.sendFf (s : State) (o : MemOp) (line : Nat) : State :=
  let (mask, data) := laneBytes o.lanes line
  let s := s.sendPeer s.nextId line 1 mask data
  let launch := ((s.gang o.core o.slot).map (fun g => (s.block g.block).launch)).getD 0
  { s with ff := s.ff ++ [⟨s.nextId, if launch = 0 then none else some launch⟩], nextId := s.nextId + 1 }

/-- What a gang's writes that need wait no longer do, oldest first: a store is performed, and a relaxed one is
then complete (R260); a release atomic places its marker (R230, R237). -/
def State.settle (s : State) (key : Nat) : State :=
  (s.ops.filter (fun o => o.gang == key)).foldl (fun s o =>
    match o.kind with
    | .store release weak =>
      if o.performed || s.writeWaits o release then s
      else
        let sent := if release || weak then [] else o.lines.filter (fun l => regionOf (64 * l) == .peer && s.ffLine l)
        let m := if release then some s.nextId else none
        let s := if release then { s with nextId := s.nextId + 1 } else s
        let s := sent.foldl (fun s l => s.sendFf o l) (s.performStore o)
        let s := s.setOp { o with performed := true, acked := sent, marker := m }
        if release || weak || o.lines.any (fun l => regionOf (64 * l) == .peer && !sent.contains l) then s else s.completeOp o
    | .atomic _ _ rel _ _ =>
      if !rel || o.marker.isSome || s.writeWaits o true then s
      else
        let s := s.placeMarker o.core
        { s.setOp { o with marker := some s.nextId } with nextId := s.nextId + 1 }
    | _ => s) s

/-- A new operation of the gang on the pipe: it counts into its flag. -/
def State.startOp (s : State) (o : MemOp) : State :=
  (s.onHere (fun g => g.raiseFlag o.flag)).addOp o

/-! ## Waiting conditions of releases and fences (R230, R235, R236) -/

/-- Whether every load and atomic of a gang issued before `m` is performed. -/
def State.readsDone (s : State) (key m : Nat) : Bool := (s.pendingReads key).all (fun o => decide (m ≤ o.id))

/-- Whether every store of a gang issued before `m` is written in the L1, or handed to the peer's transport. -/
def State.writesDone (s : State) (key m : Nat) : Bool := (s.unperformed key).all (fun o => decide (m ≤ o.id))

/-- Whether the FIFO entries that `p` names, with an identifier below `m`, have reached the point of a scope:
the cluster cache, or their acknowledgement (R235, R236). -/
def State.entriesAt (s : State) (core scope m : Nat) (p : FifoItem → Bool) : Bool :=
  (s.core core).fifo.all (fun e => !(decide (e.id < m) && p e) || decide (scope ≤ 1) || (decide (scope = 2) && decide (1 ≤ e.reach)))

/-- Whether every peer store of a gang issued before the marker `m` is acknowledged (R249), but for that of the release
store whose marker it is. -/
def State.peerStoresDone (s : State) (key m : Nat) : Bool :=
  !s.ops.any (fun o => o.gang == key && decide (o.id < m) && o.marker != some m && o.lanes.any (fun a => regionOf a.addr == .peer) &&
    (match o.kind with
      | .store _ _ => true
      | _ => false))

/-- Whether everything that a release at a scope waits for behind its marker `m` is done: the entries ahead of it
are acknowledged, or past the cluster cache, and pending wts are applied (R230 step 3, R234, R235, R249). -/
def State.aheadDone (s : State) (key scope m : Nat) : Bool :=
  s.entriesAt (key / 64) scope m (fun e => !e.direct || e.gangs.contains key) && !s.awaitsAck key &&
    (decide (scope < 4) || s.peerStoresDone key m)

/-- The word on the pipe notes where it stands among the gang's operations, the first time that it is tried. -/
def State.noteSince (s : State) (fence : Bool) : State :=
  match s.here.grp.since with
  | some _ => s
  | none => { s.onHere (fun g => { g with grp := { g.grp with since := some s.nextId, fence := fence } }) with nextId := s.nextId + 1 }

/-- The marker of the word on the pipe: placed once the gang's earlier loads and atomics are performed and its
stores written (R230 steps 1 and 2).  A release's marker closes the entries ahead of it; a fence holds back later accesses
instead (R236). -/
def State.mark (s : State) (fence : Bool) : State × Option Nat :=
  match s.here.grp.marker with
  | some m => (s, some m)
  | none =>
    let s := s.noteSince fence
    let since := s.here.grp.since.getD s.nextId
    if s.readsDone s.here.key since && s.writesDone s.here.key since then
      let s := if fence then s else s.placeMarker s.here.core
      ({ s.onHere (fun g => { g with grp := { g.grp with marker := some s.nextId } }) with nextId := s.nextId + 1 }, some s.nextId)
    else (s, none)

/-- A class B word that cannot complete yet stalls and is tried again (R65, R67). -/
def State.stall (s : State) : State := s.onHere (fun g => g.waitFor .stalled)

/-- What another device has answered to the word on the pipe for a line (R249). -/
def State.wordAnswer (s : State) (line : Nat) : Option PeerData :=
  s.peerData.find? (fun d => s.here.grp.since == some d.op && d.line == line)

/-- The word on the pipe asks another device for a line, once, and waits for the answer (R249, R383): `kind` 0 for a load, 2 for an
atomic step. -/
def State.askPeer (s : State) (line kind : Nat) : State :=
  let s := s.noteSince false
  let id := s.here.grp.since.getD 0
  (if s.sent.any (fun r => r.op == id && s.peerTarget (64 * line) == some (r.device, r.cxl, r.port, r.addr)) then s
   else s.sendPeer id line kind 0 0).stall

/-- The answers of other devices to the word on the pipe, which is done, are no longer kept. -/
def State.forgetAnswers (s : State) : State := { s with peerData := s.peerData.filter (fun d => s.here.grp.since != some d.op) }

/-- A word whose access another device refuses, or does not answer: it has no lane to switch off, and is done without effect
but for the lane event (R385; log entry 31). -/
def State.refusedWord (s : State) : State := (s.forgetAnswers.onHere Gang.peerEvent).done

/-- A word that first makes a release at a scope (R230 steps 1 to 3): it stalls until the release is made, and then
takes its effect. -/
def State.afterRelease (s : State) (scope : Nat) (effect : State → State) : State :=
  if s.wordHeld then (s.noteSince false).stall
  else match s.mark false with
    | (s, some m) => if s.aheadDone s.here.key scope m then effect s else s.stall
    | (s, none) => s.stall

/-- The acquire that ends a full fence (R236 step 3): at device and system scope it sets ATS and drops no copy (log entry 72). -/
def State.fenceClock (s : State) (scope : Nat) : State :=
  if 3 ≤ scope then s.onHere Gang.acquireClock
  else if scope = 2 then s.dropL1 s.here.core
  else s

/-- A full fence at a scope, and what `also` requires besides (R236); once it is complete, what it held back goes on. -/
def State.fence (s : State) (scope : Nat) (also : State → Bool) (effect : State → State) : State :=
  match s.mark true with
  | (s, some m) =>
    if s.entriesAt s.here.core scope m (fun e => e.gangs.contains s.here.key) && !s.awaitsAck s.here.key &&
        (decide (scope < 3) || s.peerStoresDone s.here.key m) && also s then
      (effect (s.fenceClock scope)).settle s.here.key
    else s.stall
  | (s, none) => s.stall

end Sys2Proof.Machine
end

