-- ==== Sys2Proof/Machine/Ending.lean ====
section
/-! DEFINITION. How gangs end: accesses of the device at the homes, the grid barrier (R332), the walker's tickets
(R314), the end of a gang (R33), the kill of a gang (R400) and the stop of a launch (R312). -/

namespace Sys2Proof.Machine

/-! ## The device's own accesses at the homes -/

/-- The bits of one line that a list of writes names, and their values; a later write of the list wins. -/
def lineOf (l : List ByteWrite) (line : Nat) : Line × Line :=
  (l.filter (fun e => e.addr / 64 == line)).foldl (fun (acc : Line × Line) e =>
    let mask : Line := BitVec.ofNat 512 (e.mask.toNat * 2 ^ (8 * (e.addr % 64)))
    (acc.1 ||| mask, (acc.2 &&& ~~~mask) ||| (BitVec.ofNat 512 (e.value.toNat * 2 ^ (8 * (e.addr % 64))) &&& mask))) (0, 0)

/-- Bits of bytes stored at physical addresses, one store per line at its home with the carried time `t` (R228); the second
result is the largest wts.  A line that the host owns is stored to once the host has given it up (R247). -/
def State.homeWrites (s : State) (t : Nat) (l : List ByteWrite) : State × Nat :=
  (l.map (fun e => e.addr / 64)).eraseDups.foldl (fun (acc : State × Nat) line =>
    let (mask, value) := lineOf l line
    let s := acc.1.put line t mask value
    (s, max acc.2 (s.home line).wts)) (s, 0)

/-- Bytes stored at physical addresses, as `homeWrites`. -/
def State.homeBytes (s : State) (t : Nat) (l : List (Nat × Byte)) : State × Nat :=
  s.homeWrites t (l.map (fun e => ⟨e.1, 255, e.2⟩))

/-- `n` bytes of a little-endian number at an address, for `homeBytes`. -/
def numberAt (addr n x : Nat) : List (Nat × Byte) := (bytesOf n x).mapIdx (fun i b => (addr + i, b))

/-- `n` bytes read at the homes with the required time `t`, by an agent that keeps no copies (R231, R357).  Who calls it waits
first while the host owns a line (R247). -/
def State.homeRead (s : State) (t addr n : Nat) : ReadResult × State :=
  let lines := List.range' (addr / 64) ((addr + n + 63) / 64 - addr / 64)
  let s := lines.foldl (fun s line => s.grant line t none) s
  (⟨s.read addr n, lines.any (fun l => (s.home l).poison), lines.foldl (fun m l => max m (s.home l).wts) 0⟩, s)

/-- A virtual address of a tenant as the device itself translates it: by a walk (R357). -/
def State.deviceTranslate (s : State) (tenant va : Nat) (kind : AccessKind) : Except Cause Nat :=
  match s.walk tenant va with
  | .error c => .error c
  | .ok t =>
    if !s.mapped (t.base + va % 2 ^ t.bits) then .error .xlate
    else if t.allows kind then .ok (t.base + va % 2 ^ t.bits)
    else .error .perm

/-- Whether an access of the device itself at a tenant's virtual address waits for the host: for a line that a walk reads, or for
one of the `n` bytes themselves (R247). -/
def State.deviceHeld (s : State) (tenant va n : Nat) : Bool :=
  s.walkHeld tenant va || (match s.deviceTranslate tenant va .load with
    | .error _ => (match s.deviceTranslate tenant va .store with
      | .error _ => false
      | .ok a => s.hostOwnsRange a n)
    | .ok a => s.hostOwnsRange a n)

/-- TCTL.STATE of a tenant: 0 OFF, 1 RUN, 2 SUSPENDED, 3 TEARDOWN (R355). -/
def State.tenantState (s : State) (t : Nat) : Nat := field (s.tenantReg t 1) 0 2

/-- A launch changed by `f`. -/
def State.onLaunch (s : State) (k : Nat) (f : Launch → Launch) : State := { s with launches := s.launches.adjust k f }

/-- A block changed by `f`. -/
def State.onBlock (s : State) (k : Nat) (f : Block → Block) : State := { s with blocks := s.blocks.adjust k f }

/-- `n` added to the 8-byte counter at a tenant's virtual address, with a release at device scope (R305), once the host does
not own its line (R247); nothing where the address is 0 or does not translate. -/
def State.addCounter (s : State) (tenant va n t : Nat) : State :=
  if va = 0 then s
  else match s.deviceTranslate tenant va .atomic with
    | .error _ => s
    | .ok a =>
      if s.putWaits (a / 64) then { s with work := s.work ++ [DeviceWork.add (a / 64) t (a % 64) n] } else s.addAt (a / 64) t (a % 64) n

/-! ## The grid barrier (R332) -/

/-- Slices of a gang that have not exited. -/
def Gang.remaining (g : Gang) : Nat := ((~~~g.exited).toNat) % 2 ^ 16

/-- The gangs of a block that are resident. -/
def State.gangsOf (s : State) (k : Nat) : List Gang := s.allGangs.filter (fun g => g.block == k && !g.isSupervisor)

/-- Whether a block has arrived in the present grid phase: every slice not exited of each of its gangs that has
neither ended nor been killed. -/
def Launch.gridArrived (l : Launch) (linear : Nat) (gangs : List Gang) : Bool :=
  gangs.all (fun g => g.remaining &&& Table.get 0 l.gridSlices (16 * linear + g.gangId) == g.remaining)

/-- Whether every block of a launch's grid has arrived or ended; the arrivals of saved blocks stand (R364). -/
def State.gridFull (s : State) (key : Nat) : Bool :=
  let l := s.launch key
  (List.range l.blocks).all (fun id => l.endedIds.contains id ||
    s.blocks.any (fun e => e.2.launch == key && e.2.job.isNone && !e.2.ended && e.2.linear == id && l.gridArrived id (s.gangsOf e.1)) ||
    s.saved.any (fun b => b.block.launch == key && b.block.job.isNone && b.block.linear == id && l.gridArrived id b.gangs))

/-- The grid phase completes when every block has arrived or ended (R332). -/
def State.gridTest (s : State) (key : Nat) : State :=
  let l := s.launch key
  let phased := (l.desc.map Descriptor.phased).getD false
  if l.stage = .running ∧ l.blocks ≠ 0 ∧ phased = false ∧ l.gridSlices ≠ [] ∧ s.gridFull key = true then
    s.onLaunch key (fun l => { l with gridPhase := l.gridPhase + 1, gridSlices := [], gridTs := l.gridPts, gridPts := 0 })
  else s

/-! ## The coverage map and tickets (R312, R314) -/

/-- The number of cells along a dimension (R312). -/
def Launch.cellsAlong (l : Launch) (d : Nat) : Nat :=
  let g := 2 ^ field (Table.get 0 l.eph 1).toNat (4 * d) 4
  (field (Table.get 0 l.eph 0).toNat (16 * d) 16 + g - 1) / g

/-- The number of cells of the iteration space. -/
def Launch.cellCount (l : Launch) : Nat := l.cellsAlong 0 * l.cellsAlong 1 * l.cellsAlong 2 * l.cellsAlong 3

/-- The virtual address of the map byte of a cell. -/
def Launch.cellVa (l : Launch) (n : Nat) : Nat := (Table.get 0 l.eph 6).toNat + n / 4

/-- A byte of the map: that of its home, or what another device has answered to the word on the pipe (R249). -/
def State.mapByte (s : State) (a : Nat) : Byte :=
  if regionOf a = .peer then BitVec.ofNat 8 (((s.wordAnswer (a / 64)).map (fun d => if d.refused then 0 else lineField d.data (a % 64) 1)).getD 0)
  else s.byte a

/-- The state of a cell, read at its home, or why it cannot be reached, with the address of the map byte. -/
def State.cell (s : State) (l : Launch) (n : Nat) (kind : AccessKind) : Except (Cause × Nat) Nat :=
  match s.deviceTranslate l.tenant (l.cellVa n) kind with
  | .error c => .error (c, l.cellVa n)
  | .ok a => .ok (field (s.mapByte a).toNat (2 * (n % 4)) 2)

/-- Cells written to a state, by atomics at the map's homes that change these cells alone: one store for each line (R312).
Cells that cannot be reached stay. -/
def State.writeCells (s : State) (l : Launch) (cells : List Nat) (v t : Nat) : State × Nat :=
  let places := cells.filterMap (fun n => match s.deviceTranslate l.tenant (l.cellVa n) .atomic with
    | .ok a => some (a, n % 4)
    | .error _ => none)
  s.homeWrites t (places.map (fun p => ⟨p.1, BitVec.ofNat 8 (3 * 2 ^ (2 * p.2)), BitVec.ofNat 8 (v * 2 ^ (2 * p.2))⟩))

/-- The tickets of a gang of a block return: their CLAIMED cells become FREE (R314).  The answer also tells what stops
the launch: a reserved state, or a map byte that cannot be written.  While the launch is already being stopped such
cells are left in place (R312). -/
def State.returnTickets (s : State) (key block gangId : Nat) : State × Option Cause :=
  let l := s.launch key
  let mine := l.tickets.filter (fun t => t.block == block && t.gangId == gangId)
  let cells := mine.flatMap Ticket.cells
  let trouble := cells.filterMap (fun n => match s.cell l n .atomic with
    | .error (c, _) => some (c : Cause)
    | .ok 3 => some Cause.format
    | .ok _ => none)
  let good := cells.filter (fun n => match s.cell l n .atomic with
    | .ok 3 => false
    | .ok _ => true
    | .error _ => false)
  let (s, _) := s.writeCells l good 0 l.largest
  let s := s.onLaunch key (fun l => { l with
    tickets := l.tickets.filter (fun t => !(t.block == block && t.gangId == gangId))
    returned := (l.returned ++ good).eraseDups })
  (s, if l.stopping.isSome then none else trouble.head?)

/-! ## The end of a gang (R33, R326) -/

/-- A gang that has left its slot takes no part in the acknowledgements still outstanding; its release stores not yet
sent drain as other entries do (R400 step 3). -/
def State.forgetGang (s : State) (key : Nat) : State :=
  let drop := fun (l : List Nat) => l.filter (fun k => k != key)
  (List.range 4).foldl (fun s i =>
    let n := 4 * (key / 64 / 4) + i
    let c := s.core n
    if c.fifo.any (fun e => e.gangs.contains key || e.readers.contains key || e.writers.contains key) then
      s.setCore n { c with fifo := c.fifo.map (fun e =>
        { e with gangs := drop e.gangs, readers := drop e.readers, writers := drop e.writers
                 direct := e.direct && !(e.gangs.contains key && e.reach == 0) }) }
    else s) s

/-- A gang leaves its slot: its granules and slot return, its block notes that it has ended with its LCAUSE, its
launch its PTS (R302), a grid phase may complete, and its core may gate (R318). -/
def State.removeGang (s : State) (g : Gang) : State :=
  let b := s.block g.block
  let s := s.onBlock g.block (fun b => { b with
    live := b.live &&& (2 ^ 16 - 1 - 2 ^ g.gangId)
    causes := Table.set 0 b.causes g.gangId g.lcause.toNat })
  let s := s.onLaunch b.launch (fun l => { l with largest := max l.largest g.ptsNow })
  let s := if s.here.core = g.core ∧ s.here.slot = g.slot then s.onHere (fun h => { h with ended := true })
    else { s with gangs := s.gangs.erase (gangKey g.core g.slot) }
  ((s.forgetGang (gangKey g.core g.slot)).gridTest b.launch).tryGate g.core

/-- The first gang of a launch that ends by fault leaves its cause (R302). -/
def State.noteFault (s : State) (key : Nat) (c : Cause) : State :=
  s.onLaunch key (fun l => { l with fault := some (l.fault.getD c.code) })

/-! ## Killing a gang (R400) -/

/-- The range locks of a command or operation released. -/
def Core.unlock (c : Core) (id : Nat) : Core := { c with locks := c.locks.filter (fun l => l.cmd != id) }

/-- Engine commands of a killed gang: those not started are discarded, started ones stop once the granule in
flight has landed; their ranges are released (R400 step 4). -/
def Core.stopCmds (c : Core) (p : CopyCmd → Bool) : Core :=
  let gone := c.cmds.filter (fun k => p k && (!k.started || !k.sent))
  let c := (c.cmds.filter p).foldl (fun (c : Core) k => c.unlock k.id) c
  { c with cmds := (c.cmds.filter (fun k => !gone.any (fun q => q.id == k.id))).map (fun k =>
      if p k then { k with stopping := true } else k) }

/-- A record of a gang that leaves its slot waits on without it: slot 63 holds no gang. -/
def DeviceWork.leave (g : Gang) : DeviceWork → DeviceWork
  | .log tenant record (some k) marker pts =>
    if k = gangKey g.core g.slot then .log tenant record (some (gangKey g.core 63)) marker (max pts g.ptsNow)
    else .log tenant record (some k) marker pts
  | w => w

/-- A gang is killed with a cause: steps 1 to 9 of R400, but for what a broken coverage map asks for, which the
second result names. -/
def State.killOne (s : State) (core slot : Nat) (f : FaultReq) : State × Option Cause :=
  match s.gang core slot with
  | none => (s, none)
  | some g =>
    if g.isSupervisor then
      (s.setGang { g with stop := .fault f.kind f.cause g.grp.slices 0 }, none)
    else
      let b := s.block g.block
      let r := s.recordFor g f
      let s := { s with
        ops := s.ops.filter (fun o => o.gang != gangKey core slot), work := s.work.map (DeviceWork.leave g)
        peerData := s.peerData.filter (fun d => !g.groups.any (fun p => p.since == some d.op)) }
      let c := s.core core
      let c := c.stopCmds (fun k => k.block == g.block && k.gangId == g.gangId)
      let c := { c with mq := c.mq.filter (fun o => o.started || !(o.block == g.block && o.gangId == g.gangId)) }
      let s := s.setCore core c
      let (s, trouble) := s.returnTickets b.launch g.block g.gangId
      let s := s.onBlock g.block (fun b => { b with abandoned := true })
      let s := (s.setGang { g with killed := true }).removeGang { g with killed := true }
      let s := s.noteFault b.launch f.cause
      ((s.postMailbox core slot r).logFault b.tenant r (some { g with slot := 63 }), trouble)

/-! ## Stopping a launch (R312) -/

/-- A card dropped: its DONECTR rises by 2^32 (R305). -/
def State.dropJob (s : State) (key : Nat) : State :=
  match s.jobs.find key with
  | none => s
  | some j =>
    let t := match j.launch with
      | some k => (s.launch k).largest
      | none => 0
    let out := Table.get 0 s.ringOut j.tenant + (if j.place = .ring then 1 else 0)
    { s.addCounter j.tenant j.donectr (2 ^ 32) t with jobs := s.jobs.erase key, ringOut := Table.set 0 s.ringOut j.tenant out }

/-- A device-event record in a tenant's fault log (R361, R362). -/
def State.deviceEvent (s : State) (tenant : Nat) (c : Cause) (core lid block addr : Nat) : State :=
  s.logFault tenant { cause := c, tenant := tenant, core := core, lid := lid, block := block, addr := BitVec.ofNat 64 addr }

/-- An unplaceable card is dropped, with its entry in the fault log (R305). -/
def State.rejectJob (s : State) (key : Nat) : State :=
  match s.jobs.find key with
  | none => s
  | some j => (s.dropJob key).deviceEvent j.tenant .shape 0 ((j.launch.map (fun k => (s.launch k).lid)).getD 0) 0 0

/-- The header of the run that a gang's first group is in, or would resume at (R312). -/
def Gang.runPc (g : Gang) : Word64 := g.grp.pc

/-- A launch is stopped with a cause: its waiting cards drop, and every gang of it and of its tasks is killed; the
gang at `own`, if given, has met the condition at its own word (R312). -/
def State.stopLaunch (s : State) (key : Nat) (c : Cause) (own : Option (Nat × FaultReq)) : State :=
  if (s.launch key).stopping.isSome then s
  else
    let s := s.onLaunch key (fun l => { l with stopping := some c.code })
    let cards := (s.jobs.filter (fun e => e.2.launch == some key && e.2.place != .running)).map Prod.fst
    let s := cards.foldl State.dropJob s
    let gangs := s.allGangs.filter (fun g => !g.isSupervisor && (s.block g.block).launch == key)
    gangs.foldl (fun s g =>
      let other : FaultReq := { cause := c, kind := 1, pc := g.runPc }
      let f := match own with
        | some (k, f) => if k = gangKey g.core g.slot then f else other
        | none => other
      (s.killOne g.core g.slot f).1) s

/-- A gang is killed (R400); a coverage map that cannot take its cells back stops the launch (R312). -/
def State.kill (s : State) (core slot : Nat) (f : FaultReq) : State :=
  match s.gang core slot with
  | none => s
  | some g =>
    let key := (s.block g.block).launch
    let (s, trouble) := s.killOne core slot f
    match trouble with
    | none => s
    | some c => s.stopLaunch key c none

/-- The gang on the pipe is killed at its word (R399, R403, R404). -/
def State.killHere (s : State) (c : Cause) : State :=
  s.kill s.here.core s.here.slot
    { cause := c, kind := 0, pc := s.here.wordPc, word := s.wordHere, index := s.here.wordIndex }

/-- The gang of a memory operation is killed for poison that the operation has read (R399). -/
def State.killOp (s : State) (o : MemOp) (kind : Nat) : State :=
  s.kill o.core o.slot { cause := .uncorr, kind := kind, pc := o.pc, word := o.word, index := o.index, slice := some o.slice }

/-- A cause of the check of a word's addresses: poison in a page table kills the gang (R391; log entry 73), any other cause is a
precise fault (R357). -/
def State.addressFault (s : State) (c : Cause) (addr : Nat) : State :=
  if c = .uncorr then s.killHere .uncorr else s.precise c addr

/-! ## A line that the word on the pipe reads -/

/-- A line that the word on the pipe loads, as a relaxed load of its gang or as an acquire at system scope, once it can be:
after the gang's earlier accesses to it, and when the host does not own it (R247), or when another device has answered (R249).
An acquire waits until the dirty bytes that it saw are acknowledged (R234).  Then the word takes its effect, which forgets the
answer; poison kills the gang (R399). -/
def State.withLine (s : State) (acquire : Bool) (line : Nat) (effect : State → Line → State) : State :=
  if regionOf (64 * line) = .peer then
    match s.wordAnswer line with
    | none => s.askPeer line 0
    | some d => if d.refused then s.refusedWord else if d.poison then s.killHere .uncorr else effect s d.data
  else if s.ops.any (fun p => p.gang == s.here.key && p.lines.contains line && !p.pastLine line) then (s.noteSince false).stall
  else if s.hostOwns line then s.stall
  else
    let g := s.here
    let (d, s) := s.loadLine g.core line (if acquire then g.ptsNow else g.atsNow) g.floors
    let s := s.observe g.core g.slot line d.wts
    if d.poison then s.killHere .uncorr
    else if acquire && s.awaitsAck g.key then s.stall
    else effect s d.data

end Sys2Proof.Machine
end

