-- ==== Sys2Proof/Machine/Scalar.lean ====
section
/-! DEFINITION. Scalar forms (R118 to R124 but for state registers): every slice of the issuing group acts on its own
registers and SCC, whatever EXEC and the guard hold. -/

namespace Sys2Proof.Machine

/-- The outcome of a step of this machine. -/
abbrev Result := Host.Outcome State Fault Refusal

/-- A scalar form that writes Sd in each slice (R118). -/
def State.scalarOp (s : State) (d : BitVec 6) (f : Gang → Nat → Word64) : Result :=
  s.issueGang {} (fun g => g.writeS g.members d.toNat (f g))

/-- A two-operand form: `f` of the values of Sa and Sb. -/
def State.scalar2 (s : State) (d a b : BitVec 6) (f : Word64 → Word64 → Word64) : Result :=
  s.scalarOp d (fun g sl => f (g.sreg sl a.toNat) (g.sreg sl b.toNat))

/-- A one-operand form: `f` of the value of Sa. -/
def State.scalar1 (s : State) (d a : BitVec 6) (f : Word64 → Word64) : Result :=
  s.scalarOp d (fun g sl => f (g.sreg sl a.toNat))

/-- A compare: its 0 or 1 goes to Sd and SCC (R120). -/
def State.scalarCompare (s : State) (d a : BitVec 6) (rhs : Gang → Nat → Word64) (p : Word64 → Word64 → Bool) : Result :=
  s.issueGang {} (fun g =>
    let r := fun sl => p (g.sreg sl a.toNat) (rhs g sl)
    (g.writeS g.members d.toNat (fun sl => if r sl then 1 else 0)).writeScc g.members r)

/-- A compare of Sa with Sb. -/
def State.scalarCompare2 (s : State) (d a b : BitVec 6) (p : Word64 → Word64 → Bool) : Result :=
  s.scalarCompare d a (fun g sl => g.sreg sl b.toNat) p

/-- SDIV: truncated quotient; −1 for a zero divisor; the most negative value divided by −1 is itself (R119). -/
def sdivValue (a b : Word64) : Word64 := if b = 0 then BitVec.allOnes 64 else a.sdiv b
/-- SDIVN: all ones for a zero divisor (R119). -/
def sdivnValue (a b : Word64) : Word64 := if b = 0 then BitVec.allOnes 64 else a / b
/-- SREM: the first operand for a zero divisor (R119). -/
def sremValue (a b : Word64) : Word64 := if b = 0 then a else a - b * sdivValue a b
/-- SREMN: the first operand for a zero divisor (R119). -/
def sremnValue (a b : Word64) : Word64 := if b = 0 then a else a % b

/-- The shift amount of a scalar shift: b[5:0]. -/
def shiftAmount (b : Word64) : Nat := field b.toNat 0 6

/-- SADD (R119). -/
def execSadd (d a b : BitVec 6) (s : State) : Result := s.scalar2 d a b (fun a b => a + b)
/-- SSUB (R119). -/
def execSsub (d a b : BitVec 6) (s : State) : Result := s.scalar2 d a b (fun a b => a - b)
/-- SMUL (R119). -/
def execSmul (d a b : BitVec 6) (s : State) : Result := s.scalar2 d a b (fun a b => a * b)
/-- SMULH (R119). -/
def execSmulh (d a b : BitVec 6) (s : State) : Result := s.scalar2 d a b (fun a b => BitVec.ofInt 64 (a.toInt * b.toInt / 2 ^ 64))
/-- SMULHN (R119). -/
def execSmulhn (d a b : BitVec 6) (s : State) : Result := s.scalar2 d a b (fun a b => BitVec.ofNat 64 (a.toNat * b.toNat / 2 ^ 64))
/-- SDIV (R119). -/
def execSdiv (d a b : BitVec 6) (s : State) : Result := s.scalar2 d a b (fun a b => sdivValue a b)
/-- SDIVN (R119). -/
def execSdivn (d a b : BitVec 6) (s : State) : Result := s.scalar2 d a b (fun a b => sdivnValue a b)
/-- SREM (R119). -/
def execSrem (d a b : BitVec 6) (s : State) : Result := s.scalar2 d a b (fun a b => sremValue a b)
/-- SREMN (R119). -/
def execSremn (d a b : BitVec 6) (s : State) : Result := s.scalar2 d a b (fun a b => sremnValue a b)
/-- SAND (R119). -/
def execSand (d a b : BitVec 6) (s : State) : Result := s.scalar2 d a b (fun a b => a &&& b)
/-- SOR (R119). -/
def execSor (d a b : BitVec 6) (s : State) : Result := s.scalar2 d a b (fun a b => a ||| b)
/-- SXOR (R119). -/
def execSxor (d a b : BitVec 6) (s : State) : Result := s.scalar2 d a b (fun a b => a ^^^ b)
/-- SANDN (R119). -/
def execSandn (d a b : BitVec 6) (s : State) : Result := s.scalar2 d a b (fun a b => a &&& ~~~b)
/-- SSHL (R119). -/
def execSshl (d a b : BitVec 6) (s : State) : Result := s.scalar2 d a b (fun a b => a <<< shiftAmount b)
/-- SSHR (R119). -/
def execSshr (d a b : BitVec 6) (s : State) : Result := s.scalar2 d a b (fun a b => a >>> shiftAmount b)
/-- SSRA (R119). -/
def execSsra (d a b : BitVec 6) (s : State) : Result := s.scalar2 d a b (fun a b => a.sshiftRight (shiftAmount b))
/-- SROL (R119). -/
def execSrol (d a b : BitVec 6) (s : State) : Result := s.scalar2 d a b (fun a b => a.rotateLeft (shiftAmount b))
/-- SMIN (R119). -/
def execSmin (d a b : BitVec 6) (s : State) : Result := s.scalar2 d a b (fun a b => if a.slt b then a else b)
/-- SMAX (R119). -/
def execSmax (d a b : BitVec 6) (s : State) : Result := s.scalar2 d a b (fun a b => if a.slt b then b else a)
/-- SMINN (R119). -/
def execSminn (d a b : BitVec 6) (s : State) : Result := s.scalar2 d a b (fun a b => if a.ult b then a else b)
/-- SMAXN (R119). -/
def execSmaxn (d a b : BitVec 6) (s : State) : Result := s.scalar2 d a b (fun a b => if a.ult b then b else a)
/-- SCEQ (R119, R120). -/
def execSceq (d a b : BitVec 6) (s : State) : Result := s.scalarCompare2 d a b (fun a b => a == b)
/-- SCNE (R119, R120). -/
def execScne (d a b : BitVec 6) (s : State) : Result := s.scalarCompare2 d a b (fun a b => a != b)
/-- SCLT (R119, R120). -/
def execSclt (d a b : BitVec 6) (s : State) : Result := s.scalarCompare2 d a b (fun a b => a.slt b)
/-- SCLE (R119, R120). -/
def execScle (d a b : BitVec 6) (s : State) : Result := s.scalarCompare2 d a b (fun a b => a.sle b)
/-- SCLTN (R119, R120). -/
def execScltn (d a b : BitVec 6) (s : State) : Result := s.scalarCompare2 d a b (fun a b => a.ult b)
/-- SCLEN (R119, R120). -/
def execSclen (d a b : BitVec 6) (s : State) : Result := s.scalarCompare2 d a b (fun a b => a.ule b)
/-- SSEL: Sa where SCC is 1, else Sb (R119). -/
def execSsel (d a b : BitVec 6) (s : State) : Result :=
  s.scalarOp d (fun g sl => if g.sccOf sl then g.sreg sl a.toNat else g.sreg sl b.toNat)
/-- SPOPC (R119). -/
def execSpopc (d a : BitVec 6) (s : State) : Result := s.scalar1 d a (fun a => BitVec.ofNat 64 (popCount 64 a.toNat))
/-- SCLZ (R119). -/
def execSclz (d a : BitVec 6) (s : State) : Result := s.scalar1 d a (fun a => BitVec.ofNat 64 (leadingZeros 64 a.toNat))
/-- SCTZ (R119). -/
def execSctz (d a : BitVec 6) (s : State) : Result := s.scalar1 d a (fun a => BitVec.ofNat 64 (trailingZeros 64 a.toNat))
/-- SBREV (R119). -/
def execSbrev (d a : BitVec 6) (s : State) : Result := s.scalar1 d a (fun a => BitVec.ofNat 64 (reverseBits 64 a.toNat))
/-- SEXTB (R119). -/
def execSextb (d a : BitVec 6) (s : State) : Result := s.scalar1 d a (fun a => sext64 (a.setWidth 8))
/-- SEXTH (R119). -/
def execSexth (d a : BitVec 6) (s : State) : Result := s.scalar1 d a (fun a => sext64 (a.setWidth 16))
/-- SEXTW (R119). -/
def execSextw (d a : BitVec 6) (s : State) : Result := s.scalar1 d a (fun a => sext64 (a.setWidth 32))
/-- SADDI (R121). -/
def execSaddi (d a : BitVec 6) (i : BitVec 12) (s : State) : Result := s.scalar1 d a (fun a => a + sext64 i)
/-- SANDI (R121). -/
def execSandi (d a : BitVec 6) (i : BitVec 12) (s : State) : Result := s.scalar1 d a (fun a => a &&& sext64 i)
/-- SORI (R121). -/
def execSori (d a : BitVec 6) (i : BitVec 12) (s : State) : Result := s.scalar1 d a (fun a => a ||| zext64 i)
/-- SXORI (R121). -/
def execSxori (d a : BitVec 6) (i : BitVec 12) (s : State) : Result := s.scalar1 d a (fun a => a ^^^ zext64 i)
/-- SSHLI (R121). -/
def execSshli (d a : BitVec 6) (i : BitVec 6) (s : State) : Result := s.scalar1 d a (fun a => a <<< i.toNat)
/-- SSHRI (R121). -/
def execSshri (d a : BitVec 6) (i : BitVec 6) (s : State) : Result := s.scalar1 d a (fun a => a >>> i.toNat)
/-- SSRAI (R121). -/
def execSsrai (d a : BitVec 6) (i : BitVec 6) (s : State) : Result := s.scalar1 d a (fun a => a.sshiftRight i.toNat)
/-- SCEQI (R120, R121). -/
def execSceqi (d a : BitVec 6) (i : BitVec 12) (s : State) : Result :=
  s.scalarCompare d a (fun _ _ => sext64 i) (fun a b => a == b)

/-- IMM16 placed at bit 16 × POS (R122). -/
def placed (p : BitVec 2) (i : BitVec 16) : Word64 := zext64 i <<< (16 * p.toNat)

/-- SLI (R122). -/
def execSli (d : BitVec 6) (p : BitVec 2) (i : BitVec 16) (s : State) : Result := s.scalarOp d (fun _ _ => placed p i)
/-- SLIK: the other bits of Sd keep their value (R122). -/
def execSlik (d : BitVec 6) (p : BitVec 2) (i : BitVec 16) (s : State) : Result :=
  s.scalarOp d (fun g sl => (g.sreg sl d.toNat &&& ~~~(placed p (BitVec.allOnes 16))) ||| placed p i)
/-- SLIS: sign-extended from the placed halfword (R122). -/
def execSlis (d : BitVec 6) (p : BitVec 2) (i : BitVec 16) (s : State) : Result :=
  s.scalarOp d (fun _ _ => sext64 i <<< (16 * p.toNat))

/-- NOP (R79). -/
def execNop (s : State) : Result := s.issueGang {} (fun g => g)

/-- SETMODE: MODE[25:0] of every slice of the group; a reserved value raises ILLEGAL (R73, R123). -/
def execSetmode (i : BitVec 18) (s : State) : Result :=
  s.issueGang { illegal := !modeOk (i.setWidth 32) }
    (fun g => g.members.foldl (fun acc sl => acc.setMode sl (i.setWidth 32)) g)

end Sys2Proof.Machine
end

