-- ==== Sys2Proof/Machine/Mask.lean ====
section
/-! DEFINITION. Mask forms (R127): they act on the bits of every lane of the issuing group's slices, whatever EXEC
and the guard hold. -/

namespace Sys2Proof.Machine

/-- A form that writes the group's bits of a mask from two masks. -/
def State.maskOp (s : State) (d a b : BitVec 4) (f : LaneMask → LaneMask → LaneMask) : Result :=
  s.issueGang {} (fun g => g.writeMask d.toNat g.groupLanes (f (g.mask a.toNat) (g.mask b.toNat)))

/-- The bits of a mask register in the issuing group's lanes. -/
def Gang.groupMask (g : Gang) (i : Nat) : LaneMask := g.mask i &&& BitVec.ofNat 64 (maskOf g.groupLanes)

/-- MAND (R127). -/
def execMand (d a b : BitVec 4) (s : State) : Result := s.maskOp d a b (fun a b => a &&& b)
/-- MOR (R127). -/
def execMor (d a b : BitVec 4) (s : State) : Result := s.maskOp d a b (fun a b => a ||| b)
/-- MXOR (R127). -/
def execMxor (d a b : BitVec 4) (s : State) : Result := s.maskOp d a b (fun a b => a ^^^ b)
/-- MANDN (R127). -/
def execMandn (d a b : BitVec 4) (s : State) : Result := s.maskOp d a b (fun a b => a &&& ~~~b)
/-- MNOT (R127). -/
def execMnot (d a : BitVec 4) (s : State) : Result := s.maskOp d a a (fun a _ => ~~~a)
/-- MMOV (R127). -/
def execMmov (d a : BitVec 4) (s : State) : Result := s.maskOp d a a (fun a _ => a)

/-- MTOS: Sd bit i is Ma bit i for the group's lanes and 0 for the others (R127). -/
def execMtos (d : BitVec 6) (a : BitVec 4) (s : State) : Result :=
  s.scalarOp d (fun g _ => g.groupMask a.toNat)

/-- STOM: each slice writes its four bits from Sa[4s + 3 : 4s] (R127). -/
def execStom (d : BitVec 4) (a : BitVec 6) (s : State) : Result :=
  s.issueGang {} (fun g => g.members.foldl
    (fun acc sl => acc.writeMask d.toNat [4 * sl, 4 * sl + 1, 4 * sl + 2, 4 * sl + 3] (g.sreg sl a.toNat)) g)

/-- MPOPC: the number of the group's lanes whose bit is 1; SCC tells whether that number is not zero, also where Sd is S0, which
reads zero (R127; log entry 65). -/
def execMpopc (d : BitVec 6) (a : BitVec 4) (s : State) : Result :=
  s.issueGang {} (fun g =>
    let n := popCount 64 (g.groupMask a.toNat).toNat
    (g.writeS g.members d.toNat (fun _ => BitVec.ofNat 64 n)).writeScc g.members (fun _ => n != 0))

/-- MFIRST: the lowest of the group's lanes whose bit is 1, or WIDTH; SCC tells whether one was found (R127). -/
def execMfirst (d : BitVec 6) (a : BitVec 4) (s : State) : Result :=
  s.issueGang {} (fun g =>
    let n := trailingZeros 64 (g.groupMask a.toNat).toNat
    (g.writeS g.members d.toNat (fun _ => BitVec.ofNat 64 n)).writeScc g.members (fun _ => n != 64))

/-- MSLICE: lane 4s + j takes bit j of its own slice's Sa (R127). -/
def execMslice (d : BitVec 4) (a : BitVec 6) (s : State) : Result :=
  s.issueGang {} (fun g => g.members.foldl
    (fun acc sl => acc.writeMask d.toNat [4 * sl, 4 * sl + 1, 4 * sl + 2, 4 * sl + 3]
      (BitVec.ofNat 64 (field (g.sreg sl a.toNat).toNat 0 4 * 2 ^ (4 * sl)))) g)

end Sys2Proof.Machine
end

