-- ==== Sys2Proof/Machine/Vector.lean ====
section
/-! DEFINITION. Element-wise vector forms (R128 to R143): element types, the frame that every form
shares, and the forms of majors 0x10 to 0x17, 0x1A, 0x1B and 0x1E. -/

namespace Sys2Proof.Machine

/-! ## Element types (R71, R128, R130) -/

/-- An element type: its width, the elements per lane, and its reading. -/
structure EType where
  width : Nat
  count : Nat
  signed : Bool
  /-- the format of a floating type -/
  fmt : Option Fmt
  deriving DecidableEq, Repr

/-- The element type of a MODE.ETYPE value. -/
def etype : Nat → EType
  | 0 => ⟨32, 1, true, none⟩
  | 1 => ⟨32, 1, false, none⟩
  | 2 => ⟨32, 1, true, some .f32⟩
  | 3 => ⟨16, 2, true, some .f16⟩
  | 4 => ⟨16, 2, true, some .bf16⟩
  | 5 => ⟨16, 2, true, none⟩
  | 6 => ⟨16, 2, false, none⟩
  | 7 => ⟨8, 4, true, none⟩
  | 8 => ⟨8, 4, false, none⟩
  | 9 => ⟨64, 1, true, some .f64⟩
  | 10 => ⟨64, 1, true, none⟩
  | 11 => ⟨64, 1, false, none⟩
  | 12 => ⟨8, 4, true, some .e4m3⟩
  | 13 => ⟨8, 4, true, some .e5m2⟩
  | _ => ⟨32, 1, true, none⟩

/-- ETYPE classes that a form accepts (R130), and the narrower lists of single forms. -/
inductive Accepts where
  | any | int | flt
  | only (l : List Nat)
  deriving DecidableEq, Repr

/-- Whether a form accepts an element type. -/
def Accepts.ok (a : Accepts) (e : Nat) : Bool :=
  match a with
  | .any => true
  | .int => (etype e).fmt == none
  | .flt => (etype e).fmt != none
  | .only l => l.contains e

/-- Element `e` of a lane's operand (R103). -/
def EType.elem (t : EType) (x e : Nat) : Nat := field x (t.width * e) t.width

/-- A lane's result from its elements. -/
def EType.build (t : EType) (f : Nat → Nat) : Nat :=
  (List.range t.count).foldl (fun acc e => acc + f e % 2 ^ t.width * 2 ^ (t.width * e)) 0

/-- How MODE rounds floating results. -/
structure FloatMode where
  rnd : Rnd
  ftz : Bool
  deriving DecidableEq, Repr

/-- The rounding of a MODE value. -/
def floatMode (m : Word) : FloatMode := ⟨Rnd.ofCode (modeRnd m), modeFtz m⟩

/-! ## The frame of a vector form (R129) -/

/-- The ETYPE and MODE of a lane. -/
def Gang.laneMode (g : Gang) (lane : Nat) : Word := g.modeOf (lane / 4)

/-- What a vector form needs: its classes, the pair rule on each operand, and its registers. -/
def Gang.vectorDemand (g : Gang) (acc : Accepts) (reads writes : List (BitVec 8)) : Demand :=
  let r := reads.map BitVec.toNat
  let w := writes.map BitVec.toNat
  { illegal := g.members.any (fun sl => !acc.ok (modeEtype (g.modeOf sl))) || (r ++ w).any g.oddPair
    reads := r.flatMap g.spans
    writes := w.flatMap g.spans }

/-- The listed lanes of register `d` written with the value `f` gives for each. -/
def Gang.writeLanes (g : Gang) (lanes : List Nat) (d : Nat) (f : Nat → Nat) : Gang :=
  lanes.foldl (fun acc l => acc.setOperand (g.wideLane l) d l (f l)) g

/-- A vector form that writes Vd in each active lane with `f mode lane`. -/
def State.vectorOp (s : State) (acc : Accepts) (reads : List (BitVec 8)) (d : BitVec 8)
    (f : Gang → Word → Nat → Nat) : Result :=
  s.issueGang (s.here.vectorDemand acc reads [d]) (fun g =>
    g.writeLanes g.active d.toNat (fun l => f g (g.laneMode l) l))

/-- A lane's operand under its own element type. -/
def Gang.src (g : Gang) (c : BitVec 8) (lane : Nat) : Nat := g.operand (g.wideLane lane) c.toNat lane

/-- An element-wise form of two operands. -/
def State.elementwise2 (s : State) (acc : Accepts) (d a b : BitVec 8) (f : EType → FloatMode → Nat → Nat → Nat) : Result :=
  s.vectorOp acc [a, b] d (fun g m l =>
    let t := etype (modeEtype m)
    t.build (fun e => f t (floatMode m) (t.elem (g.src a l) e) (t.elem (g.src b l) e)))

/-- An element-wise form of one operand. -/
def State.elementwise1 (s : State) (acc : Accepts) (d a : BitVec 8) (f : EType → FloatMode → Nat → Nat) : Result :=
  s.vectorOp acc [a] d (fun g m l =>
    let t := etype (modeEtype m)
    t.build (fun e => f t (floatMode m) (t.elem (g.src a l) e)))

/-- An element-wise form of two operands and the old destination. -/
def State.elementwise3 (s : State) (acc : Accepts) (d a b : BitVec 8) (f : EType → FloatMode → Nat → Nat → Nat → Nat) : Result :=
  s.vectorOp acc [a, b, d] d (fun g m l =>
    let t := etype (modeEtype m)
    t.build (fun e => f t (floatMode m) (t.elem (g.src a l) e) (t.elem (g.src b l) e) (t.elem (g.src d l) e)))

/-- A form on each lane's whole word or pair. -/
def State.wordwise2 (s : State) (d a b : BitVec 8) (f : Nat → Nat → Nat) : Result :=
  s.vectorOp .any [a, b] d (fun g _ l => f (g.src a l) (g.src b l))

/-! ## Element operations -/

/-- int_or_fl of R132: `fi` on integers taken modulo 2^w, `ff` on values rounded once. -/
def EType.arith (t : EType) (m : FloatMode) (fi : Int → Int → Int) (ff : Rnd → Num → Num → Num) (a b : Nat) : Nat :=
  match t.fmt with
  | none => wrapTo t.width (fi (intRead t.signed t.width a) (intRead t.signed t.width b))
  | some f => f.round m.rnd m.ftz (ff m.rnd (f.input m.ftz a) (f.input m.ftz b))

/-- The element sum of VADD. -/
def EType.add (t : EType) (m : FloatMode) : Nat → Nat → Nat := t.arith m (· + ·) Num.add
/-- The element difference of VSUB. -/
def EType.sub (t : EType) (m : FloatMode) : Nat → Nat → Nat := t.arith m (· - ·) (fun r x y => x.add r y.negate)
/-- The element product of VMUL. -/
def EType.mul (t : EType) (m : FloatMode) : Nat → Nat → Nat := t.arith m (· * ·) (fun _ x y => x.mul y)

/-- The high half of a product (R132). -/
def EType.mulHigh (t : EType) (a b : Nat) : Nat :=
  wrapTo t.width (intRead t.signed t.width a * intRead t.signed t.width b / (2 ^ t.width : Nat))

/-- The fused forms: plus or minus a × b, plus or minus d, rounded once (R133). -/
def EType.fused (t : EType) (negProduct negAddend : Bool) (m : FloatMode) (a b d : Nat) : Nat :=
  match t.fmt with
  | none =>
    let rd := intRead t.signed t.width
    wrapTo t.width ((if negProduct then -(rd a * rd b) else rd a * rd b) + (if negAddend then -(rd d) else rd d))
  | some f =>
    let p := (f.input m.ftz a).mul (f.input m.ftz b)
    let p := if negProduct then p.negate else p
    let c := f.input m.ftz d
    f.round m.rnd m.ftz (p.add m.rnd (if negAddend then c.negate else c))

/-- Whether `a` orders below `b` in MIN and MAX: −0 below +0 (R134). -/
def Num.below (a b : Num) : Bool := a.lt b || (a.eq b && a.isNeg && !b.isNeg)

/-- VMIN (`wantMax` false) and VMAX of two elements: the operand's bits, after the flush of inputs (R134). -/
def EType.pick (t : EType) (wantMax : Bool) (m : FloatMode) (a b : Nat) : Nat :=
  match t.fmt with
  | none =>
    let lt := decide (intRead t.signed t.width a < intRead t.signed t.width b)
    if lt != wantMax then a else b
  | some f =>
    let a := f.flush m.ftz a
    let b := f.flush m.ftz b
    let x := f.decode a
    let y := f.decode b
    if x.isNan && y.isNan then f.nan
    else if x.isNan then b
    else if y.isNan then a
    else if x.below y != wantMax then a else b

/-- VADDS and VSUBS: clamped to the type's range (R134). -/
def EType.saturating (t : EType) (minus : Bool) (a b : Nat) : Nat :=
  let x := intRead t.signed t.width a
  let y := intRead t.signed t.width b
  wrapTo t.width (intSat t.signed t.width (if minus then x - y else x + y))

/-- VSHL of an element by `n` (R136). -/
def EType.shl (t : EType) (a n : Nat) : Nat := if n < t.width then a * 2 ^ n % 2 ^ t.width else 0
/-- VSHR (R136). -/
def EType.shr (t : EType) (a n : Nat) : Nat := if n < t.width then a / 2 ^ n else 0
/-- VSRA (R136). -/
def EType.sra (t : EType) (a n : Nat) : Nat := wrapTo t.width (signedOf t.width a / (2 ^ (min n t.width) : Nat))
/-- VROL (R136). -/
def EType.rol (t : EType) (a n : Nat) : Nat := rotateLeft t.width a (n % t.width)

/-- VDIV (R138). -/
def EType.quot (t : EType) (m : FloatMode) (a b : Nat) : Nat :=
  match t.fmt with
  | none =>
    let x := intRead t.signed t.width a
    let y := intRead t.signed t.width b
    if y = 0 then 2 ^ t.width - 1 else wrapTo t.width (x.tdiv y)
  | some f => f.round m.rnd m.ftz ((f.input m.ftz a).div (f.input m.ftz b))

/-- A finite value rounded to an integral value, keeping the sign of zero (R143). -/
def Num.integral (r : Rnd) : Num → Num
  | .fin s n d => .fin s (roundIntMag (.mode r) s n d) 1
  | x => x

/-- VFLOOR, VCEIL, VTRUNC and VRINT of an element (R143). -/
def EType.integral (t : EType) (r : Option Rnd) (m : FloatMode) (a : Nat) : Nat :=
  match t.fmt with
  | none => a
  | some f => f.round m.rnd m.ftz ((f.input m.ftz a).integral (r.getD m.rnd))

/-- VFRAC: a − floor(a); +0 for integral values, NaN for infinities (R143). -/
def Num.frac : Num → Num
  | .fin s n d =>
    if n % d = 0 then .fin false 0 1
    else if s then .fin false (d - n % d) d
    else .fin false (n % d) d
  | _ => .nan

/-- VFRAC of an element: exact, and rounded where the exact difference is not representable (log entry 21). -/
def EType.frac (t : EType) (m : FloatMode) (a : Nat) : Nat :=
  match t.fmt with
  | none => a
  | some f => f.round m.rnd m.ftz (f.input m.ftz a).frac

/-- VSQRT of an element (R143). -/
def EType.sqrt (t : EType) (m : FloatMode) (a : Nat) : Nat :=
  match t.fmt with
  | none => a
  | some f => f.round m.rnd m.ftz (f.input m.ftz a).sqrt

/-- VNEG of an element: the sign bit inverted under FLT (R142). -/
def EType.neg (t : EType) (a : Nat) : Nat :=
  match t.fmt with
  | none => wrapTo t.width (-(signedOf t.width a))
  | some _ => a ^^^ 2 ^ (t.width - 1)

/-- VABS of an element: the sign bit cleared under FLT; the absolute value of the bits read as a signed
number under INT, whichever twin the type is (R131, R142). -/
def EType.abs (t : EType) (a : Nat) : Nat :=
  match t.fmt with
  | none => wrapTo t.width (intRead true t.width a).natAbs
  | some _ => a % 2 ^ (t.width - 1)

/-- An 8-bit immediate extended to the element width (R59, R137). -/
def EType.sextImm (t : EType) (i : BitVec 8) : Nat := wrapTo t.width (signedOf 8 i.toNat)

/-! ## Arithmetic (R132 to R138) -/

/-- VADD (R132). -/
def execVadd (d a b : BitVec 8) (s : State) : Result := s.elementwise2 .any d a b EType.add
/-- VSUB (R132). -/
def execVsub (d a b : BitVec 8) (s : State) : Result := s.elementwise2 .any d a b EType.sub
/-- VMUL (R132). -/
def execVmul (d a b : BitVec 8) (s : State) : Result := s.elementwise2 .any d a b EType.mul
/-- VMULH (R132). -/
def execVmulh (d a b : BitVec 8) (s : State) : Result := s.elementwise2 .int d a b (fun t _ => t.mulHigh)
/-- VFMA (R133). -/
def execVfma (d a b : BitVec 8) (s : State) : Result := s.elementwise3 .any d a b (fun t => t.fused false false)
/-- VFMS (R133). -/
def execVfms (d a b : BitVec 8) (s : State) : Result := s.elementwise3 .any d a b (fun t => t.fused false true)
/-- VFNMA (R133). -/
def execVfnma (d a b : BitVec 8) (s : State) : Result := s.elementwise3 .any d a b (fun t => t.fused true false)
/-- VFNMS (R133). -/
def execVfnms (d a b : BitVec 8) (s : State) : Result := s.elementwise3 .any d a b (fun t => t.fused true true)
/-- VMIN (R134). -/
def execVmin (d a b : BitVec 8) (s : State) : Result := s.elementwise2 .any d a b (fun t => t.pick false)
/-- VMAX (R134). -/
def execVmax (d a b : BitVec 8) (s : State) : Result := s.elementwise2 .any d a b (fun t => t.pick true)
/-- VADDS (R134). -/
def execVadds (d a b : BitVec 8) (s : State) : Result := s.elementwise2 .int d a b (fun t _ => t.saturating false)
/-- VSUBS (R134). -/
def execVsubs (d a b : BitVec 8) (s : State) : Result := s.elementwise2 .int d a b (fun t _ => t.saturating true)
/-- VAND (R135). -/
def execVand (d a b : BitVec 8) (s : State) : Result := s.wordwise2 d a b (fun x y => x &&& y)
/-- VOR (R135). -/
def execVor (d a b : BitVec 8) (s : State) : Result := s.wordwise2 d a b (fun x y => x ||| y)
/-- VXOR (R135). -/
def execVxor (d a b : BitVec 8) (s : State) : Result := s.wordwise2 d a b (fun x y => x ^^^ y)
/-- VANDN (R135): a and not b. -/
def execVandn (d a b : BitVec 8) (s : State) : Result := s.wordwise2 d a b (fun x y => x ^^^ (x &&& y))
/-- VSHL (R136). -/
def execVshl (d a b : BitVec 8) (s : State) : Result := s.elementwise2 .int d a b (fun t _ => t.shl)
/-- VSHR (R136). -/
def execVshr (d a b : BitVec 8) (s : State) : Result := s.elementwise2 .int d a b (fun t _ => t.shr)
/-- VSRA (R136). -/
def execVsra (d a b : BitVec 8) (s : State) : Result := s.elementwise2 .int d a b (fun t _ => t.sra)
/-- VROL (R136). -/
def execVrol (d a b : BitVec 8) (s : State) : Result := s.elementwise2 .int d a b (fun t _ => t.rol)
/-- VADDI (R137). -/
def execVaddi (d a i : BitVec 8) (s : State) : Result := s.elementwise1 .int d a (fun t m x => t.add m x (t.sextImm i))
/-- VANDI (R137). -/
def execVandi (d a i : BitVec 8) (s : State) : Result := s.elementwise1 .any d a (fun t _ x => x &&& t.sextImm i)
/-- VORI (R137). -/
def execVori (d a i : BitVec 8) (s : State) : Result := s.elementwise1 .any d a (fun _ _ x => x ||| i.toNat)
/-- VMULI (R137). -/
def execVmuli (d a i : BitVec 8) (s : State) : Result := s.elementwise1 .int d a (fun t m x => t.mul m x (t.sextImm i))
/-- VSHLI (R137). -/
def execVshli (d a : BitVec 8) (i : BitVec 6) (s : State) : Result := s.elementwise1 .int d a (fun t _ x => t.shl x i.toNat)
/-- VSHRI (R137). -/
def execVshri (d a : BitVec 8) (i : BitVec 6) (s : State) : Result := s.elementwise1 .int d a (fun t _ x => t.shr x i.toNat)
/-- VSRAI (R137). -/
def execVsrai (d a : BitVec 8) (i : BitVec 6) (s : State) : Result := s.elementwise1 .int d a (fun t _ x => t.sra x i.toNat)
/-- VDIV (R138). -/
def execVdiv (d a b : BitVec 8) (s : State) : Result := s.elementwise2 .any d a b EType.quot

/-- The exact sum of d and the four products of a lane (R138). -/
def dotFloat (f : Fmt) (m : FloatMode) (t : EType) (a b d : Nat) : Nat :=
  let terms := (List.range 4).map (fun e => (f.input m.ftz (t.elem a e)).mul (f.input m.ftz (t.elem b e)))
  Fmt.f32.round m.rnd m.ftz (terms.foldl (fun acc p => acc.add m.rnd p) (Fmt.f32.input m.ftz d))

/-- VDOT4 (R138). -/
def execVdot4 (d a b : BitVec 8) (s : State) : Result :=
  s.vectorOp (.only [7, 8, 12, 13]) [a, b, d] d (fun g m l =>
    let t := etype (modeEtype m)
    let x := g.src a l
    let y := g.src b l
    let z := g.src d l
    match t.fmt with
    | some f => dotFloat f (floatMode m) t x y z
    | none =>
      let rd := fun v e => intRead t.signed 8 (t.elem v e)
      wrapTo 32 ((List.range 4).foldl (fun acc e => acc + rd x e * rd y e) (z : Int)))

/-- VADDC: the carry goes through M15 (R138). -/
def execVaddc (d a b : BitVec 8) (s : State) : Result :=
  s.issueGang (s.here.vectorDemand (.only [0, 1]) [a, b] [d]) (fun g =>
    let sum := fun l => g.src a l + g.src b l + (if (g.mask 15).getLsbD l then 1 else 0)
    (g.writeLanes g.active d.toNat (fun l => sum l % 2 ^ 32)).writeMask 15 g.active
      (BitVec.ofNat 64 (maskOf (g.active.filter (fun l => decide (2 ^ 32 ≤ sum l))))))

/-- VMULW: the whole product in the pair from an even Vd (R138). -/
def execVmulw (d a b : BitVec 8) (s : State) : Result :=
  let dem := s.here.vectorDemand (.only [0, 1]) [a, b] []
  s.issueGang { dem with illegal := dem.illegal || d.toNat % 2 == 1, writes := [d.toNat, d.toNat + 1] } (fun g =>
    g.active.foldl (fun acc l =>
      let rd := intRead (modeEtype (g.laneMode l) == 0) 32
      acc.setOperand true d.toNat l (wrapTo 64 (rd (g.src a l) * rd (g.src b l)))) g)

/-! ## Compare, classify, test, select (R139 to R142) -/

/-- A form that writes mask bits of the active lanes from a predicate on the lane. -/
def State.maskCompare (s : State) (dem : Demand) (m : BitVec 4) (p : Gang → Word → Nat → Bool) : Result :=
  s.issueGang dem (fun g => g.writeMask m.toNat g.active
    (BitVec.ofNat 64 (maskOf (g.active.filter (fun l => p g (g.laneMode l) l)))))

/-- A compare condition on two integers (R139). -/
def intCond (c : Nat) (x y : Int) : Bool :=
  match c with
  | 0 => decide (x = y)
  | 1 => decide (x ≠ y)
  | 2 => decide (x < y)
  | 3 => decide (x ≤ y)
  | 4 => decide (x > y)
  | _ => decide (x ≥ y)

/-- A compare condition on two values (R139). -/
def numCond (c : Nat) (x y : Num) : Bool :=
  match c with
  | 0 => x.eq y
  | 1 => !x.eq y
  | 2 => x.lt y
  | 3 => x.lt y || x.eq y
  | 4 => y.lt x
  | 5 => y.lt x || x.eq y
  | 6 => x.isNan || y.isNan
  | _ => !(x.isNan || y.isNan)

/-- Whether a condition holds for every element of a lane. -/
def EType.compare (t : EType) (c : Nat) (signed : Bool) (ftz : Bool) (x y : Nat → Nat) : Bool :=
  (List.range t.count).all (fun e =>
    match t.fmt with
    | none => intCond c (intRead signed t.width (x e)) (intRead signed t.width (y e))
    | some f => numCond c (f.input ftz (x e)) (f.input ftz (y e)))

/-- The demand of a compare: conditions 6 and 7 need FLT, and 8 to 15 are reserved (R139). -/
def Gang.compareDemand (g : Gang) (acc : Accepts) (c : BitVec 4) (reads : List (BitVec 8)) : Demand :=
  let dem := g.vectorDemand acc reads []
  { dem with illegal := dem.illegal || decide (8 ≤ c.toNat) ||
      (decide (6 ≤ c.toNat) && g.members.any (fun sl => (etype (modeEtype (g.modeOf sl))).fmt == none)) }

/-- VCMP (R139). -/
def execVcmp (c m : BitVec 4) (a b : BitVec 8) (s : State) : Result :=
  s.maskCompare (s.here.compareDemand .any c [a, b]) m (fun g md l =>
    let t := etype (modeEtype md)
    t.compare c.toNat t.signed (modeFtz md) (t.elem (g.src a l)) (t.elem (g.src b l)))

/-- VCMPN: both operands unsigned (R139). -/
def execVcmpn (c m : BitVec 4) (a b : BitVec 8) (s : State) : Result :=
  s.maskCompare (s.here.compareDemand .int c [a, b]) m (fun g md l =>
    let t := etype (modeEtype md)
    t.compare c.toNat false false (t.elem (g.src a l)) (t.elem (g.src b l)))

/-- VCMPI (R139). -/
def execVcmpi (c m : BitVec 4) (a i : BitVec 8) (s : State) : Result :=
  s.maskCompare (s.here.compareDemand .int c [a]) m (fun g md l =>
    let t := etype (modeEtype md)
    t.compare c.toNat t.signed false (t.elem (g.src a l)) (fun _ => t.sextImm i))

/-- The class of an element's bits as a bit of the class set, or none for a NaN (R140). -/
def Fmt.classOf (f : Fmt) (x : Nat) : Option Nat :=
  match f.decode x with
  | .nan => none
  | .inf s => some (if s then 0 else 7)
  | .fin s n _ =>
    if n = 0 then some (if s then 3 else 4)
    else if f.isTiny x then some (if s then 2 else 5)
    else some (if s then 1 else 6)

/-- VCLASS (R140). -/
def execVclass (n : BitVec 1) (m : BitVec 4) (a : BitVec 8) (cls : BitVec 8) (s : State) : Result :=
  s.maskCompare (s.here.vectorDemand .flt [a] []) m (fun g md l =>
    let t := etype (modeEtype md)
    (List.range t.count).all (fun e =>
      match (t.fmt.getD .f32).classOf (t.elem (g.src a l) e) with
      | none => n == 1
      | some k => cls.getLsbD k))

/-- VTEST: NZ where `z` is 0, Z where it is 1 (R141). -/
def execVtest (z : BitVec 1) (m : BitVec 4) (a b : BitVec 8) (s : State) : Result :=
  s.maskCompare (s.here.vectorDemand .any [a, b] []) m (fun g _ l =>
    ((g.src a l &&& g.src b l) == 0) == (z == 1))

/-- VSEL: the guard chooses the value in every lane whose EXEC bit is 1 (R142). -/
def execVsel (d a b : BitVec 8) (s : State) : Result :=
  s.issueGang (s.here.vectorDemand .any [a, b] [d]) (fun g =>
    g.writeLanes g.execLanes d.toNat (fun l => if g.guardSelects l then g.src a l else g.src b l))

/-- VMOV (R142). -/
def execVmov (d a : BitVec 8) (s : State) : Result := s.vectorOp .any [a] d (fun g _ l => g.src a l)
/-- VNEG (R142). -/
def execVneg (d a : BitVec 8) (s : State) : Result := s.elementwise1 .any d a (fun t _ => t.neg)
/-- VABS (R142). -/
def execVabs (d a : BitVec 8) (s : State) : Result := s.elementwise1 .any d a (fun t _ => t.abs)

/-! ## Unary forms (R143) -/

/-- VNOT (R143). -/
def execVnot (d a : BitVec 8) (s : State) : Result :=
  s.vectorOp .any [a] d (fun g _ l => (if g.wideLane l then 2 ^ 64 - 1 else 2 ^ 32 - 1) - g.src a l)
/-- VPOPC (R143). -/
def execVpopc (d a : BitVec 8) (s : State) : Result := s.elementwise1 .int d a (fun t _ => popCount t.width)
/-- VCLZ (R143). -/
def execVclz (d a : BitVec 8) (s : State) : Result := s.elementwise1 .int d a (fun t _ => leadingZeros t.width)
/-- VBREV (R143). -/
def execVbrev (d a : BitVec 8) (s : State) : Result := s.elementwise1 .int d a (fun t _ => reverseBits t.width)
/-- VFLOOR (R143). -/
def execVfloor (d a : BitVec 8) (s : State) : Result := s.elementwise1 .flt d a (fun t => t.integral (some .rdn))
/-- VCEIL (R143). -/
def execVceil (d a : BitVec 8) (s : State) : Result := s.elementwise1 .flt d a (fun t => t.integral (some .rup))
/-- VTRUNC (R143). -/
def execVtrunc (d a : BitVec 8) (s : State) : Result := s.elementwise1 .flt d a (fun t => t.integral (some .rtz))
/-- VRINT (R143). -/
def execVrint (d a : BitVec 8) (s : State) : Result := s.elementwise1 .flt d a (fun t => t.integral none)
/-- VFRAC (R143). -/
def execVfrac (d a : BitVec 8) (s : State) : Result := s.elementwise1 .flt d a EType.frac
/-- VSQRT (R143). -/
def execVsqrt (d a : BitVec 8) (s : State) : Result := s.elementwise1 .flt d a EType.sqrt

end Sys2Proof.Machine
end

