-- ==== Sys2Proof/Machine/LoadStore.lean ====
section
/-! DEFINITION. Vector memory forms up to their issue: addresses, checks and the operation they start (R253 to
R263).  What happens to the operation afterwards stands in Machine/MemoryEvents.lean. -/

namespace Sys2Proof.Machine

/-! ## Addresses and checks (R253, R257, R259) -/

/-- One lane's access as a word asks for it: its virtual address or offset, and its operands. -/
structure LaneReq where
  lane : Nat
  va : Nat
  size : Nat
  data : Nat := 0
  cmp : Nat := 0
  mode : Word := 0
  elem : Int := 0
  rank : Nat := 0
  deriving DecidableEq, Repr

/-- lane_address of R253 for the forms that scale by the access size. -/
def Gang.laneAddress (g : Gang) (x : BitVec 8) (b : BitVec 4) (size lane : Nat) : Nat :=
  let n := signedOf 32 (g.vword x.toNat lane).toNat
  let n := if modeIxs (g.laneMode lane) then n * size else n
  wrapTo 64 ((g.sreg (lane / 4) b.toNat).toNat + n)

/-- The least of a list of addresses. -/
def least : List Nat → Nat
  | [] => 0
  | a :: rest => rest.foldl min a

/-- Whose range locks the accesses of a gang meet: those of its carve-out, or of its tenant's addresses (R284); the
supervisor's physical addresses are nobody else's. -/
def State.lockOwner (s : State) (g : Gang) (scratch : Bool) : Nat :=
  if scratch then g.carveKey else if g.isSupervisor then 16 else s.tenantOf g

/-- Whether bytes of an access meet a range locked against it (R259, R284). -/
def State.lockHit (s : State) (g : Gang) (scratch writes : Bool) (addr size : Nat) : Bool :=
  (s.core g.core).locks.any (fun l =>
    l.scratch == scratch && l.owner == s.lockOwner g scratch && (writes || l.kind == 2) &&
      decide (addr < l.high) && decide (l.low < addr + size))

/-- Steps 2 to 5 of R257 over the lanes of a global word: MISALIGN, XLATE, PERM, RANGELOCK, each with its lowest
address; or the lanes with their physical addresses.  Poison in the tables that a lane's walk reads comes before them (R391). -/
def State.checkGlobal (s : State) (g : Gang) (kind : AccessKind) (locks : Bool) (l : List LaneReq) :
    Except (Cause × Nat) (List LaneAcc) :=
  let bad := fun (p : LaneReq → Bool) => (l.filter p).map LaneReq.va
  let mis := bad (fun r => r.va % r.size != 0)
  let tr := fun (r : LaneReq) => s.translate g r.va kind
  let xl := bad (fun r => match tr r with
    | .error .xlate => true
    | _ => false)
  let pe := bad (fun r => match tr r with
    | .error .perm => true
    | _ => false)
  let lk := bad (fun r => locks && s.lockHit g false (kind != .load) r.va r.size)
  let un := bad (fun r => match tr r with
    | .error .uncorr => true
    | _ => false)
  if !mis.isEmpty then .error (.misalign, least mis)
  else if !un.isEmpty then .error (.uncorr, least un)
  else if !xl.isEmpty then .error (.xlate, least xl)
  else if !pe.isEmpty then .error (.perm, least pe)
  else if !lk.isEmpty then .error (.rangelock, least lk)
  else .ok (l.filterMap (fun r => match tr r with
    | .ok a => some { lane := r.lane, addr := a, size := r.size, data := r.data, cmp := r.cmp, mode := r.mode, elem := r.elem }
    | .error _ => none))

/-- The TLBs filled for every address of a word. -/
def State.fillAll (s : State) (g : Gang) (l : List LaneReq) : State := l.foldl (fun s r => s.fillFor g r.va) s

/-- The widest MODE.SCOPE of the participating slices (R256). -/
def Gang.widestScope (g : Gang) : Nat := g.members.foldl (fun m sl => max m (modeScope (g.modeOf sl))) 0

/-- An operation of the gang on the pipe at its present word. -/
def State.freshOp (s : State) (kind : OpKind) (scope : Nat) (flag : Option Nat) (lanes : List LaneAcc) : MemOp :=
  { id := 0, core := s.here.core, slot := s.here.slot, kind := kind, scope := scope, flag := flag, lanes := lanes
    narrow := s.here.narrow, seed := s.here.seed, pc := s.here.wordPc, word := s.wordHere, index := s.here.wordIndex
    slice := s.here.members.headD 0 }

/-- Whether a core's L1 holds a copy of a line that a gang's load of a class at a scope may use (R231 to R233, R235, R238). -/
def State.hitsL1 (s : State) (g : Gang) (cls : LoadClass) (scope line : Nat) : Bool :=
  match (s.core g.core).l1.find line with
  | none => false
  | some c => cls == .weak || (!(cls == .acquire && scope == 2) && decide (g.askTime cls scope ≤ c.rts) &&
      decide (Table.get 0 g.floors line ≤ c.wts))

/-- The lines that the loads of a core have missed and that have not come yet, and those that its stores wait to fill: the
entries of its miss table (R219, R229). -/
def State.missLines (s : State) (core : Nat) : List Nat :=
  (s.ops.flatMap (fun o => match o.kind with
    | .load cls _ _ =>
      if o.core = core then
        o.lines.filter (fun l => (o.served.find l).isNone && !(match s.gang o.core o.slot with
          | some g => s.hitsL1 g cls o.scope l
          | none => false))
      else []
    | _ => []) ++ ((s.core core).fifo.filter (fun e => e.unfilled.isSome)).map FifoItem.line).eraseDups

/-- The lines of an access of a class that its core's L1 misses: all that a load reads, and those of which a store writes a
part (R219, R229). -/
def State.newMisses (s : State) (g : Gang) (kind : AccessKind) (cls : LoadClass) (scope : Nat) (accs : List LaneAcc) : List Nat :=
  if kind = .atomic then []
  else (accs.map (fun a => a.addr / 64)).eraseDups.filter (fun l => !s.hitsL1 g cls scope l &&
    (kind == .load || (regionOf (64 * l) != .peer && (laneBytes accs l).1 != BitVec.allOnes 64)))

/-- Whether an access finds no room in the 64-entry miss table of its core, and so waits at issue (R15, R219).  One that
needs more entries than there are has the table to itself. -/
def State.missTableFull (s : State) (g : Gang) (kind : AccessKind) (cls : LoadClass) (scope : Nat) (accs : List LaneAcc) : Bool :=
  let miss := s.missLines g.core
  let more := (s.newMisses g kind cls scope accs).filter (fun l => !miss.contains l)
  !more.isEmpty && !miss.isEmpty && decide (64 < miss.length + more.length)

/-- A global vector word: its R81 causes, a full flag, no active lane (R258), the checks of R257, a full miss table, then
the operation that `start` makes of its lanes. -/
def State.globalWord (s : State) (dem : Demand) (kind : AccessKind) (cls : LoadClass) (lanes : Gang → List LaneReq)
    (start : State → List LaneAcc → State) : Result :=
  s.issue dem (fun s =>
    let g := s.here
    if g.flagFull dem.flag then s.stall
    else
      let l := lanes g
      if l.isEmpty then s.done
      else if l.any (fun r => s.walkWaits g r.va) then s.stall
      else
        let s := s.fillAll g l
        match s.checkGlobal g kind true l with
        | .error (c, a) => s.addressFault c a
        | .ok accs => if s.missTableFull g kind cls g.widestScope accs then s.stall else (start s accs).done)

/-! ## Loads (R261) -/

/-- The access size of LD, ST and their variants under a MODE (R254). -/
def plainSize (m : Word) : Nat := if wideEtype (modeEtype m) then 8 else 4

/-- The demand of a vector load into Vd or store from Vd under the pair rule. -/
def Gang.pairDemand (g : Gang) (load : Bool) (d x : BitVec 8) (f : BitVec 4) : Demand :=
  { illegal := g.oddPair d.toNat || (load && isT d.toNat), flag := f
    reads := if load then [x.toNat] else x.toNat :: g.spans d.toNat
    writes := if load then g.spans d.toNat else [] }

/-- The demand of the byte and halfword forms: no 64-bit ETYPE (R254). -/
def Gang.narrowDemand (g : Gang) (load : Bool) (d x : BitVec 8) (f : BitVec 4) : Demand :=
  { illegal := g.anyWide || (load && isT d.toNat), flag := f
    reads := if load then [x.toNat] else [x.toNat, d.toNat]
    writes := if load then [d.toNat] else [] }

/-- The demand of LDD and STD: the pair Vd, Vd+1 under every ETYPE (R254). -/
def doubleDemand (load : Bool) (d x : BitVec 8) (f : BitVec 4) : Demand :=
  { illegal := d.toNat % 2 == 1 || (load && isT d.toNat), flag := f
    reads := if load then [x.toNat] else [x.toNat, d.toNat, d.toNat + 1]
    writes := if load then [d.toNat, d.toNat + 1] else [] }

/-- The lanes of a load. -/
def Gang.loadLanes (g : Gang) (x : BitVec 8) (b : BitVec 4) (size : Word → Nat) : List LaneReq :=
  g.active.map (fun l => { lane := l, va := g.laneAddress x b (size (g.laneMode l)) l, size := size (g.laneMode l), mode := g.laneMode l })

/-- A load form. -/
def State.loadWord (s : State) (dem : Demand) (cls : LoadClass) (form : LoadForm) (d x : BitVec 8) (b : BitVec 4)
    (size : Word → Nat) : Result :=
  s.globalWord dem .load cls (fun g => g.loadLanes x b size) (fun s accs =>
    s.startOp (s.freshOp (.load cls form d.toNat) s.here.widestScope (flagOf dem.flag) accs))

/-- LD (R261). -/
def execLd (d x : BitVec 8) (b f : BitVec 4) (s : State) : Result :=
  s.loadWord (s.here.pairDemand true d x f) .relaxed .pair d x b plainSize
/-- LDA: one acquire for the whole word (R261). -/
def execLda (d x : BitVec 8) (b f : BitVec 4) (s : State) : Result :=
  s.loadWord (s.here.pairDemand true d x f) .acquire .pair d x b plainSize
/-- LDW (R261, R233). -/
def execLdw (d x : BitVec 8) (b f : BitVec 4) (s : State) : Result :=
  s.loadWord (s.here.pairDemand true d x f) .weak .pair d x b plainSize
/-- LDNT: LD but for placement (R225, R261). -/
def execLdnt (d x : BitVec 8) (b f : BitVec 4) (s : State) : Result :=
  s.loadWord (s.here.pairDemand true d x f) .relaxed .pair d x b plainSize
/-- LDB (R261). -/
def execLdb (d x : BitVec 8) (b f : BitVec 4) (s : State) : Result :=
  s.loadWord (s.here.narrowDemand true d x f) .relaxed .zext d x b (fun _ => 1)
/-- LDBS (R261). -/
def execLdbs (d x : BitVec 8) (b f : BitVec 4) (s : State) : Result :=
  s.loadWord (s.here.narrowDemand true d x f) .relaxed .sext d x b (fun _ => 1)
/-- LDH (R261). -/
def execLdh (d x : BitVec 8) (b f : BitVec 4) (s : State) : Result :=
  s.loadWord (s.here.narrowDemand true d x f) .relaxed .zext d x b (fun _ => 2)
/-- LDHS (R261). -/
def execLdhs (d x : BitVec 8) (b f : BitVec 4) (s : State) : Result :=
  s.loadWord (s.here.narrowDemand true d x f) .relaxed .sext d x b (fun _ => 2)
/-- LDD (R261). -/
def execLdd (d x : BitVec 8) (b f : BitVec 4) (s : State) : Result :=
  s.loadWord (doubleDemand true d x f) .relaxed .pair d x b (fun _ => 8)

/-! ## Stores (R261) -/

/-- The lanes of a store; `pair` reads the pair of Vd where the size is 8. -/
def Gang.storeLanes (g : Gang) (d x : BitVec 8) (b : BitVec 4) (size : Word → Nat) : List LaneReq :=
  g.active.map (fun l =>
    let n := size (g.laneMode l)
    { lane := l, va := g.laneAddress x b n l, size := n, data := g.operand (n == 8) d.toNat l, mode := g.laneMode l })

/-- A store form: its bytes are written at once unless an earlier access of the gang holds it back (R229, R232). -/
def State.storeWord (s : State) (dem : Demand) (release weak : Bool) (d x : BitVec 8) (b : BitVec 4) (size : Word → Nat) :
    Result :=
  s.globalWord dem .store (if weak then .weak else .relaxed) (fun g => g.storeLanes d x b size) (fun s accs =>
    (s.startOp (s.freshOp (.store release weak) s.here.widestScope (flagOf dem.flag) accs)).settle s.here.key)

/-- ST (R261). -/
def execSt (d x : BitVec 8) (b f : BitVec 4) (s : State) : Result :=
  s.storeWord (s.here.pairDemand false d x f) false false d x b plainSize
/-- STL: the steps of R230 once for the word (R261). -/
def execStl (d x : BitVec 8) (b f : BitVec 4) (s : State) : Result :=
  s.storeWord (s.here.pairDemand false d x f) true false d x b plainSize
/-- STW (R233, R261). -/
def execStw (d x : BitVec 8) (b f : BitVec 4) (s : State) : Result :=
  s.storeWord (s.here.pairDemand false d x f) false true d x b plainSize
/-- STNT: ST but for placement (R225, R261). -/
def execStnt (d x : BitVec 8) (b f : BitVec 4) (s : State) : Result :=
  s.storeWord (s.here.pairDemand false d x f) false false d x b plainSize
/-- STB (R261). -/
def execStb (d x : BitVec 8) (b f : BitVec 4) (s : State) : Result :=
  s.storeWord (s.here.narrowDemand false d x f) false false d x b (fun _ => 1)
/-- STH (R261). -/
def execSth (d x : BitVec 8) (b f : BitVec 4) (s : State) : Result :=
  s.storeWord (s.here.narrowDemand false d x f) false false d x b (fun _ => 2)
/-- STD (R261). -/
def execStd (d x : BitVec 8) (b f : BitVec 4) (s : State) : Result :=
  s.storeWord (doubleDemand false d x f) false false d x b (fun _ => 8)

/-! ## Scratchpad and peer forms (R217, R224, R251, R262) -/

/-- The 4-byte words of a scratchpad access: first word index and count. -/
def LaneAcc.word (a : LaneAcc) (high : Bool) : Nat := a.addr / 4 + (if high then 1 else 0)

/-- The block key that a peer rank names for a gang. -/
def State.peerKey (s : State) (g : Gang) (rank : Nat) : Nat :=
  if rank = (s.block g.block).rank then g.block else ((s.block g.block).peers.find rank).getD g.block

/-- The carve-out that a lane of a scratchpad operation reaches. -/
def State.laneCarve (s : State) (o : MemOp) (peer : Bool) (a : LaneAcc) : Carve :=
  match s.gang o.core o.slot with
  | none => .block 0
  | some g => if peer then .block (s.peerKey g a.rank) else g.carve

/-- Whether a lane's scratchpad address is in violation at issue (R224).  The carve-outs of a cluster's blocks are of one size,
which counts for a target that has ended and gone. -/
def State.scratchBad (s : State) (g : Gang) (peer : Bool) (va size : Nat) : Bool :=
  if peer then
    let b := s.block g.block
    va / 2 ^ 22 != 0 || decide (b.ranks ≤ field va 20 2) ||
      decide ((((s.blocks.find (s.peerKey g (field va 20 2))).map Block.scratchSize).getD b.scratchSize) < va % 2 ^ 20 + size)
  else va / 2 ^ 20 != 0 || decide (s.carveSize g.carve < va + size)

/-- The scratchpad bank of a word, with or without the swizzle (R216). -/
def bankOf (swz : Bool) (word : Nat) : Nat := if swz then (word % 64) ^^^ (word / 16 % 64) else word % 64

/-- The extra bank cycles of an access to a list of words: c − 1 (R216). -/
def extraCycles (swz : Bool) (words : List Nat) : Nat :=
  let d := words.eraseDups
  (List.range 64).foldl (fun m b => max m (d.filter (fun w => bankOf swz w == b)).length) 0 - 1

/-- A scratchpad word: SCRATCH lanes are switched off first and stay off (R257 step 1); then MISALIGN and
RANGELOCK over the other active lanes.  The block's own rank names its own carve-out (R217), rank 4 here. -/
def State.scratchWord (s : State) (dem : Demand) (peer load : Bool) (lanes : Gang → List LaneReq) (kind : OpKind) : Result :=
  s.issue dem (fun s =>
    let g := s.here
    if g.flagFull dem.flag then s.stall
    else
      let l := lanes g
      let off := l.filter (fun r => s.scratchBad g peer r.va r.size)
      let l := l.filter (fun r => !s.scratchBad g peer r.va r.size)
      let s := s.onHere (fun g => off.foldl (fun g r => g.laneFault r.lane .scratch) g)
      let mis := (l.filter (fun r => r.va % r.size != 0)).map LaneReq.va
      let lk := (l.filter (fun r => !peer && s.lockHit g true (!load) r.va r.size)).map LaneReq.va
      if !mis.isEmpty then s.precise .misalign (least mis)
      else if !lk.isEmpty then s.precise .rangelock (least lk)
      else if l.isEmpty then s.done
      else
        let words := l.flatMap (fun r => if r.size = 8 then [r.va / 4, r.va / 4 + 1] else [r.va / 4])
        let s := if peer then s else s.count g.core 12 (extraCycles (s.launch (s.block g.block).launch).swz words)
        (s.startOp (s.freshOp kind 1 (flagOf dem.flag) (l.map (fun r =>
          { lane := r.lane, addr := r.va % 2 ^ 20, size := r.size, data := r.data, mode := r.mode
            rank := if peer && field r.va 20 2 != (s.block g.block).rank then field r.va 20 2 else 4 })))).done)

/-- LDS (R262). -/
def execLds (d x : BitVec 8) (b f : BitVec 4) (s : State) : Result :=
  s.scratchWord (s.here.pairDemand true d x f) false true (fun g => g.loadLanes x b plainSize) (.scratchLoad .pair d.toNat)
/-- STS (R262). -/
def execSts (d x : BitVec 8) (b f : BitVec 4) (s : State) : Result :=
  s.scratchWord (s.here.pairDemand false d x f) false false (fun g => g.storeLanes d x b plainSize) .scratchStore
/-- LDP (R217, R262). -/
def execLdp (d x : BitVec 8) (b f : BitVec 4) (s : State) : Result :=
  s.scratchWord (s.here.pairDemand true d x f) true true (fun g => g.loadLanes x b plainSize) (.scratchLoad .pair d.toNat)
/-- STP (R217, R262). -/
def execStp (d x : BitVec 8) (b f : BitVec 4) (s : State) : Result :=
  s.scratchWord (s.here.pairDemand false d x f) true false (fun g => g.storeLanes d x b plainSize) .scratchStore

/-! ### Performing scratchpad words (R218, R251, R255) -/

/-- Whether a word of a lane is done. -/
def MemOp.wordDone (o : MemOp) (a : LaneAcc) (high : Bool) : Bool :=
  if high then o.doneHi.getLsbD a.lane else o.doneLo.getLsbD a.lane

/-- Whether an access has a high word. -/
def LaneAcc.hasHigh (a : LaneAcc) : Bool := a.size == 8

/-- Whether every word of every lane of an operation is done. -/
def MemOp.allDone (o : MemOp) : Bool := o.lanes.all (fun a => o.wordDone a false && (!a.hasHigh || o.wordDone a true))

/-- Whether an earlier access of the gang to the same scratchpad word is not performed yet (R251). -/
def State.scratchEarlier (s : State) (o : MemOp) (a : LaneAcc) (high : Bool) : Bool :=
  s.ops.any (fun p => p.gang == o.gang && decide (p.id < o.id) && p.lanes.any (fun q =>
    decide (q.rank ≤ 4) && q.rank == a.rank &&
      (match p.kind with
        | .scratchLoad _ _ => true
        | .scratchStore => true
        | _ => false) &&
      ((q.word false == a.word high && !p.wordDone q false) || (q.hasHigh && q.word true == a.word high && !p.wordDone q true))))

/-- A word of a lane marked done. -/
def MemOp.markWord (o : MemOp) (lane : Nat) (high : Bool) : MemOp :=
  let bit : LaneMask := BitVec.ofNat 64 (2 ^ lane)
  if high then { o with doneHi := o.doneHi ||| bit } else { o with doneLo := o.doneLo ||| bit }

/-- Whether a poisoned word of a carve-out is read (R398). -/
def State.scratchPoisoned (s : State) (c : Carve) (word : Nat) : Bool :=
  match c with
  | .supervisor n => (s.core n).supPoison.contains word
  | .block k => (s.block k).poison.contains word

/-- The poison of a scratchpad word cleared by a store of all its bytes (R398). -/
def State.clearPoison (s : State) (c : Carve) (word : Nat) : State :=
  match c with
  | .supervisor n => let c := s.core n; s.setCore n { c with supPoison := c.supPoison.filter (fun w => w != word) }
  | .block k => let b := s.block k; s.setBlock k { b with poison := b.poison.filter (fun w => w != word) }

/-- Whether a carve-out belongs to a peer that has ended (R218), or has left its core at the end of a phase (R47, R48): the model
takes such a peer as ended (DESIGN CHOICE, log entry 78). -/
def State.peerEnded (s : State) : Carve → Bool
  | .supervisor _ => false
  | .block k => ((s.blocks.find k).map Block.ended).getD true

/-- One word of one lane of a scratchpad operation performed at its bank; at an ended peer the lane takes
PEERGONE, once (R218, R224).  The second result tells that poison was read (R399). -/
def State.scratchPerform (s : State) (o : MemOp) (a : LaneAcc) (high : Bool) : State × Bool :=
  let peer := decide (a.rank < 4)
  let c := s.laneCarve o peer a
  let w := a.word high
  if peer && s.peerEnded c then (if high then s else s.onGang o.core o.slot (fun g => g.laneFault a.lane .peergone), false)
  else match o.kind with
    | .scratchLoad _ dest =>
      (s.onGang o.core o.slot (fun g => g.setV (dest + (if high then 1 else 0)) a.lane (BitVec.ofNat 32 (s.sread c (4 * w) 4))),
        s.scratchPoisoned c w)
    | _ =>
      let covered := o.lanes.any (fun q => decide (a.lane < q.lane) && q.rank == a.rank &&
        (q.word false == w || (q.hasHigh && q.word true == w)))
      if covered then (s, false)
      else (((s.swrite c (4 * w) 4 (field a.data (if high then 32 else 0) 32)).clearPoison c w).touch c (4 * w) (4 * w + 4), false)

/-- Whether two words of an operation are performed in one step: a lane's two words at a peer, which its access reaches
once (R218), and stored words of one aligned 16 bytes, which may be a barrier object (R281). -/
def MemOp.together (o : MemOp) (x y : LaneAcc × Bool) : Bool :=
  (decide (x.1.rank < 4) && x.1.lane == y.1.lane) ||
    (o.kind == .scratchStore && x.1.rank == y.1.rank && x.1.word x.2 / 4 == y.1.word y.2 / 4) ||
    (x.1.lane == y.1.lane && x.2 == y.2)

/-- The words of a scratchpad operation, each a lane's low or high word: low words, then high words, in lane order. -/
def MemOp.words (o : MemOp) : List (LaneAcc × Bool) :=
  o.lanes.map (fun a => (a, false)) ++ (o.lanes.filter LaneAcc.hasHigh).map (fun a => (a, true))

/-- The words of a scratchpad operation that may be performed now, of those named and of those that go with them; none
while an acquire or a fence of the gang holds them back (R232, R236).  Once the operation is complete, the gang's writes that
waited for it go on (R230). -/
def State.scratchTurn (s : State) (id : Nat) (lo hi : LaneMask) : State × Bool :=
  match s.opAt id with
  | none => (s, false)
  | some o =>
    if s.held o then (s, false)
    else
      let named := o.words.filter (fun e => (if e.2 then hi else lo).getLsbD e.1.lane)
      let step := fun (acc : State × Bool) (e : LaneAcc × Bool) =>
        match acc.1.opAt id with
        | none => acc
        | some o =>
          let unit := o.words.filter (fun x => o.together e x && !o.wordDone x.1 x.2)
          if unit.any (fun x => acc.1.scratchEarlier o x.1 x.2) then acc
          else unit.foldl (fun (acc : State × Bool) x =>
            match acc.1.opAt id with
            | none => acc
            | some o =>
              let (s, p) := acc.1.scratchPerform o x.1 x.2
              (s.setOp (o.markWord x.1.lane x.2), acc.2 || p)) acc
      let (s, p) := named.foldl step (s, false)
      match s.opAt id with
      | none => (s, p)
      | some o => if o.allDone then ((s.completeOp o).settle o.gang, p) else (s, p)

/-- The lanes of a scratchpad operation that act on the gang's own carve-out. -/
def MemOp.ownLanes (o : MemOp) : LaneMask :=
  (o.lanes.filter (fun a => a.rank == 4)).foldl (fun m a => m ||| BitVec.ofNat 64 (2 ^ a.lane)) 0

/-- The operations of a gang that act on its own carve-out, be it with some lanes only, oldest first. -/
def State.scratchOps (s : State) (key : Nat) : List MemOp :=
  s.ops.filter (fun o => o.gang == key && (match o.kind with
    | .scratchLoad _ _ => true
    | .scratchStore => true
    | _ => false) && o.ownLanes != 0)

/-- The gang's accesses to its own carve-out performed, before a form that reads or writes it at issue; one that reads
poison is left to its own turn, which kills the gang. -/
def State.flushScratch (s : State) (key : Nat) : State :=
  (s.scratchOps key).foldl (fun s o =>
    let (t, poison) := s.scratchTurn o.id o.ownLanes o.ownLanes
    if poison then s else t) s

/-! ## Formatted loads (R263) -/

/-- The tile header at an offset of a carve-out, as a tag; none where VALID is 0 or FMT is not 6 or 7 (R117). -/
def State.headerTag (s : State) (c : Carve) (off : Nat) : Option Tag :=
  let w := s.sread c (off + 8) 8
  if bitOf w 6 && (field w 0 5 == 6 || field w 0 5 == 7) then
    some ⟨BitVec.ofNat 64 (s.sread c off 8), field w 0 5, field w 5 1, s.sread c (off + 16) 4, s.sread c (off + 20) 4⟩
  else none

/-- Bits of an element under a tag. -/
def Tag.bits (t : Tag) : Nat := if t.fmt = 6 then 4 else 8

/-- The byte of element `n` from a base: base + ⌊n × w / 8⌋. -/
def elemByte (base : Nat) (w : Nat) (n : Int) : Nat := wrapTo 64 ((base : Int) + n * (w : Int) / 8)

/-- The tag that a relaxed load of a gang would find with a line: in the copy that it would use, else at the line's home
(R116). -/
def State.lineTag (s : State) (g : Gang) (line : Nat) : Option Tag :=
  match s.usable g.core line false false g.atsNow (Table.get 0 g.floors line) none with
  | some (c, _) => c.tag
  | none => (s.home line).tag

/-- The tag of the line that holds element `n` of a global tensor: the element is of 4 bits where the line it
would then lie in says sq4, else of 8 bits (log entry 22). -/
def State.elementTag (s : State) (g : Gang) (base : Nat) (n : Int) : Option Tag :=
  let at_ := fun (w : Nat) => match s.translate g (elemByte base w n) .load with
    | .ok a => (s.lineTag g (a / 64)).filter (fun t => t.bits == w)
    | .error _ => none
  match at_ 4 with
  | some t => some t
  | none => at_ 8

/-- The bit offset of element `n` in its first byte. -/
def nibble (t : Tag) (n : Int) : Nat := if t.fmt = 6 ∧ n % 2 = 1 then 4 else 0

/-- The value of element `n`, whose byte is `x`, under its tag (R105). -/
def Tag.decode (t : Tag) (n : Int) (x : Nat) : Num := decodeSq (t.fmt == 7) (field x (nibble t n) t.bits) t.record

/-- The word that a formatted load writes for a lane (R263), of the record and the value of its element and the value of
the next element. -/
def fmtResult (min lane : Nat) (mode : Word) (narrow seed record : Word64) (value next : Num) : Nat :=
  let m := floatMode mode
  match min with
  | 0 => Fmt.f32.round m.rnd m.ftz value
  | 1 => narrowTo 1 narrow 0 (8 * lane) seed value + 2 ^ 16 * narrowTo 1 narrow 0 (8 * lane + 1) seed next
  | 2 => field record.toNat 0 32
  | _ => field record.toNat 32 9

/-- A formatted load (R263).  Scratchpad lanes are read at issue.  The lines of global lanes are served at issue too, since
the tag that the precise check of R257 step 6 judges is that of the copy which gives the data; their registers are
written by later steps (R69). -/
def State.fmtWord (s : State) (min : Nat) (d x : BitVec 8) (b f : BitVec 4) : Result :=
  let dem := s.here.narrowDemand true d x f
  s.issue dem (fun s =>
    let g := s.here
    let base := fun l => (g.sreg (l / 4) b.toNat).toNat
    let idx := fun l => signedOf 32 (g.vword x.toNat l).toNat
    let inScratch := fun l => bitOf (base l) 63
    if g.flagFull dem.flag then s.stall
    else if g.active.any inScratch && s.wordHeld then s.stall
    else
      let s := if g.active.any inScratch then s.flushScratch g.key else s
      let g := s.here
      let header := fun l => s.headerTag g.carve (base l % 2 ^ 20 - 64)
      let width := fun l => ((header l).map Tag.bits).getD 4
      let bytes := fun l => if min = 1 ∧ width l = 8 then 2 else 1
      let offset := fun l => elemByte (base l % 2 ^ 20) (width l) (idx l)
      let bad := fun l => inScratch l && (field (base l) 20 43 != 0 || decide (base l % 2 ^ 20 < 64) ||
        decide (s.carveSize g.carve < base l % 2 ^ 20) || decide (s.carveSize g.carve < offset l + bytes l))
      let off := g.active.filter bad
      let lanes := g.active.filter (fun l => !bad l)
      let s := s.onHere (fun g => off.foldl (fun g l => g.laneFault l .scratch) g)
      let elems := if min = 1 then [0, 1] else [0]
      let bits := fun l (n : Int) => ((s.elementTag g (base l) n).map Tag.bits).getD 8
      let va := fun l (j : Int) => elemByte (base l) (bits l (idx l + j)) (idx l + j)
      let addr := fun l => if inScratch l then offset l else va l 0
      if lanes.isEmpty then s.done
      else
        let mis := if min = 1 then (lanes.filter (fun l => decide (idx l % 2 ≠ 0))).map addr else []
        let glob := lanes.filter (fun l => !inScratch l)
        let reqs := glob.flatMap (fun l => elems.map (fun j =>
          ({ lane := l, va := va l j, size := 1, mode := g.laneMode l, elem := idx l + j } : LaneReq)))
        if !mis.isEmpty then s.precise .misalign (least mis)
        else if reqs.any (fun r => s.walkWaits g r.va) then s.stall
        else
          let s := s.fillAll g reqs
          match s.checkGlobal g .load true reqs with
          | .error (c, a) => s.addressFault c a
          | .ok accs =>
            let local_ := lanes.filter inScratch
            let lk := (local_.filter (fun l => s.lockHit g true false (offset l) (bytes l))).map offset
            let lines := (accs.map (fun a => a.addr / 64)).eraseDups
            let probe := s.freshOp (.load .relaxed (.fmt min) d.toNat) 0 (flagOf f) accs
            if !lk.isEmpty then s.precise .rangelock (least lk)
            else if !lines.isEmpty && (s.wordHeld || s.missTableFull g .load .relaxed 0 accs ||
                lines.any (fun n => s.hostOwns n || s.lineWaits { probe with id := s.nextId } n)) then s.stall
            else
              let (got, t) := s.observeLines g g.atsNow lines
              let tagOf := fun (a : LaneAcc) => ((got.find (a.addr / 64)).bind LineData.tag)
              let badTag := local_.any (fun l => match header l with
                | none => true
                | some t => !recordOk t.record) || accs.any (fun a => match tagOf a with
                | none => true
                | some t => t.bits != bits a.lane a.elem || !recordOk t.record)
              let spoiled := got.any (fun e => e.2.poison) || local_.any (fun l => s.scratchPoisoned g.carve (offset l / 4) ||
                s.scratchPoisoned g.carve ((offset l + bytes l - 1) / 4) ||
                (List.range 6).any (fun i => s.scratchPoisoned g.carve ((base l % 2 ^ 20 - 64) / 4 + i)))
              if spoiled then s.killHere .uncorr
              else if badTag then s.precise .format
              else
                let own := fun l (j : Nat) => match header l with
                  | some t => t.decode (idx l + j) (s.sread g.carve (elemByte (base l % 2 ^ 20) (width l) (idx l + j)) 1)
                  | none => .nan
                let far := fun l (j : Int) => match accs.find? (fun a => a.lane == l && a.elem == idx l + j) with
                  | some a => (match tagOf a, got.find (a.addr / 64) with
                    | some t, some n => t.decode a.elem (lineField n.data (a.addr % 64) 1)
                    | _, _ => .nan)
                  | none => .nan
                let word := fun l (rec : Word64) (v n : Num) => fmtResult min l (g.laneMode l) g.narrow g.seed rec v n
                let t := t.onHere (fun h => local_.foldl (fun h l => h.setV d.toNat l (BitVec.ofNat 32
                  (word l (((header l).map Tag.record).getD 0) (own l 0) (own l 1)))) h)
                let firsts := accs.filter (fun a => a.elem == idx a.lane)
                if firsts.isEmpty then t.done
                else
                  let op := s.freshOp (.load .relaxed (.fmt min) d.toNat) 0 (flagOf f) (firsts.map (fun a =>
                    { a with data := word a.lane (((tagOf a).map Tag.record).getD 0) (far a.lane 0) (far a.lane 1) }))
                  (t.startOp { op with
                    served := got.map (fun e => (e.1, e.2.data))
                    tags := got.filterMap (fun e => e.2.tag.map (fun t => (e.1, t)))
                    wts := got.foldl (fun m e => max m e.2.wts) 0 }).done)

/-- LDF (R263). -/
def execLdf (d x : BitVec 8) (b f : BitVec 4) (s : State) : Result := s.fmtWord 0 d x b f
/-- LDF2 (R263). -/
def execLdf2 (d x : BitVec 8) (b f : BitVec 4) (s : State) : Result := s.fmtWord 1 d x b f
/-- LDFS (R263). -/
def execLdfs (d x : BitVec 8) (b f : BitVec 4) (s : State) : Result := s.fmtWord 2 d x b f
/-- LDFX (R263). -/
def execLdfx (d x : BitVec 8) (b f : BitVec 4) (s : State) : Result := s.fmtWord 3 d x b f

end Sys2Proof.Machine
end

