-- ==== Sys2Proof/Machine/Atomics.lean ====
section
/-! DEFINITION. Atomics and reductions up to their issue (R264, R256), and the operations that the homes apply
(R264, R268).  What happens at the home stands in Machine/MemoryEvents.lean. -/

namespace Sys2Proof.Machine

/-! ## The operations (R264, R268) -/

/-- The element types that an operation accepts: integer, floating, or every one (R264). -/
def AtomOp.accepts (op : AtomOp) (e : Nat) : Bool :=
  match op with
  | .add | .min | .max | .inc => e == 0 || e == 1 || e == 10 || e == 11
  | .fadd | .fmin | .fmax => e == 2 || e == 9
  | .minn | .maxn => false
  | _ => true

/-- op(v, x) over `8 × size` bits; `signed` for the i types; `cmp` is the compare value of CAS (R264). -/
def AtomOp.apply (op : AtomOp) (size : Nat) (signed : Bool) (v x cmp : Nat) : Nat :=
  let w := 8 * size
  let t : EType := etype (if size = 8 then 9 else 2)
  let less := decide (intRead signed w v < intRead signed w x)
  match op with
  | .add => (v + x) % 2 ^ w
  | .min => if less then v else x
  | .max => if less then x else v
  | .minn => Nat.min v x
  | .maxn => Nat.max v x
  | .xchg => x
  | .and => v &&& x
  | .or => v ||| x
  | .xor => v ^^^ x
  | .cas => if v = cmp then x else v
  | .fadd => t.add ⟨.rne, false⟩ v x
  | .fmin => t.pick false ⟨.rne, false⟩ v x
  | .fmax => t.pick true ⟨.rne, false⟩ v x
  | .inc => if x ≤ v then 0 else (v + 1) % 2 ^ w

/-- An operation of one lane on its value; the signedness is that of the lane's ETYPE, and of i64 for a scalar
form (R264, R268). -/
def AtomOp.applyLane (op : AtomOp) (a : LaneAcc) (v : Nat) : Nat :=
  op.apply a.size (modeEtype a.mode == 0 || modeEtype a.mode == 10) v a.data a.cmp

/-! ## Issue (R253, R256, R257, R264) -/

/-- MODE.AORD over the participating slices: acquire and release of different slices combine (R256). -/
def Gang.ordering (g : Gang) : Bool × Bool :=
  (g.members.any (fun sl => let o := modeAord (g.modeOf sl); o == 1 || o == 3),
    g.members.any (fun sl => let o := modeAord (g.modeOf sl); o == 2 || o == 3))

/-- The registers from a code on that a form of `n` times the element size names. -/
def Gang.spanOf (g : Gang) (c n : Nat) : List Nat := if g.anyWide then (List.range (2 * n)).map (c + ·) else (List.range n).map (c + ·)

/-- What an atomic or reduction needs: an accepted ETYPE in every slice, and a register code that keeps the pair
rule, or the rule of CAS (R264). -/
def Gang.atomDemand (g : Gang) (op : AtomOp) (ret : Bool) (d x : BitVec 8) (f : BitVec 4) : Demand :=
  let cas := op == .cas
  { illegal := g.members.any (fun sl => !op.accepts (modeEtype (g.modeOf sl))) ||
      (if cas then decide (d.toNat % (if g.anyWide then 4 else 2) ≠ 0) else g.oddPair d.toNat) || (ret && isT d.toNat)
    flag := f
    reads := x.toNat :: (if cas then g.spanOf d.toNat 2 else g.spans d.toNat)
    writes := if ret then g.spans d.toNat else [] }

/-- The lanes of an atomic: for CAS the compare value stands in Vd and the new value in the next register. -/
def Gang.atomLanes (g : Gang) (cas : Bool) (d x : BitVec 8) (b : BitVec 4) : List LaneReq :=
  g.active.map (fun l =>
    let m := g.laneMode l
    let n := plainSize m
    let wide := n == 8
    { lane := l, va := g.laneAddress x b n l, size := n, mode := m
      data := g.operand wide (if cas then d.toNat + n / 4 else d.toNat) l
      cmp := if cas then g.operand wide d.toNat l else 0 })

/-- An atomic or a reduction issues; a reduction has nothing to acquire (R256). -/
def State.atomWord (s : State) (op : AtomOp) (ret : Bool) (d x : BitVec 8) (b f : BitVec 4) : Result :=
  s.globalWord (s.here.atomDemand op ret d x f) .atomic .relaxed (fun g => g.atomLanes (op == .cas) d x b) (fun s accs =>
    let (acq, rel) := s.here.ordering
    (s.startOp (s.freshOp (.atomic op (acq && ret) rel (if ret then some d.toNat else none) false) s.here.widestScope
      (flagOf f) accs)).settle s.here.key)

/-- ATOM.ADD (R264, R265). -/
def execAtomAdd (d x : BitVec 8) (b f : BitVec 4) (s : State) : Result := s.atomWord .add true d x b f
/-- ATOM.MIN (R264, R265). -/
def execAtomMin (d x : BitVec 8) (b f : BitVec 4) (s : State) : Result := s.atomWord .min true d x b f
/-- ATOM.MAX (R264, R265). -/
def execAtomMax (d x : BitVec 8) (b f : BitVec 4) (s : State) : Result := s.atomWord .max true d x b f
/-- ATOM.XCHG (R264, R265). -/
def execAtomXchg (d x : BitVec 8) (b f : BitVec 4) (s : State) : Result := s.atomWord .xchg true d x b f
/-- ATOM.AND (R264, R265). -/
def execAtomAnd (d x : BitVec 8) (b f : BitVec 4) (s : State) : Result := s.atomWord .and true d x b f
/-- ATOM.OR (R264, R265). -/
def execAtomOr (d x : BitVec 8) (b f : BitVec 4) (s : State) : Result := s.atomWord .or true d x b f
/-- ATOM.XOR (R264, R265). -/
def execAtomXor (d x : BitVec 8) (b f : BitVec 4) (s : State) : Result := s.atomWord .xor true d x b f
/-- ATOM.CAS (R264, R265). -/
def execAtomCas (d x : BitVec 8) (b f : BitVec 4) (s : State) : Result := s.atomWord .cas true d x b f
/-- ATOM.FADD (R264, R265). -/
def execAtomFadd (d x : BitVec 8) (b f : BitVec 4) (s : State) : Result := s.atomWord .fadd true d x b f
/-- ATOM.FMIN (R264, R265). -/
def execAtomFmin (d x : BitVec 8) (b f : BitVec 4) (s : State) : Result := s.atomWord .fmin true d x b f
/-- ATOM.FMAX (R264, R265). -/
def execAtomFmax (d x : BitVec 8) (b f : BitVec 4) (s : State) : Result := s.atomWord .fmax true d x b f
/-- ATOM.INC (R264, R265). -/
def execAtomInc (d x : BitVec 8) (b f : BitVec 4) (s : State) : Result := s.atomWord .inc true d x b f
/-- RED.ADD (R264, R265). -/
def execRedAdd (d x : BitVec 8) (b f : BitVec 4) (s : State) : Result := s.atomWord .add false d x b f
/-- RED.MIN (R264, R265). -/
def execRedMin (d x : BitVec 8) (b f : BitVec 4) (s : State) : Result := s.atomWord .min false d x b f
/-- RED.MAX (R264, R265). -/
def execRedMax (d x : BitVec 8) (b f : BitVec 4) (s : State) : Result := s.atomWord .max false d x b f
/-- RED.FADD (R264, R265). -/
def execRedFadd (d x : BitVec 8) (b f : BitVec 4) (s : State) : Result := s.atomWord .fadd false d x b f
/-- RED.AND (R264, R265). -/
def execRedAnd (d x : BitVec 8) (b f : BitVec 4) (s : State) : Result := s.atomWord .and false d x b f
/-- RED.OR (R264, R265). -/
def execRedOr (d x : BitVec 8) (b f : BitVec 4) (s : State) : Result := s.atomWord .or false d x b f
/-- RED.XOR (R264, R265). -/
def execRedXor (d x : BitVec 8) (b f : BitVec 4) (s : State) : Result := s.atomWord .xor false d x b f
/-- RED.FMAX (R264, R265). -/
def execRedFmax (d x : BitVec 8) (b f : BitVec 4) (s : State) : Result := s.atomWord .fmax false d x b f

end Sys2Proof.Machine
end

