-- ==== Sys2Proof/Machine/MemoryEvents.lean ====
section
/-! DEFINITION. The steps by which memory operations reach the homes and complete (R228 to R238, R241, R242, R255,
R260, R265, R266), each a row of the opcode table without bits.  A step that cannot be taken leaves the state as
it is. -/

namespace Sys2Proof.Machine

/-! ## Entries of the dirty-line FIFO (R229, R230) -/

/-- The FIFO entry of a core with an identifier. -/
def State.item (s : State) (core id : Nat) : Option FifoItem := (s.core core).fifo.find? (fun e => e.id == id)

/-- A FIFO entry replaced. -/
def State.setItem (s : State) (core : Nat) (it : FifoItem) : State :=
  let c := s.core core
  s.setCore core { c with fifo := c.fifo.map (fun e => if e.id = it.id then it else e) }

/-- A FIFO entry removed. -/
def State.dropItem (s : State) (core id : Nat) : State :=
  let c := s.core core
  s.setCore core { c with fifo := c.fifo.filter (fun e => e.id != id) }

/-- FIFO_ENTRY_DRAIN: the head entry leaves the core and passes the cluster cache (R229, R235), unless a release store to
its line still waits ahead of it (R238); a damaged one is poisoned (R397). -/
def execFifoEntryDrain (core : Nat) (s : State) : Result :=
  match (s.core core).fifo.find? (fun e => e.reach == 0 && !e.direct) with
  | none => .next s
  | some e =>
    if (s.core core).fifo.any (fun x => x.direct && x.reach == 0 && x.line == e.line && decide (x.id < e.id)) then .next s
    else .next { s.setItem core { e with reach := 1, passed := s.nextId, poison := e.poison || e.bad } with nextId := s.nextId + 1 }

/-- Whether an entry on its way must let another reach the home first: an older one of its core to the same line, or one of
its core that drained ahead of it to the same channel (R229, R238); or one to the same line that passed the cluster cache
before it (R235). -/
def State.behindOther (s : State) (core : Nat) (it : FifoItem) : Bool :=
  (s.core core).fifo.any (fun e => decide (e.id < it.id) && decide (e.reach < 2) &&
    (e.line == it.line || (!e.direct && !it.direct && channelOf (64 * e.line) == channelOf (64 * it.line)))) ||
  (!it.direct && (s.clusterItems core).any (fun e => e.2.line == it.line && !e.2.direct && e.2.reach == 1 && decide (e.2.passed < it.passed)))

/-- The bytes of its line that an entry does not write, filled once the host has given the line up (R229, R247). -/
def State.fillItem (s : State) (core : Nat) (it : FifoItem) : State :=
  match it.unfilled with
  | none => s
  | some (key, t) => (s.fetchCopy core it.line t (((s.gang (key / 64) (key % 64)).map Gang.floors).getD [])).2

/-- An entry's bytes land at their home (R228), which waits while the host owns the line (R247).  Bytes that an error has struck
poison the line (R397, R406). -/
def State.landItem (s : State) (core id : Nat) : State :=
  match s.item core id with
  | none => s
  | some it =>
    if it.reach ≠ 1 ∨ (s.home it.line).host = HostState.owned ∨ s.behindOther core it = true then s
    else
      let s := s.fillItem core it
      let s := s.homeStore it.line it.pts it.mask it.data (it.poison || it.bad)
      let s := if it.bad then s.countPoison it.line else s
      let h := s.home it.line
      s.setItem core { it with reach := 2, unfilled := none, wts := h.wts, snapshot := s.lineBytes it.line, tag := h.tag, poison := h.poison }

/-- HOME_STORE (R228). -/
def execHomeStore (core item : Nat) (s : State) : Result := .next (s.landItem core item)

/-- WRITE_BACK: the bytes of a dirty line, under their mask, are accepted into the home's data array (R219). -/
def execWriteBack (core item : Nat) (s : State) : Result := .next (s.landItem core item)

/-- A line of an operation is acknowledged. -/
def MemOp.ackLine (o : MemOp) (line w : Nat) : MemOp := { o with acked := o.acked ++ [line], wts := max o.wts w }

/-- Whether every line of a store or atomic is acknowledged. -/
def MemOp.allAcked (o : MemOp) : Bool := o.lines.all (fun l => o.acked.contains l)

/-- Whether all of an operation's lines are another device's: it raises no clock of this one (R249). -/
def MemOp.allPeer (o : MemOp) : Bool := o.lines.all (fun l => regionOf (64 * l) == .peer)

/-- A load that holds its values is complete once no acknowledgement is outstanding for the dirty bytes it read, in whatever
line; an acquire then sets ATS, but not for another device's lines, or drops the L1's copies (R232, R234, R235, R249, R260). -/
def State.finishLoad (s : State) (id : Nat) : State :=
  match s.opAt id with
  | none => s
  | some o =>
    match o.kind with
    | .load cls _ _ =>
      let waits := cls != .weak && (s.clusterItems o.core).any (fun e => e.2.readers.contains o.gang &&
        (o.lines.contains e.2.line || (o.served.find e.2.line).isSome))
      if !o.allDone || waits then s
      else
        let s := if cls = .acquire then
            (if 3 ≤ o.scope then (if o.allPeer then s else s.onGang o.core o.slot Gang.acquireClock)
             else if o.scope = 2 then s.dropL1 o.core
             else s)
          else s
        (s.completeOp o).settle o.gang
    | _ => s

/-- Every load of a gang that can complete does. -/
def State.finishLoads (s : State) (key : Nat) : State :=
  ((s.ops.filter (fun o => o.gang == key)).map MemOp.id).foldl State.finishLoad s

/-- Copies of a line older than `w` leave a cluster's cache, and so do fills of its cores on their way: the bytes that passed the
cluster cache with the store stand in no later answer of the cluster without it (R219, R235). -/
def State.dropOlder (s : State) (core line w : Nat) : State :=
  let k := s.cluster (core / 4)
  let s := if ((k.copies.find line).map (fun c => decide (c.wts < w))).getD false then
      s.setCluster (core / 4) { k with copies := k.copies.erase line }
    else s
  { s with ops := s.ops.map (fun o =>
      if o.core / 4 = core / 4 ∧ ((o.fills.find line).map (fun d => decide (d.wts < w))).getD false = true then
        { o with fills := o.fills.erase line } else o) }

/-- The record of a killed gang is carried with a time above the wts of the entries that stood before its marker (R230, R362). -/
def DeviceWork.covers (core : Nat) (it : FifoItem) : DeviceWork → DeviceWork
  | .log tenant record (some k) marker pts =>
    .log tenant record (some k) marker (if k = gangKey core 63 ∧ it.id < marker then max pts it.wts else pts)
  | w => w

/-- STORE_ACKNOWLEDGE: the clocks of the gangs that wrote into the entry, and of those that read its bytes, rise to
its wts, and their later loads use only copies as new (R238); the line stays in the core's L1 as a clean copy, and the older
ones that its cluster holds give way; a release or weak store is complete with its last line (R229, R230, R233, R234, R260).
A host copy is invalidated first (R247). -/
def execStoreAcknowledge (core item : Nat) (s : State) : Result :=
  match s.item core item with
  | none => .next s
  | some it =>
    if it.reach ≠ 2 ∨ (s.home it.line).host ≠ HostState.invalid then .next s
    else
      let copy : Copy := ⟨it.wts, it.wts, it.snapshot, it.tag, it.poison⟩
      let s := s.dropItem core item
      let s := s.dropOlder core it.line it.wts
      let s := if it.stale then s else s.installL1 core it.line copy
      let s := (it.gangs ++ it.readers).eraseDups.foldl (fun s k =>
        s.onGang (k / 64) (k % 64) (fun g => (g.raisePts it.wts).raiseFloor it.line it.wts)) s
      let s := it.launches.foldl (fun s k => s.onLaunch k (fun l => { l with largest := max l.largest it.wts })) s
      let s := if it.engines.isEmpty then s
        else
          let c := s.core core
          s.setCore core { c with cmds := c.cmds.map (fun (k : CopyCmd) =>
            if it.engines.contains k.id then { k with wts := max k.wts it.wts } else k) }
      let s := it.writers.foldl (fun s k => s.onGang (k / 64) (k % 64) (fun g => { g with engWts := max g.engWts it.wts })) s
      let s := it.ops.foldl (fun s id => match s.opAt id with
        | none => s
        | some o =>
          let o := o.ackLine it.line it.wts
          if o.allAcked then (s.completeOp o).settle o.gang else s.setOp o) s
      let s := { s with work := s.work.map (DeviceWork.covers core it) }
      .next (it.readers.foldl State.finishLoads s)

/-- Whether a store or atomic that is a release may go: its marker is placed, and what stands ahead of it is done (R230 step
3, R235, R249). -/
def State.releaseReady (s : State) (o : MemOp) (release : Bool) : Bool :=
  !release || (match o.marker with
    | some m => s.aheadDone o.gang o.scope m
    | none => false)

/-- RELEASE_SEND: a release store sends its lines to their homes with the carried time PTS + 1, once everything its
release waits for is done (R230). -/
def execReleaseSend (op : Nat) (s : State) : Result :=
  match s.opAt op with
  | none => .next s
  | some o =>
    match o.marker with
    | none => .next s
    | some m =>
      if s.aheadDone o.gang o.scope m then
        let c := s.core o.core
        let pts := ((s.gang o.core o.slot).map Gang.ptsNow).getD 0
        .next (s.setCore o.core { c with fifo := c.fifo.map (fun e =>
          if op ∈ e.ops ∧ e.direct = true ∧ e.reach = 0 then { e with reach := 1, pts := pts + 1, poison := e.bad } else e) })
      else .next s

/-! ## Loads (R231 to R235) -/

/-- The time with which a load asks for a line (R231, R232, R235). -/
def State.loadTime (s : State) (o : MemOp) (cls : LoadClass) : Nat :=
  match s.gang o.core o.slot with
  | none => 0
  | some g => g.askTime cls o.scope

/-- The floor of a gang for a line (R266). -/
def State.floorOf (s : State) (o : MemOp) (line : Nat) : Nat :=
  ((s.gang o.core o.slot).map (fun g => Table.get 0 g.floors line)).getD 0

/-- The copy that an operation's load of a line may use now. -/
def State.copyFor (s : State) (o : MemOp) (cls : LoadClass) (line : Nat) : Option (Copy × Bool) :=
  s.usable o.core line (cls == .weak) (cls == .acquire && o.scope == 2) (s.loadTime o cls) (s.floorOf o line) (o.fills.find line)

/-- HOME_LEASE_GRANT: a load's request reaches the home, which extends the lease and sends the line (R231); for a weak
load it sends the line alone (R233).  It waits while the host owns the line (R247). -/
def execHomeLeaseGrant (op line : Nat) (s : State) : Result :=
  match s.opAt op with
  | none => .next s
  | some o =>
    match o.kind with
    | .load cls _ _ =>
      if !o.lines.contains line || regionOf (64 * line) == .peer || (o.served.find line).isSome || s.held o ||
          s.lineWaits o line || (s.home line).host == HostState.owned || (s.copyFor o cls line).isSome then .next s
      else
        let s := s.countDie (dieOf line) (if (s.homes.find line).isSome then 1 else 2) 1
        let s := if cls = .weak then s.setHome line (s.home line) else s.grant line (s.loadTime o cls) (s.ownWts o.core line)
        .next (s.setOp { o with fills := o.fills.insert line (s.homeCopy line) })
    | _ => .next s

/-- A word that a load writes from a line; that of a formatted load is formed at its issue (R263). -/
def loadedWord (form : LoadForm) (a : LaneAcc) (l : Line) (high : Bool) : Word :=
  let off := a.addr % 64
  match form with
  | .sext => BitVec.ofInt 32 (signedOf (8 * a.size) (lineField l off a.size))
  | .fmt _ => BitVec.ofNat 32 a.data
  | _ => BitVec.ofNat 32 (lineField l (off + if high then 4 else 0) (min a.size 4))

/-- A loaded word written to its register. -/
def Gang.writeLoaded (g : Gang) (form : LoadForm) (dest : Nat) (a : LaneAcc) (l : Line) (high : Bool) : Gang :=
  match form with
  | .scalar => g.setS a.lane dest (BitVec.ofNat 64 (lineField l (a.addr % 64) 8))
  | _ => g.setV (dest + if high then 1 else 0) a.lane (loadedWord form a l high)

/-- Whether a lane of a load has a second register word. -/
def LaneAcc.secondWord (a : LaneAcc) (form : LoadForm) : Bool := a.size == 8 && form != .scalar

/-- The words of the lanes on a line that the masks name are written from the line that serves them, once each;
the others follow in later steps (R69, R255). -/
def State.deliver (s : State) (o : MemOp) (form : LoadForm) (dest line : Nat) (lo hi : LaneMask) (l : Line) : State :=
  let mine := o.lanes.filter (fun a => a.addr / 64 == line)
  let low := mine.filter (fun a => lo.getLsbD a.lane && !o.doneLo.getLsbD a.lane)
  let high := mine.filter (fun a => hi.getLsbD a.lane && !o.doneHi.getLsbD a.lane && a.secondWord form)
  let s := s.onGang o.core o.slot (fun g =>
    let g := low.foldl (fun g a => g.writeLoaded form dest a l false) g
    high.foldl (fun g a => g.writeLoaded form dest a l true) g)
  let o := low.foldl (fun o a => o.markWord a.lane false) o
  let o := (mine.filter (fun a => !a.secondWord form && o.doneLo.getLsbD a.lane)).foldl (fun o a => o.markWord a.lane true) o
  let o := high.foldl (fun o a => o.markWord a.lane true) o
  (s.setOp o).finishLoad o.id

/-- The bytes of a line that an operation's lanes read. -/
def MemOp.wanted (o : MemOp) (line : Nat) : LaneMask := (laneBytes o.lanes line).1

/-- A load is served one line: from a copy it may use and the dirty bytes that the core holds, with its clock updates
(R231 to R235, R255).  The second result tells that poison is read (R399). -/
def State.serve (s : State) (o : MemOp) (cls : LoadClass) (line : Nat) : Option (MemOp × Bool × State) :=
  let fresh := (s.dirtyItems o.core line 0).filter (fun e => decide (e.reach < 2) || decide (s.floorOf o line ≤ e.wts))
  let covered := fresh.foldl (fun (m : LaneMask) e => m ||| e.shown) 0 &&& o.wanted line == o.wanted line
  if s.held o || s.lineWaits o line || (cls == .acquire && (s.dirtyHere o.core line || s.awaitsAck o.gang)) then none
  else
    let read := fun (c : Copy) (beyond : Bool) (s : State) =>
      let data := s.seenLine o.core line c.wts c.data
      let poison := c.poison || s.seenPoison o.core line c.wts
      let s := if cls = .weak then s else s.observe o.core o.slot line c.wts
      let s := if beyond then
          let s := s.count o.core 10 1
          if cls = .weak then s else (s.installCluster o.core line c).installL1 o.core line c
        else s
      some ({ o with served := o.served.insert line data, wts := max o.wts c.wts
                     tags := (c.tag.map (fun t => o.tags.insert line t)).getD o.tags }, poison, s)
    match s.copyFor o cls line with
    | some (c, beyond) => read c beyond s
    | none => if covered then read ⟨0, 0, 0, none, false⟩ false s else none

/-- LINE_FILL: a waiting load is served a line, and words of its lanes are written (R231, R69). -/
def execLineFill (op line : Nat) (lo hi : LaneMask) (s : State) : Result :=
  match s.opAt op with
  | none => .next s
  | some o =>
    match o.kind with
    | .load cls form dest =>
      if !o.lines.contains line then .next s
      else match o.served.find line with
        | some l => .next (s.deliver o form dest line lo hi l)
        | none =>
          if regionOf (64 * line) = .peer ∧ cls ≠ .weak then .next s
          else match s.serve o cls line with
            | none => .next s
            | some (o, poison, s) =>
              let s := s.setOp o
              if poison then .next (s.killOp o 0)
              else .next (s.deliver o form dest line lo hi (Table.get 0 o.served line))
    | _ => .next s

/-! ## Atomics (R237, R265, R266) -/

/-- The bytes of a line after an operation's lanes on it have acted in lane order, and the old value of each. -/
def atomLine (op : AtomOp) (lanes : List LaneAcc) (l : Line) : Line × List (Nat × Nat) :=
  lanes.foldl (fun (acc : Line × List (Nat × Nat)) a =>
    let off := a.addr % 64
    let v := lineField acc.1 off a.size
    let new := BitVec.ofNat 512 (op.applyLane a v % 2 ^ (8 * a.size) * 2 ^ (8 * off))
    (mergeLine acc.1 new (BitVec.ofNat 64 ((2 ^ a.size - 1) * 2 ^ off)), acc.2 ++ [(a.lane, v)])) (l, [])

/-- Whether an atomic may reach a line's home: after the gang's earlier accesses to the line, its own stores there
included; after what its ordering asks for, of which the dirty bytes that the gang has read are part (R234); and, for a scalar
form, after its lower slices (R230, R232, R237, R238, R268). -/
def State.atomReady (s : State) (o : MemOp) (acq rel : Bool) (line : Nat) : Bool :=
  !s.held o && !s.lineWaits o line && !(acq && s.awaitsAck o.gang) &&
    !(s.core o.core).fifo.any (fun e => e.line == line && (e.gangs.contains o.gang || e.readers.contains o.gang)) &&
    s.releaseReady o rel &&
    (o.batch == 0 || !s.ops.any (fun p => p.gang == o.gang && p.batch == o.batch && decide (p.id < o.id) && p.applied.isEmpty &&
      p.acked.isEmpty))

/-- HOME_ATOMIC: an operation is applied to a line at its home in one step, in lane order, and timestamped as one
store (R237, R265).  A poisoned line takes no operation, and kills the gang (R399). -/
def execHomeAtomic (op line : Nat) (s : State) : Result :=
  match s.opAt op with
  | none => .next s
  | some o =>
    match o.kind with
    | .atomic aop acq rel _ _ =>
      if !o.lines.contains line || regionOf (64 * line) == .peer || (o.applied.find line).isSome ||
          (s.home line).host == HostState.owned || !s.atomReady o acq rel line then .next s
      else if (s.home line).poison then .next (s.killOp o 1)
      else
        let lanes := o.lanes.filter (fun a => a.addr / 64 == line)
        let (data, olds) := atomLine aop lanes (s.lineBytes line)
        let pts := ((s.gang o.core o.slot).map Gang.ptsNow).getD 0
        let launch := ((s.gang o.core o.slot).map (fun g => (s.block g.block).launch)).getD 0
        let s := s.homeStore line pts (laneBytes o.lanes line).1 data false
        let s := s.onLaunch launch (fun l => { l with largest := max l.largest (s.home line).wts })
        .next (s.setOp { o with
          applied := o.applied.insert line (s.homeCopy line)
          olds := olds.foldl (fun t e => t.insert e.1 e.2) o.olds })
    | _ => .next s

/-- The old values of an operation's lanes on a line written to their registers (R264, R268). -/
def Gang.writeOlds (g : Gang) (o : MemOp) (dest : Option Nat) (scalar : Bool) (line : Nat) : Gang :=
  match dest with
  | none => g
  | some d =>
    (o.lanes.filter (fun a => a.addr / 64 == line)).foldl (fun g a =>
      match o.olds.find a.lane with
      | none => g
      | some v =>
        if scalar then g.setS a.lane d (BitVec.ofNat 64 v)
        else g.setOperand (a.size == 8) d a.lane v) g

/-- An atomic whose last line is acknowledged is complete; with acquire ordering it sets ATS, but not for another device's
lines, and at cluster scope it drops the L1's copies (R232, R235, R237, R249). -/
def State.finishAtomic (s : State) (o : MemOp) (acq : Bool) : State :=
  if o.allAcked then
    let s := if acq && !o.allPeer then s.onGang o.core o.slot Gang.acquireClock else s
    let s := if acq && o.scope == 2 then s.dropL1 o.core else s
    (s.completeOp o).settle o.gang
  else s.setOp o

/-- ATOMIC_ACKNOWLEDGE: PTS rises to the wts, old values are written, and later loads of the gang use only copies as
new (R237, R265, R266).  A host copy is invalidated first (R247). -/
def execAtomicAcknowledge (op line : Nat) (s : State) : Result :=
  match s.opAt op with
  | none => .next s
  | some o =>
    match o.kind with
    | .atomic _ acq _ dest scalar =>
      match o.applied.find line with
      | none => .next s
      | some d =>
        if o.acked.contains line || (s.home line).host != HostState.invalid then .next s
        else
          let s := s.onGang o.core o.slot (fun g =>
            let g := (g.raisePts d.wts).writeOlds o dest scalar line
            g.raiseFloor line d.wts)
          .next (s.finishAtomic (o.ackLine line d.wts) acq)
    | _ => .next s

/-! ## Peer devices (R249, R257, R385, R389) -/

/-- The lanes of an operation on one line. -/
def MemOp.onLine (o : MemOp) (line : Nat) : List LaneAcc := o.lanes.filter (fun a => a.addr / 64 == line)

/-- Lanes of an operation end with PEERGONE: they are switched off and nothing is written to them (R224, R257).  A scalar
access has no lane to switch off: its event is counted in LCAUSE (R385, R395, log entry 31). -/
def State.peerGone (s : State) (o : MemOp) (line : Nat) : State :=
  s.onGang o.core o.slot (fun g => (o.onLine line).foldl (fun g a =>
    match o.kind with
    | .load _ .scalar _ => { g with lcause := laneEvent g.lcause .peergone }
    | .atomic _ _ _ _ true => { g with lcause := laneEvent g.lcause .peergone }
    | .store _ _ => if o.batch = 0 then g.laneFault a.lane .peergone else { g with lcause := laneEvent g.lcause .peergone }
    | _ => g.laneFault a.lane .peergone) g)

/-- An operation goes on after the answer for one of its peer lines. -/
def State.afterPeer (s : State) (o : MemOp) : State :=
  match o.kind with
  | .load _ _ _ => (s.setOp o).finishLoad o.id
  | .store _ _ => if o.allAcked then (s.completeOp o).settle o.gang else s.setOp o
  | .atomic _ acq _ _ _ => s.finishAtomic o acq
  | _ => s.setOp o

/-- What an answer does to an operation: data for a load, old values for an atomic, an acknowledgement, or
PEERGONE (R249, R385); poison from the peer is consumed (R398). -/
def State.peerAnswer (s : State) (o : MemOp) (line : Nat) (refused poison : Bool) (data : Line) : State :=
  let ready := match o.kind with
    | .store release _ => o.performed && s.releaseReady o release
    | .atomic _ acq rel _ _ => s.releaseReady o rel && !(acq && s.awaitsAck o.gang)
    | .load cls _ _ => !(cls == .acquire && s.awaitsAck o.gang)
    | _ => true
  if !(o.lines.contains line && regionOf (64 * line) == .peer) || o.acked.contains line || s.held o || s.lineWaits o line || !ready then s
  else
    let (mask, bytes) := laneBytes o.lanes line
    let s := s.sendPeer o.id line (match o.kind with
      | .store _ _ => 1
      | .atomic .. => 2
      | _ => 0) mask bytes
    let gone := fun (s : State) =>
      let o := (o.onLine line).foldl (fun o a => (o.markWord a.lane false).markWord a.lane true) (o.ackLine line 0)
      (s.peerGone o line).afterPeer { o with served := o.served.insert line 0 }
    if refused then gone s
    else if poison then s.killOp o (match o.kind with
      | .atomic .. => 1
      | _ => 0)
    else match o.kind with
      | .load cls form dest =>
        let s := if cls = .weak then s.installCluster o.core line ⟨0, 0, data, none, false⟩ else s
        let o := { o.ackLine line 0 with served := o.served.insert line data }
        (s.setOp o).deliver o form dest line (BitVec.allOnes 64) (BitVec.allOnes 64) data
      | .store _ _ => s.afterPeer (o.ackLine line 0)
      | .atomic aop _ _ dest scalar =>
          let o := { o.ackLine line 0 with
            olds := (atomLine aop (o.onLine line) data).2.foldl (fun t e => t.insert e.1 e.2) o.olds }
          (s.onGang o.core o.slot (fun g => g.writeOlds o dest scalar line)).afterPeer o
      | _ => s

/-- A fire-and-forget store is answered: acknowledged, or counted as failed (R389, R390). -/
def State.answerFf (s : State) (id : Nat) (failed : Bool) : State :=
  match s.ff.find? (fun f => f.id == id) with
  | none => s
  | some f =>
    let s := { s with ff := s.ff.filter (fun f => f.id != id) }
    match f.launch with
    | some k => if failed then s.onLaunch k (fun l => { l with peerfail := l.peerfail + 1 }) else s
    | none => s

/-- The answer of an active message to the gang that waits for it: Sd and SCC (R346). -/
def State.answerMessage (s : State) (o : MemOp) (status : Nat) : State :=
  match o.kind with
  | .message _ _ sd =>
    let grpOf := fun (g : Gang) => (g.grp :: g.parted).find? (fun p => p.wait == .op o.batch)
    let s := s.onGang o.core o.slot (fun g =>
      match grpOf g with
      | none => g
      | some p =>
        let sl := bitsSet 16 p.slices.toNat
        (g.writeS sl sd (fun _ => BitVec.ofNat 64 status)).writeScc sl (fun _ => status == 0))
    (s.completeOp o).settle o.gang
  | _ => s

/-- FABRIC_RESEND: a frame is sent again.  Messages are delivered in order and at most once, so nothing else
changes (R384). -/
def execFabricResend (_op : Nat) (s : State) : Result := .next s

/-- ACTIVE_MESSAGE_ANSWER: the destination's status, 0 to 4, reaches the waiting AMSG (R346). -/
def execActiveMessageAnswer (op status : Nat) (s : State) : Result :=
  match s.opAt op with
  | some o => .next (s.answerMessage o (min status 4))
  | none => .next s

/-- PEER_SCRATCHPAD_ACCESS: words of a peer access reach the target core (R218). -/
def execPeerScratchpadAccess (op : Nat) (lo hi : LaneMask) (s : State) : Result :=
  match s.opAt op with
  | none => .next s
  | some o =>
    let (s, poison) := s.scratchTurn op lo hi
    if poison then .next (s.killOp o 0) else .next s

/-! ## Homes, DRAM and the timestamp directory (R241, R242) -/

/-- A line leaves its home, unless the bridge holds it for the host, and MTS takes its rts_h (R241). -/
def State.evictHome (s : State) (line : Nat) : State :=
  match s.homes.find line with
  | none => s
  | some h =>
    if h.host ≠ .invalid then s
    else
      let k := s.clockOf line
      { s with
        homes := s.homes.erase line
        mts := Table.set 0 s.mts k (max (Table.get 0 s.mts k) h.rts)
        dramPoison := if h.poison then (s.dramPoison ++ [line]).eraseDups else s.dramPoison }

/-- HOME_EVICT (R241). -/
def execHomeEvict (line : Nat) (s : State) : Result := .next (s.evictHome line)

/-- DRAM_REFILL: a line comes back with wts_h = rts_h = MTS, L = 16 and a new tag (R239, R241, R116). -/
def execDramRefill (line : Nat) (s : State) : Result :=
  match s.homes.find line with
  | some _ => .next s
  | none => .next { s.setHome line (s.home line) with dramPoison := s.dramPoison.filter (fun x => x != line) }

/-- A timestamp less B, clamped at 0 (R242). -/
def rebased (t : Nat) : Nat := t - rebaseBy

/-- Copies after a rebase: those whose lease ends below B are dropped, the others lowered (R242 step 2). -/
def rebaseCopies (t : Table Copy) : Table Copy :=
  (t.filter (fun e => decide (rebaseBy ≤ e.2.rts))).map (fun e => (e.1, { e.2 with wts := rebased e.2.wts, rts := rebased e.2.rts }))

/-- Timestamps of a sparse table lowered; those that become 0 are listed no longer. -/
def rebaseTable (t : Table Nat) : Table Nat := (t.map (fun e => (e.1, rebased e.2))).filter (fun e => e.2 != 0)

/-- A core's timestamps after a rebase (R242, R243). -/
def Core.rebase (c : Core) : Core :=
  { c with
    l1 := rebaseCopies c.l1
    fifo := c.fifo.map (fun e => { e with pts := rebased e.pts, wts := rebased e.wts
                                          unfilled := e.unfilled.map (fun u => (u.1, rebased u.2))
                                          stale := e.stale || (e.reach == 2 && decide (e.wts < rebaseBy)) })
    phaseTs := rebaseTable c.phaseTs
    mq := c.mq.map (fun o => { o with pts := rebased o.pts })
    cmds := c.cmds.map (fun k => { k with pts := rebased k.pts, ats := rebased k.ats, wts := rebased k.wts }) }

/-- A gang owes a rebase, to be taken at its next run boundary (R242 step 3); its floors are at the homes' scale. -/
def Gang.oweRebase (g : Gang) : Gang := { g with owedRebases := g.owedRebases + 1, engWts := rebased g.engWts, floors := rebaseTable g.floors }

/-- The time that a write of the device is carried with after a rebase. -/
def DeviceWork.rebase : DeviceWork → DeviceWork
  | .put line t mask value => .put line (rebased t) mask value
  | .add line t off n => .add line (rebased t) off n
  | .log tenant record gang marker pts => .log tenant record gang marker (rebased pts)

/-- A block's timestamps after a rebase. -/
def Block.rebase (b : Block) : Block := { b with phaseTs := rebaseTable b.phaseTs }

/-- A launch's timestamps after a rebase. -/
def Launch.rebase (l : Launch) : Launch :=
  { l with
    pts := rebased l.pts, largest := rebased l.largest, gridPts := rebased l.gridPts, gridTs := rebased l.gridTs
    recordFloors := l.recordFloors.map (fun f => (f.1, rebaseTable f.2)) }

/-- REBASE: once a clock has passed 0xC000_0000 every timestamp is lowered by B, copies with leases below B are
dropped, resident and saved gangs owe the same, every watch fires (R242), and gated cores run again (R318).  The same step again ends the rebase,
whose grants are short meanwhile (R243). -/
def execRebase (s : State) : Result :=
  if s.rebasing then .next { s with rebasing := false }
  else if !s.clocks.any (fun e => decide (0xC0000000 < e.2)) then .next s
  else
    let fired := s.watches.map (fun w => ({ line := w.line, block := w.block, offset := w.offset, wts := rebased (s.home w.line).wts, rebase := true } : WatchArrival))
    .next { ([0, 1].foldl (fun s d => s.countDie d 13 1) s) with
      rebasing := true
      homes := s.homes.map (fun e => (e.1, { e.2 with wts := rebased e.2.wts, rts := rebased e.2.rts, hostRts := rebased e.2.hostRts }))
      mts := rebaseTable s.mts
      clocks := rebaseTable s.clocks
      hts := rebased s.hts
      cores := s.cores.map (fun e => (e.1, { e.2.rebase with gated := false }))
      clusters := s.clusters.map (fun e => (e.1, { e.2 with copies := rebaseCopies e.2.copies }))
      blocks := s.blocks.map (fun e => (e.1, e.2.rebase))
      launches := s.launches.map (fun e => (e.1, e.2.rebase))
      jobs := s.jobs.map (fun e => (e.1, { e.2 with pts := rebased e.2.pts, met := e.2.met.map rebased }))
      work := s.work.map DeviceWork.rebase
      rebases := s.rebases + 1
      saved := s.saved.map (fun b => { b with block := b.block.rebase, gangs := b.gangs.map Gang.oweRebase
                                              cmds := b.cmds.map (fun k => { k with pts := rebased k.pts, ats := rebased k.ats, wts := rebased k.wts }) })
      ops := s.ops.map (fun o => { o with
        fills := (o.fills.filter (fun e => decide (rebaseBy ≤ e.2.rts))).map (fun e => (e.1, { e.2 with wts := rebased e.2.wts, rts := rebased e.2.rts }))
        applied := o.applied.map (fun e => (e.1, { e.2 with wts := rebased e.2.wts, rts := rebased e.2.rts }))
        wts := rebased o.wts })
      here := s.here.oweRebase
      gangs := s.gangs.map (fun e => (e.1, e.2.oweRebase))
      watches := []
      arrivals := s.arrivals.map (fun a => { a with wts := rebased a.wts }) ++ fired }

/-! ## Watches, fetch and translation (R221, R336, R357) -/

/-- The carve-out that a key names: a block's, or from 2^32 on the supervisor scratchpad of a core. -/
def carveAt (key : Nat) : Carve := if key < 2 ^ 32 then .block key else .supervisor (key - 2 ^ 32)

/-- Whether a carve-out belongs to an ended block. -/
def State.carveEnded (s : State) : Carve → Bool
  | .supervisor _ => false
  | .block k => ((s.blocks.find k).map Block.ended).getD true

/-- WATCH_ARRIVAL: the oldest arrival on its way to an object is counted there (R336, R245). -/
def execWatchArrival (block offset : Nat) (s : State) : Result :=
  match s.arrivals.find? (fun a => a.block == block && a.offset == offset) with
  | none => .next s
  | some a =>
    let s := { s with arrivals := s.arrivals.erase a }
    if s.carveEnded (carveAt block) then .next s
    else .next (s.arriveAt (carveAt block) offset 1 a.wts (4 + if a.rebase then 256 else 0))

/-- The kernel descriptor that a gang's block runs (R95). -/
def State.kernelOf (s : State) (g : Gang) : Option Descriptor :=
  let b := s.block g.block
  match b.job.bind s.jobs.find with
  | some j => j.desc
  | none => (s.launch b.launch).desc

/-- The cores of a gang's die whose gangs run the same kernel descriptor for the same tenant and miss on the same line: one
fill is delivered to all of them (R221). -/
def State.fetchMates (s : State) (g : Gang) (line : Nat) : List Nat :=
  if g.isSupervisor then []
  else ((s.allGangs.filter (fun h => h.core / 128 == g.core / 128 && !h.isSupervisor && s.tenantOf h == s.tenantOf g &&
    s.kernelOf h == s.kernelOf g && ((s.core h.core).icache.find line).isNone &&
    (match s.translate h h.wordPc.toNat .fetch with
      | .ok a => a / 64 == line
      | .error _ => false))).map Gang.core).eraseDups

/-- A line of code enters a core's instruction cache with its poison (R221, R398). -/
def State.cacheCode (s : State) (core line : Nat) (l : Line) (poison : Bool) : State :=
  let c := s.core core
  let others := c.icachePoison.filter (fun x => x != line)
  s.setCore core { c with icache := c.icache.insert line l, icachePoison := if poison then others ++ [line] else others }

/-- INSTRUCTION_FETCH: a line of code of a gang's tenant enters the instruction cache of its core, and of the cores that
miss on it too, as the die's fetch agent reads it, translated and checked (R221, R53), with its poison, which kills the gang
that fetches it (R398, R399).  A line that the agent must wait for comes later. -/
def execInstructionFetch (core slot va : Nat) (s : State) : Result :=
  match s.gang core slot with
  | none => .next s
  | some g =>
    if s.walkWaits g va then .next s
    else
      let s := s.fillFor g va
      match s.translate g va .fetch with
      | .error _ => .next s
      | .ok a =>
        match s.agentLine core (a / 64) with
        | none => .next (s.askFetch core (a / 64))
        | some (l, poison) => .next ((core :: s.fetchMates g (a / 64)).eraseDups.foldl (fun s n => s.cacheCode n (a / 64) l poison) s)

/-- PAGE_WALK: a walk of a tenant's tables for a core; a translation it finds enters the TLBs (R357, R358).  It waits for lines
that the host owns (R247). -/
def execPageWalk (core tenant va : Nat) (s : State) : Result := if s.walkHeld tenant va then .next s else .next (s.fillTlb core tenant va)

end Sys2Proof.Machine
end

