-- ==== Sys2Proof/Machine/ScalarMemory.lean ====
section
/-! DEFINITION. Scalar memory forms and scalar atomics (R267, R268) and the fence group (R269 to R275). -/

namespace Sys2Proof.Machine

/-! ## Scalar memory (R267) -/

/-- The class of load that an access makes of its line, where it misses the L1. -/
def OpKind.loadClass : OpKind → LoadClass
  | .load cls _ _ => cls
  | .store _ true => .weak
  | _ => .relaxed

/-- A scalar memory word: its checks over every slice, then one operation for each slice, in slice order; the group
waits for the batch. -/
def State.scalarMem (s : State) (kind : AccessKind) (addr : Gang → Nat → Nat) (data cmp : Gang → Nat → Nat) (op : OpKind) : Result :=
  s.issue {} (fun s =>
    let g := s.here
    let reqs := g.members.map (fun sl =>
      ({ lane := sl, va := addr g sl, size := 8, data := data g sl, cmp := cmp g sl, mode := 10 } : LaneReq))
    if reqs.any (fun r => s.walkWaits g r.va) then s.stall
    else
    let s := s.fillAll g reqs
    match s.checkGlobal g kind false reqs with
    | .error (c, a) => s.addressFault c a
    | .ok accs =>
      if s.missTableFull g kind op.loadClass g.widestScope accs then s.stall
      else
      let batch := s.nextId
      let s := accs.foldl (fun s a => s.startOp
        { s.freshOp op (modeScope (g.modeOf a.lane)) none [a] with batch := batch }) s
      (s.onHere (fun g => g.waitFor (.op batch))).settle g.key)

/-- The address Sa + sext(IMM12) of a slice (R59, R267). -/
def Gang.smemAddress (g : Gang) (a : BitVec 6) (i : BitVec 12) (sl : Nat) : Nat := (g.sreg sl a.toNat + sext64 i).toNat

/-- No operand. -/
def noData (_ : Gang) (_ : Nat) : Nat := 0

/-- SLD (R267). -/
def execSld (d a : BitVec 6) (i : BitVec 12) (s : State) : Result :=
  s.scalarMem .load (fun g sl => g.smemAddress a i sl) noData noData (.load .relaxed .scalar d.toNat)
/-- SLDA (R267, R232). -/
def execSlda (d a : BitVec 6) (i : BitVec 12) (s : State) : Result :=
  s.scalarMem .load (fun g sl => g.smemAddress a i sl) noData noData (.load .acquire .scalar d.toNat)
/-- SST (R267). -/
def execSst (d a : BitVec 6) (i : BitVec 12) (s : State) : Result :=
  s.scalarMem .store (fun g sl => g.smemAddress a i sl) (fun g sl => (g.sreg sl d.toNat).toNat) noData (.store false false)
/-- SSTL (R267, R230). -/
def execSstl (d a : BitVec 6) (i : BitVec 12) (s : State) : Result :=
  s.scalarMem .store (fun g sl => g.smemAddress a i sl) (fun g sl => (g.sreg sl d.toNat).toNat) noData (.store true false)

/-! ## Scalar atomics (R268) -/

/-- SATOM: one atomic for each slice; CAS compares with Sd (R268). -/
def State.satomWord (s : State) (op : AtomOp) (d a b : BitVec 6) (o : BitVec 2) : Result :=
  s.scalarMem .atomic (fun g sl => (g.sreg sl a.toNat).toNat) (fun g sl => (g.sreg sl b.toNat).toNat)
    (fun g sl => if op = .cas then (g.sreg sl d.toNat).toNat else 0) (.atomic op (o.getLsbD 0) (o.getLsbD 1) (some d.toNat) true)

/-- SATOM.ADD (R268). -/
def execSatomAdd (d a b : BitVec 6) (o : BitVec 2) (s : State) : Result := s.satomWord .add d a b o
/-- SATOM.MIN (R268). -/
def execSatomMin (d a b : BitVec 6) (o : BitVec 2) (s : State) : Result := s.satomWord .min d a b o
/-- SATOM.MAX (R268). -/
def execSatomMax (d a b : BitVec 6) (o : BitVec 2) (s : State) : Result := s.satomWord .max d a b o
/-- SATOM.XCHG (R268). -/
def execSatomXchg (d a b : BitVec 6) (o : BitVec 2) (s : State) : Result := s.satomWord .xchg d a b o
/-- SATOM.AND (R268). -/
def execSatomAnd (d a b : BitVec 6) (o : BitVec 2) (s : State) : Result := s.satomWord .and d a b o
/-- SATOM.OR (R268). -/
def execSatomOr (d a b : BitVec 6) (o : BitVec 2) (s : State) : Result := s.satomWord .or d a b o
/-- SATOM.XOR (R268). -/
def execSatomXor (d a b : BitVec 6) (o : BitVec 2) (s : State) : Result := s.satomWord .xor d a b o
/-- SATOM.CAS (R268). -/
def execSatomCas (d a b : BitVec 6) (o : BitVec 2) (s : State) : Result := s.satomWord .cas d a b o
/-- SATOM.FADD (R268). -/
def execSatomFadd (d a b : BitVec 6) (o : BitVec 2) (s : State) : Result := s.satomWord .fadd d a b o
/-- SATOM.FMIN (R268). -/
def execSatomFmin (d a b : BitVec 6) (o : BitVec 2) (s : State) : Result := s.satomWord .fmin d a b o
/-- SATOM.FMAX (R268). -/
def execSatomFmax (d a b : BitVec 6) (o : BitVec 2) (s : State) : Result := s.satomWord .fmax d a b o
/-- SATOM.INC (R268). -/
def execSatomInc (d a b : BitVec 6) (o : BitVec 2) (s : State) : Result := s.satomWord .inc d a b o
/-- SATOM.MINN (R268). -/
def execSatomMinn (d a b : BitVec 6) (o : BitVec 2) (s : State) : Result := s.satomWord .minn d a b o
/-- SATOM.MAXN (R268). -/
def execSatomMaxn (d a b : BitVec 6) (o : BitVec 2) (s : State) : Result := s.satomWord .maxn d a b o

/-! ## Fences (R269 to R272, R275) -/

/-- FENCE (R270). -/
def execFence (sf : BitVec 3) (s : State) : Result := s.issue {} (fun s => s.fence sf.toNat (fun _ => true) State.done)

/-- Whether the engine work that a gang issued before `m` is complete and its global writes have reached P(S) (R271). -/
def State.engineDone (s : State) (g : Gang) (scope m : Nat) : Bool :=
  let c := s.core g.core
  !c.cmds.any (fun k => k.block == g.block && k.gangId == g.gangId && decide (k.id < m)) &&
    !c.mq.any (fun o => o.block == g.block && o.gangId == g.gangId && decide (o.id < m)) &&
    c.fifo.all (fun e => !(e.writers.contains g.key && e.engines.any (fun i => decide (i < m))) || decide (scope ≤ 1) ||
      (decide (scope = 2) && decide (1 ≤ e.reach)))

/-- FENCE.ENG: the gang's engine work first, and then the full fence (R271). -/
def execFenceEng (sf : BitVec 3) (s : State) : Result :=
  s.issue {} (fun s =>
    match s.mark true with
    | (s, some m) =>
      if s.engineDone s.here sf.toNat m then
        (s.onHere (fun g => g.raisePts g.engWts)).fence sf.toNat (fun _ => true) State.done
      else s.stall
    | (s, none) => s.stall)

/-- FENCE.IO: the gang's active messages are among what every fence waits for (R272). -/
def execFenceIo (s : State) : Result := s.issue {} (fun s => s.fence 4 (fun _ => true) State.done)

/-- DRAIN: steps 2 and 3 of R230 without a store (R275). -/
def execDrain (sf : BitVec 3) (s : State) : Result :=
  s.issue {} (fun s =>
    match s.here.grp.marker with
    | none =>
      let s := s.noteSince false
      if s.writesDone s.here.key (s.here.grp.since.getD s.nextId) then
        let s := s.placeMarker s.here.core
        let m := s.nextId
        let s := { s.onHere (fun g => { g with grp := { g.grp with marker := some m } }) with nextId := m + 1 }
        if s.entriesAt s.here.core sf.toNat m (fun e => !e.direct || e.gangs.contains s.here.key) &&
            (decide (sf.toNat < 3) || s.peerStoresDone s.here.key m) then s.done else s.stall
      else s.stall
    | some m =>
      if s.entriesAt s.here.core sf.toNat m (fun e => !e.direct || e.gangs.contains s.here.key) &&
          (decide (sf.toNat < 3) || s.peerStoresDone s.here.key m) then s.done else s.stall)

/-! ## Hints (R273) -/

/-- The line that a slice's Sa names, where it translates; a hint to a page without R has no effect (log entry 75). -/
def State.hintLine (s : State) (a : BitVec 6) (sl : Nat) : Option Nat :=
  match s.translate s.here (s.here.sreg sl a.toNat).toNat .load with
  | .ok p => if regionOf p = .peer then none else some (p / 64)
  | .error _ => none

/-- A line brought to a level, 0 L1, 1 cluster cache, 2 home, with a required time `t` (R231, R273).  A line that the host owns
is not brought: a hint need not recall it (R247, R273). -/
def State.prefetch (s : State) (core line t level : Nat) : State :=
  if level = 2 then
    match s.homes.find line with
    | some _ => s
    | none => { s.setHome line (s.home line) with dramPoison := s.dramPoison.filter (fun x => x != line) }
  else
    let here := if level = 0 then (s.core core).l1.find line else (s.cluster (core / 4)).copies.find line
    if s.hostOwns line || (here.map (fun c => decide (t ≤ c.rts))).getD false then s
    else
      let s := s.grant line t (here.map Copy.wts)
      let c := (s.homeCopy line).copy
      let s := s.installCluster core line c
      if level = 0 then s.installL1 core line c else s

/-- PREF (R273). -/
def execPref (a : BitVec 6) (l : BitVec 2) (s : State) : Result :=
  s.issue {} (fun s =>
    (s.here.members.foldl (fun s sl =>
      match s.hintLine a sl with
      | none => s
      | some line => s.prefetch s.here.core line s.here.atsNow l.toNat) s).done)

/-- LEASE (R239, R273). -/
def execLease (a : BitVec 6) (n : BitVec 4) (s : State) : Result :=
  s.issue {} (fun s =>
    (s.here.members.foldl (fun s sl =>
      match s.hintLine a sl with
      | none => s
      | some line => s.setHome line { s.home line with lease := 2 ^ n.toNat, hinted := true }) s).done)

/-! ## Write-back of a range (R274) -/

/-- The physical lines of a virtual range, as first and last line for each page of 512 KiB; pages that do not
translate are passed over. -/
def State.rangeLines (s : State) (g : Gang) (va len : Nat) : List (Nat × Nat) :=
  if len = 0 then []
  else (List.range' (va / 2 ^ 19) ((va + len - 1) / 2 ^ 19 - va / 2 ^ 19 + 1)).filterMap (fun p =>
    let lo := max va (p * 2 ^ 19)
    let hi := min (va + len - 1) (p * 2 ^ 19 + 2 ^ 19 - 1)
    (s.reaches g lo).map (fun a => (a / 64, (a + (hi - lo)) / 64)))

/-- WBR: the entries of the core up to the youngest that holds a line of the range must reach P(S), and their
acknowledgements raise the gang's PTS (R274).  Ordinary stores to peer lines stand outside the FIFO and are not waited for (log
entry 76). -/
def execWbr (sf : BitVec 3) (a b : BitVec 6) (s : State) : Result :=
  s.issue {} (fun s =>
    let g := s.here
    match g.grp.marker with
    | some m => if s.entriesAt g.core sf.toNat m (fun _ => true) then s.done else s.stall
    | none =>
      let ranges := g.members.flatMap (fun sl => s.rangeLines g (g.sreg sl a.toNat).toNat (field (g.sreg sl b.toNat).toNat 0 32))
      let hit := (s.core g.core).fifo.filter (fun e => ranges.any (fun r => decide (r.1 ≤ e.line) && decide (e.line ≤ r.2)))
      match hit.getLast? with
      | none => s.done
      | some last =>
        let c := s.core g.core
        let s := s.setCore g.core { c with fifo := c.fifo.map (fun e =>
          if e.id ≤ last.id then { e with gangs := (e.gangs ++ [g.key]).eraseDups } else e) }
        let s := s.onHere (fun g => { g with grp := { g.grp with marker := some (last.id + 1) } })
        if s.entriesAt g.core sf.toNat (last.id + 1) (fun _ => true) then s.done else s.stall)

end Sys2Proof.Machine
end

