-- ==== Sys2Proof/Machine/Control.lean ====
section
/-! DEFINITION. Headers and transfers of control (R61 to R65, R321 to R327), parting and rejoining (R33 to R36). -/

namespace Sys2Proof.Machine

/-! ## Transfers (R34, R59) -/

/-- The slices of a list as a mask. -/
def sliceMask (l : List Nat) : SliceMask := BitVec.ofNat 16 (maskOf l)

/-- The group goes to the run start that `next` gives for each slice, one sub-gang for each address, ordered by the
lowest slice that each holds (R34). -/
def Gang.part (g : Gang) (next : Nat → Word64) : Gang :=
  match (g.members.map next).eraseDups.map (fun t => ({ slices := sliceMask (g.members.filter (fun sl => next sl == t)), pc := t } : Group)) with
  | [] => g
  | first :: rest => { g with grp := first, parted := g.parted ++ rest }

/-- The target of a branch word (R59). -/
def Gang.branchTarget (g : Gang) (d : BitVec 22) : Word64 := g.wordPc + sext64 d * 4

/-- The address of the word that follows. -/
def Gang.afterWord (g : Gang) : Word64 := g.wordPc + 4

/-- HDR: with every flag of WAIT at zero a run begins, its T registers unwritten and zero, and its first word follows in the
same issue slot (R64, R65, R316, R321).  PRIO bears on the group's age alone (`Gang.headerAge`). -/
def execHdr (l : BitVec 5) (w : BitVec 12) (_p : BitVec 1) (s : State) : Result :=
  if s.here.flagsClear w then
    .next (s.onHere (fun g =>
      let g := g.clearT
      { g with grp := { g.grp with run := some ⟨l.toNat, 0⟩, wait := .ready, bound := true } }))
  else .next s.stall

/-- Whether a BR condition holds in a slice (R322). -/
def Gang.condition (g : Gang) (cond sl : Nat) : Bool :=
  let lanes := (List.range 4).map (fun i => 4 * sl + i)
  let exec := fun l => (g.mask 0).getLsbD l
  let selected := fun l => exec l && g.guardSelects l
  match cond with
  | 0 => true
  | 1 => g.sccOf sl
  | 2 => !g.sccOf sl
  | 3 => !lanes.any exec
  | 4 => lanes.any exec
  | 5 => lanes.all exec
  | 6 => !lanes.any selected
  | 7 => lanes.any selected
  | _ => false

/-- BR (R322). -/
def execBr (c : BitVec 4) (d : BitVec 22) (s : State) : Result :=
  s.issue { ends := true } (fun s => s.onHere (fun g =>
    g.part (fun sl => if g.condition c.toNat sl then g.branchTarget d else g.afterWord)))

/-- BR.NEVER: a hint (R322). -/
def execBrNever (_d : BitVec 22) (s : State) : Result := s.issue {} State.done

/-- CALL (R323). -/
def execCall (d : BitVec 22) (s : State) : Result :=
  s.issue { ends := true } (fun s => s.onHere (fun g =>
    (g.writeS g.members 63 (fun _ => g.afterWord)).part (fun _ => g.branchTarget d)))

/-- A transfer to the address that each slice holds in a register: a target that is no multiple of 4 raises
MISALIGN, and nothing is written (R324). -/
def State.jumpTo (s : State) (r : Nat) (link : Bool) : Result :=
  s.issue { ends := true } (fun s =>
    let g := s.here
    match (g.members.map (fun sl => (g.sreg sl r).toNat)).find? (fun t => t % 4 != 0) with
    | some t => s.precise .misalign t
    | none => s.onHere (fun g =>
        (if link then g.writeS g.members 63 (fun _ => g.afterWord) else g).part (fun sl => g.sreg sl r)))

/-- JMP (R324). -/
def execJmp (a : BitVec 6) (s : State) : Result := s.jumpTo a.toNat false
/-- CALLR: Sa is read before S63 is written (R324). -/
def execCallr (a : BitVec 6) (s : State) : Result := s.jumpTo a.toNat true
/-- RET (R324). -/
def execRet (s : State) : Result := s.jumpTo 63 false

/-! ## Rejoining and exit (R33, R36, R325, R326) -/

/-- The other group that holds a slice comes to the pipe. -/
def Gang.turnTo (g : Gang) (slice : Nat) : Gang :=
  match g.parted.find? (fun p => p.slices.getLsbD slice) with
  | some p => { g with grp := p, parted := g.grp :: g.parted.filter (fun q => !q.slices.getLsbD slice) }
  | none => g

/-- A gang and one of its groups come to the pipe. -/
def State.focus (s : State) (core slot slice : Nat) : State :=
  match s.gang core slot with
  | none => s
  | some g =>
    if s.here.core = core ∧ s.here.slot = slot then { s with here := g.turnTo slice }
    else
      let rest := s.gangs.erase (gangKey core slot)
      { s with
        here := g.turnTo slice
        gangs := if s.here.ended then rest else rest.insert (gangKey s.here.core s.here.slot) s.here }

/-- The rejoin id that a group waits with. -/
def Group.rejoin (p : Group) : Option Nat :=
  match p.wait with
  | .regang id => some id
  | _ => none

/-- The address of a group's word. -/
def Gang.groupPc (g : Gang) (p : Group) : Word64 := { g with grp := p }.wordPc

/-- Whether every slice of a gang that has not exited waits at a REGANG word (R36). -/
def Gang.allRejoin (g : Gang) : Bool :=
  g.groups.any (fun p => p.slices != 0) && g.groups.all (fun p => p.slices == 0 || p.rejoin.isSome)

/-- Once every slice not exited waits at a REGANG word: one address and one id form one group again, which goes on
after the word; otherwise the gang faults at the word of its lowest slice (R36).  `waited` tells that some slice has waited
there before, so that the group re-forms: WAKEWHY then takes REJOIN (R325), and in a halted gang the wait ends only after a
WAKEG (R372). -/
def State.rejoin (s : State) (waited : Bool) : State :=
  let g := s.here
  let gs := g.groups.filter (fun p => p.slices != 0)
  if !g.allRejoin || (g.halted && waited) then s
  else if gs.all (fun p => g.groupPc p == g.groupPc (gs.headD g.grp) && p.rejoin == (gs.headD g.grp).rejoin) then
    s.onHere (fun g =>
      let one := { g with
        grp := { slices := gs.foldl (fun m (p : Group) => m ||| p.slices) 0, pc := g.groupPc (gs.headD g.grp) + 4
                 why := gs.foldl (fun m (p : Group) => m ||| p.why) 0 }
        parted := [] }
      one.endWait (if waited then 16 else 0))
  else
    let low := trailingZeros 16 (gs.foldl (fun m (p : Group) => m ||| p.slices) 0).toNat
    (s.onHere (fun g => g.turnTo low)).precise .uniform

/-- REGANG (R36, R325). -/
def execRegang (d : BitVec 6) (s : State) : Result :=
  s.issue { ends := true } (fun s =>
    let parted := s.here.parted.any (fun p => p.slices != 0)
    ((s.onHere (fun g => g.waitFor (.regang d.toNat))).rejoin parted).tryGate s.here.core)

/-- EXIT: the slices of the group have exited; the gang's other groups may rejoin without them (R33, R326), and a grid
phase may complete (R332). -/
def execExit (s : State) : Result :=
  s.issue { ends := true } (fun s =>
    let s := s.onHere (fun g =>
      let g := { g with exited := g.exited ||| g.grp.slices }
      match g.parted with
      | [] => { g with grp := { g.grp.goTo g.grp.pc with slices := 0 } }
      | p :: rest => { g with grp := p, parted := rest })
    (if s.here.parted.isEmpty && s.here.grp.slices == 0 then s else s.rejoin true).gridTest (s.block s.here.block).launch)

/-- YIELD: the run ends (R327). -/
def execYield (s : State) : Result := s.issue { ends := true } State.done

/-- A word that decodes to no instruction raises ILLEGAL (R79, R80). -/
def execIllegal (s : State) : Result := s.issue { illegal := true } State.done

end Sys2Proof.Machine
end

