-- ==== Sys2Proof/Machine/Sreg.lean ====
section
/-! DEFINITION. State registers (R74, R124): what each reads, which values each takes, and the side effects of writes
to the privileged set (R114, R353 to R355). -/

namespace Sys2Proof.Machine

/-! ## The register map (R74, R353) -/

/-- Whether an index of the privileged set names a register (R353). -/
def privListed (i : Nat) : Bool :=
  if i < 0xC00 then decide (field i 0 6 ≤ 0x11)
  else if i < 0xC40 then true
  else decide (0xE00 ≤ i) && decide (i ≤ 0xE02)

/-- Whether an index names a register. -/
def regListed (i : Nat) : Bool :=
  if 0x800 ≤ i then privListed i
  else decide (i ≤ 0x012) || (decide (0x020 ≤ i) && decide (i ≤ 0x027)) || (decide (0x030 ≤ i) && decide (i ≤ 0x03F))

/-- Whether a register is read-only. -/
def regReadOnly (i : Nat) : Bool :=
  (decide (2 ≤ i) && decide (i ≤ 0xA)) || i == 0xC || i == 0xF || i == 0x10 || i == 0x12 ||
    (decide (0x020 ≤ i) && decide (i ≤ 0x027)) || i == 0xE01 || i == 0xE02

/-! ## Reads -/

/-- The blocks that are resident on a core, with their keys. -/
def State.residents (s : State) (core : Nat) : List (Nat × Block) :=
  s.blocks.filter (fun e => e.2.core == core && !e.2.ended)

/-- A kernel as mirroring counts it: a launch with its tasks, or, with no launch, the job of a handler (R43, log entry
62). -/
structure Kernel where
  launch : Nat
  job : Option Nat
  deriving DecidableEq, Repr

/-- The kernel of a block. -/
def Block.mirrorKernel (b : Block) : Kernel := ⟨b.launch, if b.launch = 0 then b.job else none⟩

/-- The granules that a kernel's gangs hold on a core: its register total (R43, log entry 62). -/
def State.registerTotal (s : State) (core : Nat) (k : Kernel) : Nat :=
  (s.allGangs.filter (fun g => g.core == core && !g.isSupervisor && (s.block g.block).mirrorKernel == k)).foldl
    (fun n g => n + g.granules) 0

/-- By core, how a kernel is mirrored: 1 now, 2 no longer, 3 never (R43). -/
def State.mirrorTable (s : State) (k : Kernel) : Table Nat :=
  match k.job with
  | some j => ((s.jobs.find j).map Job.mirror).getD []
  | none => (s.launch k.launch).mirror

/-- How a kernel is mirrored on a core: 0 where it has not stood there. -/
def State.mirrorOn (s : State) (core : Nat) (k : Kernel) : Nat := Table.get 0 (s.mirrorTable k) core

/-- How a kernel is mirrored on a core, written. -/
def State.setMirror (s : State) (core : Nat) (k : Kernel) (v : Nat) : State :=
  match k.job with
  | some j => { s with jobs := s.jobs.adjust j (fun j => { j with mirror := j.mirror.insert core v }) }
  | none => { s with launches := s.launches.adjust k.launch (fun l => { l with mirror := l.mirror.insert core v }) }

/-- The kernels that are mirrored on a core. -/
def State.mirrored (s : State) (core : Nat) : List Kernel :=
  (s.launches.keys.map (fun k => (⟨k, none⟩ : Kernel)) ++ s.jobs.keys.map (fun j => (⟨0, some j⟩ : Kernel))).filter
    (fun k => s.mirrorOn core k == 1)

/-- MIRROR (R44); the supervisor gang belongs to no kernel and reads 0 (log entry 60). -/
def State.mirrorReg (s : State) (g : Gang) : Nat :=
  if g.isSupervisor then 0
  else
    let k := (s.block g.block).mirrorKernel
    let m := s.mirrorOn g.core k
    (if m = 1 then 1 else 0) + (if m = 2 then 2 else 0) + s.registerTotal g.core k * 4

/-- WSTIME (R199). -/
def State.wstime (s : State) : Nat := s.cycle % 65536 + s.cycle / 65536 % 2 ^ 48 * 65536

/-- WSCAL (R199). -/
def wscal : Nat := 16 + 1024 * 2 ^ 16 + 1024 * 2 ^ 32 + 6 * 2 ^ 48

/-- CORETEN of a core (R354). -/
def State.coreten (s : State) (core : Nat) : Nat :=
  match s.residents core with
  | [] => 0
  | (_, b) :: _ => b.tenant + 16

/-- What a register reads in a slice of a gang (R27, R74, R124).  In the supervisor gang, which belongs to no block, GANGID,
BLOCKID and ROLE read 0 (log entry 60). -/
def State.readReg (s : State) (g : Gang) (sl i : Nat) : Word64 :=
  if 0x800 ≤ i then
    (if i = 0xE01 then s.privReg i ||| (if s.preempt.isSome then 1 else 0)
     else if i = 0xE02 then BitVec.ofNat 64 (s.coreten g.core)
     else s.privReg i)
  else if 0x030 ≤ i then Table.get 0 (s.core g.core).evc (i - 0x030)
  else if 0x020 ≤ i then Table.get 0 (s.block g.block).cwp (i - 0x020)
  else match i with
    | 0x000 => zext64 (g.modeOf sl)
    | 0x001 => g.narrow
    | 0x002 => 64
    | 0x003 => BitVec.ofNat 64 sl
    | 0x004 => BitVec.ofNat 64 g.gangId
    | 0x005 => BitVec.ofNat 64 (s.block g.block).linear
    | 0x006 => BitVec.ofNat 64 (g.core / 4)
    | 0x007 => BitVec.ofNat 64 g.core
    | 0x008 => BitVec.ofNat 64 g.role
    | 0x009 => BitVec.ofNat 64 g.pts
    | 0x00A => BitVec.ofNat 64 g.ats
    | 0x00B => g.lfault
    | 0x00C => g.lcause
    | 0x00D => g.seed
    | 0x00E => g.wakewhy
    | 0x00F => BitVec.ofNat 64 s.wstime
    | 0x010 => BitVec.ofNat 64 wscal
    | 0x011 => g.layer
    | _ => BitVec.ofNat 64 (s.mirrorReg g)

/-! ## Values that a register takes -/

/-- LAYER: no reserved bit, and not enabled with REFRESH 0 (R196). -/
def layerOk (v : Nat) : Bool := field v 33 31 == 0 && !(bitOf v 32 && field v 24 8 == 0)

/-- An event counter: no reserved bit and no reserved SOURCE (R417). -/
def evcOk (v : Nat) : Bool := field v 57 7 == 0 && decide (field v 48 8 ≤ 16)

/-- Whether TCTL may go from a state to a value (R355). -/
def tctlOk (state v : Nat) : Bool :=
  decide (v < 4) && (match state with
    | 0 => true
    | 3 => v == 3
    | _ => v != 0)

/-- Whether the bits of `v` all lie from `lo` up to, but not at, `hi`. -/
def onlyBits (v lo hi : Nat) : Bool := v % 2 ^ lo == 0 && decide (v < 2 ^ hi)

/-- A per-tenant register's fields (R354). -/
def State.tenantRegOk (s : State) (t r v : Nat) : Bool :=
  match r with
  | 0x00 => onlyBits v 13 52
  | 0x01 => tctlOk (s.tenantState t) v
  | 0x06 => field v 3 1 == 0 && field v 7 1 == 0 && field v 11 1 == 0 && decide (v < 2 ^ 15)
  | 0x07 => onlyBits v 16 52
  | 0x08 => decide (v < 2 ^ 32)
  | 0x09 => decide (v < 2 ^ 11) && decide (field v 0 5 + field v 5 6 ≤ 32)
  | 0x0A => onlyBits v 6 49
  | 0x0B => decide (v < 2 ^ 32)
  | 0x0C => v == 0 || (decide (4 ≤ field v 0 4) && field v 4 8 == 0 && decide (v < 2 ^ 52))
  | 0x0D => true
  | 0x0E => onlyBits v 22 52
  | 0x0F => (field v 0 4 == 0 || (decide (4 ≤ field v 0 4) && decide (field v 0 4 ≤ 12))) && field v 4 8 == 0 && decide (v < 2 ^ 49)
  | 0x10 => onlyBits v 12 49
  | 0x11 => onlyBits v 12 49
  | _ => true

/-- FWLIM's own fields (R114). -/
def fwLimOk (lim : Nat) : Bool := (field lim 0 5 == 6 || field lim 0 5 == 7) && field lim 6 10 == 0 && decide (lim < 2 ^ 52)

/-- FWPITCH under FWLIM (R114).  While FWLIM still holds its reset value, whose FMT names no format, there is no block size
to divide it (log entry 71). -/
def fwPitchOk (pitch lim : Nat) : Bool :=
  decide (pitch < 2 ^ 32) && pitch != 0 && pitch % 64 == 0 &&
    (!(field lim 0 5 == 6 || field lim 0 5 == 7) || pitch % blockBytes (field lim 0 5) (field lim 5 1) == 0)

/-- Whether a write to register `r` of a format window breaks none of the rules of R114 that concern the register, with the
window's other registers as they stand: FWBASE and FWLIM must leave LIMIT above BASE, and FWLIM and FWPITCH a pitch that the
block size divides.  A window is therefore set up in the order FWPITCH, FWLIM, FWBASE (log entry 71). -/
def State.windowOk (s : State) (w r v : Nat) : Bool :=
  let now := fun (k : Nat) => if k = r then v else (s.privReg (0xC00 + 4 * w + k)).toNat
  let above := decide (field (now 0) 16 36 < field (now 1) 16 36)
  match r with
  | 0 => field v 1 15 == 0 && decide (v < 2 ^ 52) && above
  | 1 => fwLimOk v && above && fwPitchOk (now 3) v
  | 2 => onlyBits v 3 52
  | _ => fwPitchOk v (now 1)

/-- Whether a register takes a value: no reserved bit, no excluded value (R73, R124, R196, R334, R354, R417). -/
def State.writeOk (s : State) (i v : Nat) : Bool :=
  if 0xE00 ≤ i then decide (v < 2 ^ 16) && field v 5 3 == 0 && s.preempt.isNone
  else if 0xC00 ≤ i then s.windowOk ((i - 0xC00) / 4) (i % 4) v
  else if 0x800 ≤ i then s.tenantRegOk (field i 6 4) (field i 0 6) v
  else if 0x030 ≤ i then evcOk v
  else match i with
    | 0x000 => decide (v < 2 ^ 32) && modeOk (BitVec.ofNat 32 v)
    | 0x001 => narrowOk (BitVec.ofNat 64 v)
    | 0x00E => decide (v < 2 ^ 12)
    | 0x011 => layerOk v
    | _ => true

/-! ## Side effects (R308, R354, R355) -/

/-- Cached translations dropped from every TLB of the device where `p` holds (R371). -/
def State.dropTlb (s : State) (p : Nat → Translation → Bool) : State :=
  let keep := fun (t : Table Translation) => t.filter (fun e => !p e.1 e.2)
  { s with
    cores := s.cores.map (fun e => (e.1, { e.2 with tlb := keep e.2.tlb }))
    clusters := s.clusters.map (fun e => (e.1, { e.2 with tlb := keep e.2.tlb })) }

/-- Every cached translation of a tenant dropped: TLBINVA (R371). -/
def State.dropTenantTlb (s : State) (t : Nat) : State := s.dropTlb (fun k _ => k / 2 ^ 40 == t)

/-- The state after an invalidation starts: it waits for what was issued before `marker`. -/
def State.markNow (s : State) : State :=
  { s.onHere (fun g => { g with grp := { g.grp with marker := some s.nextId } }) with nextId := s.nextId + 1 }

/-- Whether every access of a tenant, engine command and matrix-queue operation issued before `m` is performed and
acknowledged (R371). -/
def State.tenantDone (s : State) (t m : Nat) : Bool :=
  !s.ops.any (fun o => decide (o.id < m) && ((s.gang o.core o.slot).map s.tenantOf).getD 0 == t && o.slot != 48 && (match o.kind with
    | .load _ _ _ => true
    | .store _ _ => true
    | .atomic _ _ _ _ _ => true
    | _ => false)) &&
  s.cores.all (fun e => e.2.tenant != t || (!e.2.fifo.any (fun it => decide (it.id < m)) &&
    !e.2.cmds.any (fun k => decide (k.id < m)) && !e.2.mq.any (fun o => decide (o.id < m))))

/-- The cards kept from a stopped spill go to the ring when the context resumes; one whose ring page is still not
mapped stops it again (R308). -/
def State.ringSlotAddr (s : State) (t n : Nat) : Except Cause Nat :=
  s.deviceTranslate t (s.tenantReg t 0xA + 64 * (n % max 1 (s.tenantReg t 0xB))) .store

/-- A card's 64 bytes as the ring holds them (R305, R308). -/
def Job.cardBits (j : Job) : Nat :=
  j.descAddr + j.arg * 2 ^ 64 + j.blocks % 2 ^ 16 * 2 ^ 128 + (j.ranks - 1) % 4 * 2 ^ 144 + j.prio % 8 * 2 ^ 146 +
    (if j.depen then 2 ^ 149 else 0) + j.cluster % 64 * 2 ^ 150 + j.depphase % 2 ^ 32 * 2 ^ 160 + j.depoff % 2 ^ 20 * 2 ^ 192 +
    j.donectr * 2 ^ 256

/-- What a spill to the overflow ring comes to (R308). -/
inductive Spill where
  | placed | full | unmapped
  deriving DecidableEq, Repr

/-- Whether a slot of a tenant's overflow ring holds a card that has not moved into its queue. -/
def State.ringSlotUsed (s : State) (t n : Nat) : Bool :=
  s.jobs.any (fun e => e.2.tenant == t && e.2.place == .ring && e.2.ringSlot == n)

/-- The slot that the next spilled card takes: the first free one, round the ring, from the one after the cards spilled so
far (R308). -/
def State.ringNext (s : State) (t : Nat) : Nat :=
  let size := max 1 (s.tenantReg t 0xB)
  let n := Table.get 0 s.ringIn t
  (((List.range (n - Table.get 0 s.ringOut t + 1)).map (fun i => (n + i) % size)).find? (fun x => !s.ringSlotUsed t x)).getD (n % size)

/-- Whether the walk to the slot that the next spilled card of a tenant takes waits for the host (R247). -/
def State.ringWaits (s : State) (t : Nat) : Bool :=
  s.walkHeld t (s.tenantReg t 0xA + 64 * (s.ringNext t % max 1 (s.tenantReg t 0xB)))

/-- A card spills to the tenant's overflow ring (R308). -/
def State.spill (s : State) (key : Nat) : State × Spill :=
  match s.jobs.find key with
  | none => (s, .full)
  | some j =>
    let n := s.ringNext j.tenant
    if s.tenantReg j.tenant 0xB ≤ Table.get 0 s.ringIn j.tenant - Table.get 0 s.ringOut j.tenant then (s, .full)
    else match s.ringSlotAddr j.tenant n with
      | .error _ => (s, .unmapped)
      | .ok a =>
        let (s, _) := s.homeBytes j.pts (numberAt a 64 j.cardBits)
        ({ s with
          jobs := s.jobs.insert key { j with place := .ring, ringSlot := n }
          ringIn := Table.set 0 s.ringIn j.tenant (Table.get 0 s.ringIn j.tenant + 1) }, .placed)

/-- A context that RINGMAP stopped resumes: its kept cards spill again, in post order (R308). -/
def State.resume (s : State) (t : Nat) : State :=
  if s.ringStopped.contains t then
    let kept := (s.jobs.filter (fun e => e.2.tenant == t && e.2.place == .kept)).map Prod.fst
    let (s, stuck) := kept.foldl (fun (acc : State × Bool) key =>
      if acc.2 then acc
      else
        let (s, r) := acc.1.spill key
        (s, r != .placed)) (s, false)
    if stuck then s else { s with ringStopped := s.ringStopped.filter (fun x => x != t) }
  else s

/-- A legal write to TCTL (R355): the module is ACTIVE while a tenant is not OFF (R413). -/
def State.writeTctl (s : State) (t v : Nat) : State :=
  let s := s.setPriv (tenantIndex t 1) (BitVec.ofNat 64 v)
  let s := if v = 1 then s.resume t else s
  if (v = 1 ∨ v = 2) ∧ s.mgmt.power = .idle then { s with mgmt := { s.mgmt with power := .active, refresh := false } } else s

/-- Every Umbra entry of a tenant made absent (R192). -/
def State.scrubUmbra (s : State) (t : Nat) : State := { s with umbra := s.umbra.filter (fun e => e.tenant != t) }

/-- FLOGPTR after a write: WR stays, RD is written, and DROPPED clears where 0 is written (R354). -/
def flogptrAfter (old v : Nat) : Nat :=
  field old 0 24 + field v 24 24 * 2 ^ 24 + (if field v 48 16 = 0 then 0 else field old 48 16) * 2 ^ 48

/-- The launch, and job, that a block belongs to. -/
def Block.kernel (b : Block) : Nat × Option Nat := (b.launch, b.job)

/-- The keys of the set that a save of a tenant from a core takes: its blocks there, the blocks of the same grid or task that come
after one of them, and whole clusters (R363). -/
def State.saveSet (s : State) (tenant core : Nat) : List Nat :=
  (s.blocks.filter (fun e => !e.2.ended && s.blocks.any (fun f => f.2.core == core && f.2.tenant == tenant && !f.2.ended &&
    f.2.kernel == e.2.kernel && decide (f.2.linear - f.2.rank ≤ e.2.linear)))).map Prod.fst

/-- Whether a block, by key, belongs to the set that the save in progress takes (R363). -/
def State.inSet (s : State) (key : Nat) : Bool :=
  match s.preempt with
  | none => false
  | some p => !p.restore && p.blocks.contains key

/-- A legal write to a privileged register, with its side effects (R354). -/
def State.writePriv (s : State) (i v : Nat) : State :=
  let put := s.setPriv i (BitVec.ofNat 64 v)
  if i = 0xE00 then
    { put with preempt := some ⟨field v 0 4, field v 8 8, bitOf v 4, s.cycle, s.saveSet (field v 0 4) (field v 8 8)⟩ }
  else if 0xC00 ≤ i then put
  else match field i 0 6 with
    | 0x00 => put.dropTenantTlb (field i 6 4)
    | 0x01 => s.writeTctl (field i 6 4) v
    | 0x07 => put.scrubUmbra (field i 6 4)
    | 0x08 => put.scrubUmbra (field i 6 4)
    | 0x0D => s.setPriv i (BitVec.ofNat 64 (flogptrAfter (s.privReg i).toNat v))
    | _ => put

/-- A legal write by the issuing group: each slice's own copy of MODE, or the one copy of the gang, the core or the
device (R124). -/
def State.writeReg (s : State) (i : Nat) (value : Nat → Word64) : State :=
  let g := s.here
  let v := value (g.members.headD 0)
  if 0x800 ≤ i then s.writePriv i v.toNat
  else if 0x030 ≤ i then
    let c := s.core g.core
    s.setCore g.core { c with evc := Table.set 0 c.evc (i - 0x030) v, evcSet := (i - 0x030) :: c.evcSet }
  else s.onHere (fun g => match i with
    | 0x000 => g.members.foldl (fun g sl => g.setMode sl ((value sl).setWidth 32)) g
    | 0x001 => { g with narrow := v }
    | 0x00B => { g with lfault := v }
    | 0x00D => { g with seed := v }
    | 0x00E => { g with wakewhy := v }
    | _ => { g with layer := v })

/-! ## The forms (R124) -/

/-- SRD (R124). -/
def execSrd (d : BitVec 6) (i : BitVec 12) (s : State) : Result :=
  s.issue { illegal := !regListed i.toNat, supervisor := decide (0x800 ≤ i.toNat) } (fun s =>
    (s.onHere (fun g => g.writeS g.members d.toNat (fun sl => s.readReg g sl i.toNat))).done)

/-- Whether a register is TROOT of some tenant, whose write completes as TLBINVA does (R354). -/
def isTroot (i : Nat) : Bool := decide (0x800 ≤ i) && decide (i < 0xC00) && field i 0 6 == 0

/-- What a write of Sa to a register needs: a value check fails with ILLEGAL, ahead of PRIV; every register but MODE is written once, from a uniform Sa (R81, R124, R353). -/
def State.swrDemand (s : State) (a : BitVec 6) (i : Nat) : Demand :=
  let g := s.here
  { illegal := !regListed i || regReadOnly i || g.members.any (fun sl => !s.writeOk i (g.sreg sl a.toNat).toNat)
    supervisor := decide (0x800 ≤ i)
    differs := i != 0 && !g.isUniform a.toNat }

/-- Whether a write to TCTL lets a context go on whose cards must wait for a walk that the host holds up (R247, R308). -/
def State.resumeWaits (s : State) (i v : Nat) : Bool :=
  let t := field i 6 4
  decide (0x800 ≤ i) && decide (i < 0xC00) && field i 0 6 == 1 && v == 1 && s.ringStopped.contains t && s.ringWaits t

/-- A write, and for an exchange the old value first (R124).  A write to TROOT then waits as TLBINVA does. -/
def State.swrWord (s : State) (d : Option (BitVec 6)) (a : BitVec 6) (i : Nat) : Result :=
  match s.here.grp.marker with
  | some m => .next (if s.tenantDone (field i 6 4) m then s.done else s.stall)
  | none =>
    s.issue (s.swrDemand a i) (fun s =>
      if s.resumeWaits i (s.here.uniformS a.toNat).toNat then s.stall
      else
      let old := s.readReg s.here
      let value := fun sl => s.here.sreg sl a.toNat
      let s := s.writeReg i value
      let s := match d with
        | some d => s.onHere (fun g => g.writeS g.members d.toNat (fun sl => old sl i))
        | none => s
      if isTroot i then
        let s := s.markNow
        if s.tenantDone (field i 6 4) (s.nextId - 1) then s.done else s.stall
      else s.done)

/-- SWR (R124). -/
def execSwr (a : BitVec 6) (i : BitVec 12) (s : State) : Result := s.swrWord none a i.toNat

/-- SXCH (R124). -/
def execSxch (d a : BitVec 6) (i : BitVec 12) (s : State) : Result := s.swrWord (some d) a i.toNat

/-! ## Writes that have a row of their own (R114, R354, R355)

Each is the effect of such a write when the supervisor gang on the pipe makes it; the SWR word itself also makes it.  A
write that the rules refuse raises ILLEGAL and changes nothing; while another gang is on the pipe, or no supervisor runs, there is
none. -/

/-- Whether the cores run: the supervisors have started, and the module is ACTIVE or IDLE (R409, R413, R414). -/
def State.coresRun (s : State) : Bool :=
  s.mgmt.started && !s.mgmt.recovery && (s.mgmt.power == .active || s.mgmt.power == .idle)

/-- A write of `v` to privileged register `i` by the gang on the pipe. -/
def State.privWrite (s : State) (i v : Nat) : Result :=
  if s.here.isSupervisor && s.coresRun then
    s.issue { illegal := !s.writeOk i v } (fun s => if s.resumeWaits i v then s else s.writePriv i v)
  else .next s

/-- TCTL_OFF (R355). -/
def execTctlOff (t : Nat) (s : State) : Result := s.privWrite (tenantIndex (t % 16) 1) 0
/-- TCTL_RUN (R355). -/
def execTctlRun (t : Nat) (s : State) : Result := s.privWrite (tenantIndex (t % 16) 1) 1
/-- TCTL_SUSPEND (R355). -/
def execTctlSuspend (t : Nat) (s : State) : Result := s.privWrite (tenantIndex (t % 16) 1) 2
/-- TCTL_TEARDOWN (R355): its steps follow in TEARDOWN_COMPLETE. -/
def execTctlTeardown (t : Nat) (s : State) : Result := s.privWrite (tenantIndex (t % 16) 1) 3
/-- TROOT_WRITE (R354). -/
def execTrootWrite (t v : Nat) (s : State) : Result := s.privWrite (tenantIndex (t % 16) 0) v
/-- UMBRA_REGION_WRITE: UMSIZE or UMBASE (R354). -/
def execUmbraRegionWrite (t : Nat) (size : Bool) (v : Nat) (s : State) : Result :=
  s.privWrite (tenantIndex (t % 16) (if size then 8 else 7)) v
/-- FLOGPTR_WRITE (R354). -/
def execFlogptrWrite (t v : Nat) (s : State) : Result := s.privWrite (tenantIndex (t % 16) 0xD) v
/-- FORMAT_WINDOW_WRITE: register `r` of window `w` (R114). -/
def execFormatWindowWrite (w r v : Nat) (s : State) : Result := s.privWrite (0xC00 + 4 * (w % 16) + r % 4) v

end Sys2Proof.Machine
end

