-- ==== Sys2Proof/Machine/Barriers.lean ====
section
/-! DEFINITION. Barrier objects at work, watches, and registers from the pool (R320, R328 to R339). -/

namespace Sys2Proof.Machine

/-! ## Barrier operands (R328) -/

/-- A barrier operand: the carve-out's key, the offset, and whether it names a peer. -/
structure BarrierRef where
  key : Nat
  off : Nat
  peer : Bool
  deriving DecidableEq, Repr

/-- The object that a barrier operand names for a gang, or the cause that it raises (R320, R328). -/
def State.barrierRef (s : State) (g : Gang) (v : Nat) : Except Cause BarrierRef :=
  let off := field v 0 20
  let rank := field v 20 2
  let peer := bitOf v 22
  if off % 16 ≠ 0 then .error .misalign
  else if v / 2 ^ 23 ≠ 0 ∨ (peer = false ∧ rank ≠ 0) ∨ (s.block g.block).ranks ≤ rank then .error .shape
  else
    let key := if peer && !g.isSupervisor then s.peerKey g rank else g.carveKey
    if s.carveEnded (carveAt key) = false ∧ s.carveSize (carveAt key) < off + 16 then .error .shape else .ok ⟨key, off, peer⟩

/-- Whether a word of an object is poisoned (R398). -/
def State.objectPoisoned (s : State) (key off n : Nat) : Bool :=
  (List.range ((off % 4 + n + 3) / 4)).any (fun i => s.scratchPoisoned (carveAt key) (off / 4 + i))

/-- A barrier form meets an ended peer: LCAUSE.BARGONE and one lane event (R328, R395). -/
def Gang.barGone (g : Gang) : Gang := { g with lcause := laneEvent g.lcause .peergone }.stickyCause 17

/-- A scalar result and SCC in every participating slice (R320). -/
def Gang.answer (g : Gang) (d : Option (BitVec 6)) (v : Word64) (scc : Bool) : Gang :=
  let g := match d with
    | some d => g.writeS g.members d.toNat (fun _ => v)
    | none => g
  g.writeScc g.members (fun _ => scc)

/-- Peer accesses of a gang that are not performed. -/
def State.peerBusy (s : State) (key : Nat) : Bool :=
  s.ops.any (fun o => o.gang == key && o.lanes.any (fun a => decide (a.rank < 4)) && (match o.kind with
    | .scratchLoad _ _ => true
    | .scratchStore => true
    | _ => false))

/-- A form on a barrier object: its uniform operands, the operand's causes, `second` for the value of Sb, the ended
peer, poison, and then its effect. -/
def State.barrierWord (s : State) (ends : Bool) (ordered : Bool) (a : BitVec 6) (b : Option (BitVec 6)) (second : Nat → Bool)
    (gone : State → State) (effect : State → BarrierRef → State) : Result :=
  let g := s.here
  let dem : Demand := { ends := ends, differs := !g.isUniform a.toNat || (b.map (fun b => !g.isUniform b.toNat)).getD false ||
    (ordered && !g.uniformMode modeScope) }
  s.issue dem (fun s =>
    let v := (g.uniformS a.toNat).toNat
    match s.barrierRef g v with
    | .error c => s.precise c (if c = .misalign then field v 0 20 else 0)
    | .ok r =>
      if (b.map (fun b => !second (g.uniformS b.toNat).toNat)).getD false then s.precise .shape
      else if s.carveEnded (carveAt r.key) then gone s
      else if s.wordHeld then (s.noteSince false).stall
      else if r.peer && s.peerBusy g.key then s.stall
      else
        let s := s.flushScratch g.key
        if s.objectPoisoned r.key r.off 16 then s.killHere .uncorr else effect s r)

/-- The scope of an arrival or wait: MODE.SCOPE, at least cluster for a peer object (R331). -/
def Gang.barrierScope (g : Gang) (r : BarrierRef) : Nat :=
  if r.peer then max 2 (modeScope g.firstMode) else modeScope g.firstMode

/-- Whether an expectation value keeps its reserved bits zero (R328). -/
def expectOk (v : Nat) : Bool := decide (v < 2 ^ 48)
/-- Whether a phase operand keeps its reserved bits zero (R328). -/
def phaseOk (v : Nat) : Bool := decide (v < 2 ^ 32)

/-! ## Arrivals (R330 to R332) -/

/-- BARINIT (R330). -/
def execBarinit (a b : BitVec 6) (s : State) : Result :=
  s.barrierWord false false a (some b) expectOk (fun s => (s.onHere Gang.barGone).done) (fun s r =>
    let v := (s.here.uniformS b.toNat).toNat
    let s := s.setBarrier (carveAt r.key) r.off ⟨0, field v 32 16, 0, field v 0 32, 0⟩
    (s.setPhaseTs (carveAt r.key) r.off s.here.ptsNow).done)

/-- BAREXP: the counts stay, and the completion test follows (R330). -/
def execBarexp (a b : BitVec 6) (s : State) : Result :=
  s.barrierWord false false a (some b) expectOk (fun s => (s.onHere Gang.barGone).done) (fun s r =>
    let v := (s.here.uniformS b.toNat).toNat
    (s.updateBarrier (carveAt r.key) r.off 1 (fun o => { o with arriveExpect := field v 32 16, bytesExpect := field v 0 32 })).done)

/-- The arrival of the issuing group at an object: one update that adds its participating slices (R331). -/
def State.arriveHere (s : State) (r : BarrierRef) : State :=
  s.arriveAt (carveAt r.key) r.off s.here.members.length s.here.ptsNow 1

/-- BARARR (R331). -/
def execBararr (a : BitVec 6) (s : State) : Result :=
  s.barrierWord false true a none phaseOk (fun s => (s.onHere Gang.barGone).done) (fun s r =>
    s.afterRelease (s.here.barrierScope r) (fun s => (s.arriveHere r).done))

/-- Whether the issuing gang may use the grid barrier: its launch's descriptor carries GRIDBAR, and the gang belongs to
the grid and not to a task (R45). -/
def State.gridLegal (s : State) : Bool :=
  let b := s.block s.here.block
  b.job.isNone && !s.here.isSupervisor && (((s.launch b.launch).desc.map Descriptor.gridbar).getD false)

/-- Whether the issuing gang's kernel is phased (R47). -/
def State.phasedHere (s : State) : Bool :=
  (((s.launch (s.block s.here.block).launch).desc.map Descriptor.phased).getD false)

/-- The grid arrival of the issuing group: a slice counts once in a grid phase (R332). -/
def State.gridArrive (s : State) : State :=
  let g := s.here
  let b := s.block g.block
  let k := 16 * b.linear + g.gangId
  (s.onLaunch b.launch (fun l => { l with
    gridSlices := Table.set 0 l.gridSlices k (Table.get 0 l.gridSlices k ||| g.grp.slices.toNat)
    gridPts := max l.gridPts g.ptsNow })).gridTest b.launch

/-- BARARR.GRID (R332); a phased kernel has none. -/
def execBararrGrid (s : State) : Result :=
  s.issue { s.here.orderedDemand [] with illegal := !s.gridLegal || s.phasedHere } (fun s => s.afterRelease 3 (fun s => s.gridArrive.done))

/-! ## Waits (R331 to R334) -/

/-- How a wait ends. -/
structure WaitEnd where
  /-- the phase is reached -/
  ok : Bool
  /-- the timestamp and scope of the acquire, if there is one -/
  acquire : Option (Nat × Nat)
  /-- WAKEWHY bits -/
  why : Nat
  /-- the peer block had ended -/
  gone : Bool
  deriving DecidableEq, Repr

/-- Whether and how the wait of a group of a gang ends now (R328, R331 to R333).  The acquire waits for the pending
acknowledgements of dirty bytes that the gang has read (R234). -/
def State.waitEnd (s : State) (g : Gang) (p : Group) : Option WaitEnd :=
  match p.wait with
  | .barwait key off phase scope =>
    if s.carveEnded (carveAt key) then some ⟨true, none, 2048, true⟩
    else if phaseReached (s.barrier (carveAt key) off).phase phase then
      if s.awaitsAck g.key then none
      else some ⟨true, some (s.phaseTs (carveAt key) off, scope), s.reason (carveAt key) off, false⟩
    else if (s.block g.block).abandoned && !g.isSupervisor then some ⟨false, none, 32, false⟩
    else none
  | .grid phase =>
    let l := s.launch (s.block g.block).launch
    if (l.desc.map Descriptor.phased).getD false || decide (l.gridPhase < phase) || s.awaitsAck g.key then none
    else some ⟨true, some (l.gridTs, 3), 64, false⟩
  | _ => none

/-- The wait of the group on a gang's pipe ends: the acquire of R245, SCC, LCAUSE and WAKEWHY (R331, R334). -/
def Gang.endBarwait (g : Gang) (e : WaitEnd) : Gang :=
  let g := match e.acquire with
    | some (ts, _) => (g.raisePts ts).acquireClock
    | none => g
  let g := if e.gone then g.barGone else g
  (((g.writeScc g.members (fun _ => e.ok)).waitStatus (if e.ok then 0 else 1)).endWait e.why).advance

/-- A change to the group that holds a slice; the group on the pipe stays there. -/
def Gang.within (g : Gang) (slice : Nat) (f : Gang → Gang) : Gang :=
  if g.inGroup slice then f g
  else (f (g.turnTo slice)).turnTo (trailingZeros 16 g.grp.slices.toNat)

/-- The group of a gang that holds a slice. -/
def Gang.groupOf (g : Gang) (slice : Nat) : Option Group := g.groups.find? (fun p => p.slices.getLsbD slice)

/-- The wait of the group that holds a slice ends, if it can; a halted gang's wait ends only after WAKEG (R372). -/
def State.wakeGroup (s : State) (core slot slice : Nat) : State :=
  match s.gang core slot with
  | none => s
  | some g =>
    match (g.groupOf slice).bind (s.waitEnd g) with
    | none => s
    | some e =>
      if g.halted then s
      else
        let s := if (e.acquire.map Prod.snd) = some 2 then s.dropL1 core else s
        (s.onGang core slot (fun g => g.within slice (fun g => g.endBarwait e))).ungate core

/-- BARWAIT_WAKE (R331). -/
def execBarwaitWake (core slot slice : Nat) (s : State) : Result := .next (s.wakeGroup core slot slice)

/-- CORE_UNGATE (R318). -/
def execCoreUngate (core : Nat) (s : State) : Result := .next (s.ungate core)

/-- The issuing group starts a wait, which ends at once where its condition holds (R331); else the core may gate. -/
def State.startWait (s : State) (w : Wait) : State :=
  let s := s.onHere (fun g => { g with grp := { g.grp.fresh with wait := w, why := 0 } })
  (s.wakeGroup s.here.core s.here.slot (s.here.members.headD 0)).tryGate s.here.core

/-- BARWAIT (R331). -/
def execBarwait (n : BitVec 1) (a b : BitVec 6) (s : State) : Result :=
  s.barrierWord true true a (some b) phaseOk
    (fun s => s.onHere (fun g => g.endBarwait ⟨true, none, 2048, true⟩))
    (fun s r =>
      let wait := fun (s : State) => s.startWait (.barwait r.key r.off (s.here.uniformS b.toNat).toNat (s.here.barrierScope r))
      if n = 1 then wait s else s.afterRelease (s.here.barrierScope r) (fun s => wait (s.arriveHere r)))

/-- BARWAIT.GRID: in a phased kernel the boundary of its phase, at which the slices stop (R332). -/
def execBarwaitGrid (s : State) : Result :=
  s.issue { s.here.orderedDemand [] with ends := true, illegal := !s.gridLegal } (fun s =>
    s.afterRelease 3 (fun s =>
      let l := s.launch (s.block s.here.block).launch
      if s.phasedHere then s.onHere (fun g => { g with grp := { g.grp.fresh with wait := .grid (l.phase + 1), why := 0 } })
      else s.gridArrive.startWait (.grid (l.gridPhase + 1))))

/-- BARTRY (R330, R333). -/
def execBartry (d a b : BitVec 6) (s : State) : Result :=
  s.barrierWord false true a (some b) phaseOk
    (fun s => (s.onHere (fun g => (g.barGone.answer (some d) 1 true).waitStatus 0)).done)
    (fun s r =>
      if phaseReached (s.barrier (carveAt r.key) r.off).phase (s.here.uniformS b.toNat).toNat then
        if s.awaitsAck s.here.key then s.stall
        else
          let ts := s.phaseTs (carveAt r.key) r.off
          let s := if s.here.barrierScope r = 2 then s.dropL1 s.here.core else s
          (s.onHere (fun g => ((g.raisePts ts).acquireClock).answer (some d) 1 true)).done
      else
        let v := if (s.block s.here.block).abandoned && !s.here.isSupervisor then 2 else 0
        (s.onHere (fun g => g.answer (some d) v false)).done)

/-! ## Watches (R335 to R337) -/

/-- The memory stop that holds a line's watches (R18, R336). -/
def stopOf (line : Nat) : Nat := channelOf (64 * line) / 2

/-- A watch entry sent away: it fires with the wts_h of its line (R336). -/
def State.evictWatch (s : State) (w : Watch) : State :=
  { s.countDie (dieOf w.line) 12 1 with
    watches := s.watches.erase w
    arrivals := s.arrivals ++ [⟨w.line, w.block, w.offset, (s.home w.line).wts, false⟩] }

/-- An entry armed at the line's home: a line holds four and a stop 8,192, and the oldest makes room (R336). -/
def State.arm (s : State) (w : Watch) : State :=
  let s := s.setHome w.line (s.home w.line)
  let ofLine := s.watches.filter (fun x => x.line == w.line)
  let ofStop := s.watches.filter (fun x => stopOf x.line == stopOf w.line)
  let s :=
    if 4 ≤ ofLine.length then s.evictWatch (ofLine.headD w)
    else if 8192 ≤ ofStop.length then s.evictWatch (ofStop.headD w)
    else s
  { s with watches := s.watches ++ [w] }

/-- A form on a line and an object of the gang's own carve-out: MISALIGN, XLATE, PERM, then SHAPE (R320, R335, R337);
`away` for a line that cannot be watched. -/
def State.watchWord (s : State) (a b : BitVec 6) (away : State → State) (effect : State → Watch → State) : Result :=
  let g := s.here
  s.issue { differs := !g.isUniform a.toNat || !g.isUniform b.toNat } (fun s =>
    let va := (g.uniformS a.toNat).toNat
    let v := (g.uniformS b.toNat).toNat
    if va % 64 ≠ 0 then s.precise .misalign va
    else if field v 0 4 ≠ 0 then s.precise .misalign (field v 0 20)
    else if s.walkWaits g va then s.stall
    else
      let s := s.fillFor g va
      match s.translate g va .load with
      | .error c => s.addressFault c va
      | .ok pa =>
        match s.barrierRef g v with
        | .error c => s.precise c
        | .ok r =>
          if r.peer then s.precise .shape
          else if s.wordHeld then (s.noteSince false).stall
          else if s.objectPoisoned r.key r.off 16 then s.killHere .uncorr
          else if regionOf pa ≠ .hbm ∧ regionOf pa ≠ .tier then away s
          else effect s ⟨pa / 64, r.key, r.off⟩)

/-- WATCH (R335, R245). -/
def execWatch (d a b : BitVec 6) (s : State) : Result :=
  s.watchWord a b (fun s => (s.onHere (fun g => g.answer (some d) 0 false)).done) (fun s w =>
    let s := s.arm w
    let t := (s.home w.line).wts
    (s.onHere (fun g => (g.raisePts t).answer (some d) (BitVec.ofNat 64 t) true)).done)

/-- UNWATCH: it completes after any arrival already sent by a matching entry has been counted (R337). -/
def execUnwatch (a b : BitVec 6) (s : State) : Result :=
  s.watchWord a b (fun s => (s.onHere (fun g => g.answer none 0 false)).done) (fun s w =>
    if s.arrivals.any (fun x => x.line == w.line && x.block == w.block && x.offset == w.offset) then s.stall
    else
      let hit := s.watches.contains w
      ({ s with watches := s.watches.erase w }.onHere (fun g => g.answer none 0 hit)).done)

/-! ## Registers from the pool (R40 to R43, R339) -/

/-- The granules of a core held by no gang and used by no mirror (R40, R43, R339). -/
def State.freeGranules (s : State) (core : Nat) : Nat :=
  252 - (s.allGangs.filter (fun g => g.core == core && !g.isSupervisor)).foldl (fun n g => n + g.granules) 0
    - (s.mirrored core).foldl (fun n k => n + s.registerTotal core k) 0

/-- Mirroring of a kernel on a core turned off (R43). -/
def State.dropMirror (s : State) (core : Nat) (k : Kernel) : State :=
  if s.mirrorOn core k = 1 then s.setMirror core k 2 else s

/-- The granules that a kernel needs for `n` more: as many again while it is mirrored (R43). -/
def State.granuleNeed (s : State) (core : Nat) (k : Kernel) (n : Nat) : Nat := if s.mirrorOn core k = 1 then 2 * n else n

/-- Mirrors that a request of a kernel for `n` granules on a core turns off: its own, where its total would pass 126, and then
those of other kernels, until the pool holds what it needs (R43).  Which of them go, in the order of the core's kernels, and that
a mirrored kernel needs its copies too, are choices (log entry 74). -/
def State.makeRoom (s : State) (core : Nat) (k : Kernel) (n : Nat) : State :=
  let s := if 126 < s.registerTotal core k + n then s.dropMirror core k else s
  ((s.mirrored core).filter (fun x => x != k)).foldl (fun (s : State) x =>
    if s.freeGranules core < s.granuleNeed core k n then s.dropMirror core x else s) s

/-- A gang's linear id (R29). -/
def State.linearId (s : State) (g : Gang) : Nat := (s.block g.block).linear * (s.block g.block).gangCount + g.gangId

/-- The claims that wait on a core: gang, count and place in the order of requests. -/
def State.claims (s : State) (core : Nat) : List (Gang × Nat × Nat) :=
  (s.allGangs.filter (fun g => g.core == core && !g.isSupervisor)).flatMap (fun g => g.groups.filterMap (fun p =>
    match p.wait with
    | .claim n seq => some (g, n, seq)
    | _ => none))

/-- Whether two gangs belong to one grid or task. -/
def State.sameKernel (s : State) (g h : Gang) : Bool :=
  (s.block g.block).launch == (s.block h.block).launch && (s.block g.block).job == (s.block h.block).job

/-- Whether one claim goes before another of its kernel: by linear id (R41), and within a gang by request. -/
def State.claimBefore (s : State) (a b : Gang × Nat × Nat) : Bool :=
  decide (s.linearId a.1 < s.linearId b.1) || (s.linearId a.1 == s.linearId b.1 && decide (a.2.2 < b.2.2))

/-- Whether a claim is the next to be granted on its core: the first of its kernel, and, among the first ones of the
kernels, the earliest request (R41, R339). -/
def State.claimFirst (s : State) (core : Nat) (c : Gang × Nat × Nat) : Bool :=
  let heads := (s.claims core).filter (fun x => !(s.claims core).any (fun y => s.sameKernel x.1 y.1 && s.claimBefore y x))
  !(s.claims core).any (fun y => s.sameKernel y.1 c.1 && s.claimBefore y c) &&
    heads.all (fun h => s.sameKernel h.1 c.1 || decide (c.2.2 ≤ h.2.2))

/-- `n` more granules, whose registers read zero (R41). -/
def Gang.gain (g : Gang) (n : Nat) : Gang :=
  { g with granules := g.granules + n, v := g.v.filter (fun e => !(decide (8 * g.granules ≤ e.1 / 64) && decide (e.1 / 64 < 248))) }

/-- A waiting claim granted, if it is first in order and the pool holds it.  Where another sub-gang's grant has left the
gang with more than 31 − n granules, the claim raises CLAIM at its word instead (R40, R339, log entry 70). -/
def State.grantClaim (s : State) (core slot slice : Nat) (waited : Bool) : State :=
  match s.gang core slot with
  | none => s
  | some g =>
    match (g.groupOf slice).map Group.wait with
    | some (.claim n seq) =>
      let key := (s.block g.block).mirrorKernel
      if g.halted then s
      else if 31 < g.granules + n then (((s.focus core slot slice).onHere (fun g => g.waitFor .ready)).precise .claim).ungate core
      else if !s.claimFirst core (g, n, seq) then s
      else
        let s := s.makeRoom core key n
        if s.freeGranules core < s.granuleNeed core key n then s
        else (s.onGang core slot (fun g => g.within slice (fun g =>
          ((g.gain n).endWait (if waited then 8 else 0)).advance))).ungate core
    | _ => s

/-- CLAIM_GRANT (R41, R339). -/
def execClaimGrant (core slot slice : Nat) (s : State) : Result := .next (s.grantClaim core slot slice true)

/-- CLAIM (R41, R339).  The supervisor gang's granules are permanent (R40): it claims none. -/
def execClaim (a : BitVec 6) (s : State) : Result :=
  s.issue { s.here.uniformDemand [a] with ends := true } (fun s =>
    let n := (s.here.uniformS a.toNat).toNat
    if n = 0 then s.done
    else if 32 ≤ n ∨ 31 < s.here.granules + n ∨ s.here.isSupervisor = true then s.precise .claim
    else
      let seq := s.nextId
      let s := { s.onHere (fun g => { g with grp := { g.grp with wait := .claim n seq, why := 0 } }) with nextId := seq + 1 }
      let s := s.makeRoom s.here.core (s.block s.here.block).mirrorKernel n
      (s.grantClaim s.here.core s.here.slot (s.here.members.headD 0) false).tryGate s.here.core)

/-- The registers that an operation in progress will write. -/
def MemOp.dests (o : MemOp) : List Nat :=
  let wide := o.lanes.any (fun a => a.size == 8)
  match o.kind with
  | .load _ .scalar _ => []
  | .load _ _ d => if wide then [d, d + 1] else [d]
  | .scratchLoad _ d => if wide then [d, d + 1] else [d]
  | .atomic _ _ _ (some d) false => if wide then [d, d + 1] else [d]
  | _ => []

/-- GIVE: it stalls while an incomplete operation of the gang writes a register that it would release (R69, R339). -/
def execGive (a : BitVec 6) (s : State) : Result :=
  s.issue (s.here.uniformDemand [a]) (fun s =>
    let n := (s.here.uniformS a.toNat).toNat
    let held := s.here.granules
    if 32 ≤ n ∨ held < n ∨ (s.here.isSupervisor = true ∧ n ≠ 0) then s.precise .claim
    else if s.ops.any (fun o => o.gang == s.here.key && o.dests.any (fun d => decide (8 * (held - n) ≤ d) && decide (d < 248))) then s.stall
    else (s.onHere (fun g => { g with
      granules := held - n, v := g.v.filter (fun e => !(decide (8 * (held - n) ≤ e.1 / 64) && decide (e.1 / 64 < 248))) })).done)

/-- POOLQ (R339). -/
def execPoolq (d : BitVec 6) (s : State) : Result :=
  s.issue {} (fun s =>
    let core := s.here.core
    let waiting := ((s.claims core).map (fun c => c.1.slot)).eraseDups.length
    let v := s.freeGranules core + s.here.granules * 2 ^ 16 + waiting * 2 ^ 32
    (s.onHere (fun g => g.writeS g.members d.toNat (fun _ => BitVec.ofNat 64 v))).done)

end Sys2Proof.Machine
end

