-- ==== Sys2Proof/Machine/Special.lean ====
section
/-! DEFINITION. Special functions (R144).  The result for an ordinary input is a free value held inside the
bound of R144: the free value where it lies within the bound, else the correctly rounded one.  The exact
functions are approximated on a fixed grid of 2^-200, far finer than every bound. -/

namespace Sys2Proof.Machine

/-- The fixed grid: a number `x` stands for x / 2^200. -/
def grid : Nat := 2 ^ 200

/-- The product of two grid numbers. -/
def gmul (a b : Int) : Int := a * b / (grid : Int)

/-- The quotient of two grid numbers. -/
def gdiv (a b : Int) : Int := a * (grid : Int) / b

/-- Σ z^(2k+1) / (2k+1) from the term `p` = z^(2k+1) on, with alternating signs where `alt`: atanh, or atan. -/
def oddSeries (z2 : Int) (alt : Bool) : Nat → Nat → Int → Int
  | 0, _, _ => 0
  | n + 1, k, p => p / (2 * k + 1 : Nat) + oddSeries z2 alt n (k + 1) (let q := gmul p z2; if alt then -q else q)

/-- atanh of a grid number of magnitude at most 1/3. -/
def gatanh (z : Int) : Int := oddSeries (gmul z z) false 70 0 z

/-- The natural logarithm of 2. -/
def gln2 : Int := 2 * gatanh ((grid : Int) / 3)

/-- π, by Machin's formula. -/
def gpi : Int :=
  let at5 := (grid : Int) / 5
  let at239 := (grid : Int) / 239
  16 * oddSeries (gmul at5 at5) true 50 0 at5 - 4 * oddSeries (gmul at239 at239) true 20 0 at239

/-- Σ r^k / k! from the term `p` on. -/
def expSeries (r : Int) : Nat → Nat → Int → Int
  | 0, _, _ => 0
  | n + 1, k, p => p + expSeries r n (k + 1) (gmul p r / (k + 1 : Nat))

/-- e^r for a grid number of magnitude at most 1. -/
def gexp (r : Int) : Int := expSeries r 60 0 grid

/-- e^(−y) for a grid number y of at least 0; 0 where it is below the grid's use. -/
def gexpNeg (y : Int) : Int :=
  let k := y / gln2
  if 180 ≤ k then 0 else gexp (-(y % gln2)) / ((2 : Int) ^ k.toNat)

/-- Σ of the sine or cosine series from the term `p` of degree `k` on. -/
def trigSeries (r2 : Int) : Nat → Nat → Int → Int
  | 0, _, _ => 0
  | n + 1, k, p => p + trigSeries r2 n (k + 2) (-(gmul p r2) / ((k + 1) * (k + 2) : Nat))

/-- sin and cos of a grid number in [0, π/2]. -/
def gsin (r : Int) : Int := trigSeries (gmul r r) 40 1 r
/-- cos of a grid number in [0, π/2]. -/
def gcos (r : Int) : Int := trigSeries (gmul r r) 40 0 grid

/-- The sine of any grid number, by its quadrant. -/
def gsine (x : Int) : Int :=
  let h := gpi / 2
  let r := x % h
  match ((x / h) % 4).toNat with
  | 0 => gsin r
  | 1 => gcos r
  | 2 => -(gsin r)
  | _ => -(gcos r)

/-- Σ (−1)^k x^(2k+1) / (k! (2k+1)) from the term `p` = (−1)^k x^(2k+1) / k! on. -/
def erfSeries (x2 : Int) : Nat → Nat → Int → Int
  | 0, _, _ => 0
  | n + 1, k, p => p / (2 * k + 1 : Nat) + erfSeries x2 n (k + 1) (-(gmul p x2) / (k + 1 : Nat))

/-- erf of a grid number; plus or minus 1 beyond 7. -/
def gerf (x : Int) : Int :=
  if x > 7 * (grid : Int) then grid
  else if x < -(7 * (grid : Int)) then -(grid : Int)
  else gdiv (2 * erfSeries (gmul x x) 260 0 x) (isqrt (gpi.toNat * grid) : Nat)

/-- A grid number as a value. -/
def Num.ofGrid (x : Int) : Num := .fin (decide (x < 0)) x.natAbs grid

/-- A finite value on the grid. -/
def toGrid (neg : Bool) (n d : Nat) : Int := Num.numer neg (n * grid / d)

/-- 2^x: a power of two times 2 to the fractional part. -/
def exp2Value (neg : Bool) (n d : Nat) : Num :=
  let x : Int := Num.numer neg n
  let k := x / (d : Int)
  let frac := gexp (gmul ((x % (d : Int)) * (grid : Int) / (d : Int)) gln2)
  if 200 ≤ k then .inf false
  else if k < -400 then .fin false 1 (2 ^ 400)
  else if 0 ≤ k then .fin false (frac.toNat * 2 ^ k.toNat) grid else .fin false frac.toNat (grid * 2 ^ (-k).toNat)

/-- log2 of a positive value. -/
def log2Value (n d : Nat) : Num :=
  let k := ratLog2 n d
  let (num, den) := if 0 ≤ k then (n, d * 2 ^ k.toNat) else (n * 2 ^ (-k).toNat, d)
  let m : Int := (num * grid / den : Nat)
  Num.ofGrid (k * (grid : Int) + gdiv (2 * gatanh (gdiv (m - grid) (m + grid))) gln2)

/-- The function of a special-function code at a finite value (R144). -/
def specialValue (fn : Nat) (neg : Bool) (n d : Nat) : Num :=
  let x := toGrid neg n d
  let g : Int := grid
  match fn with
  | 0 => Num.div (.fin false 1 1) (.fin neg n d)
  | 1 => Num.div (.fin false 1 1) (Num.sqrt (.fin neg n d))
  | 2 => exp2Value neg n d
  | 3 => log2Value n d
  | 4 => Num.ofGrid (gsine x)
  | 5 => Num.ofGrid (gsine (x + gpi / 2))
  | 6 =>
    let t := gexpNeg (2 * (x.natAbs : Int))
    let y := gdiv (g - t) (g + t)
    Num.ofGrid (if neg then -y else y)
  | 7 =>
    let t := gexpNeg x.natAbs
    Num.ofGrid (if neg then gdiv t (g + t) else gdiv g (g + t))
  | 8 =>
    let root2 : Int := (isqrt (2 * grid * grid) : Nat)
    (Num.fin neg n d).mul (Num.ofGrid ((g + gerf (gdiv x root2)) / 2))
  | _ => Num.ofGrid (gerf x)

/-- Whether two finite values differ by at most `bn / bd`. -/
def withinAbs (a b : Num) (bn bd : Nat) : Bool :=
  match a, b with
  | .fin s n d, .fin t m e => decide ((Num.numer s n * e - Num.numer t m * d).natAbs * bd ≤ bn * (d * e))
  | _, _ => false

/-- One unit in the last place of binary32 at a value. -/
def ulp32 : Num → Nat × Nat
  | .fin _ n d =>
    if n = 0 then (1, 2 ^ 149)
    else
      let q := Fmt.f32.quantum n d
      if 0 ≤ q then (2 ^ q.toNat, 1) else (1, 2 ^ (-q).toNat)
  | _ => (1, 2 ^ 149)

/-- The bound of R144 on a result `r` for the exact value `y` at input `x`. -/
def specialBound (fn : Nat) (x y r : Num) : Bool :=
  let (un, ud) := ulp32 y
  let ulps := fun k => withinAbs r y (k * un) ud
  let abs := fun k => withinAbs r y 1 (2 ^ k)
  match fn with
  | 0 => ulps 1
  | 1 => ulps 1
  | 2 => ulps 2
  | 3 => if !x.lt (.fin false 1 2) && !(Num.fin false 2 1).lt x then abs 22 else ulps 2
  | 4 => abs 21
  | 5 => abs 21
  | 6 => ulps 2 || abs 22
  | 7 => ulps 2 || abs 24
  | 8 => ulps 4 || abs 22
  | _ => ulps 2 || abs 23

/-- The exact result of R144's special-value column, where the input has one. -/
def specialExact (fn : Nat) (x : Num) : Option Num :=
  match x with
  | .nan => some .nan
  | .inf s =>
    match fn with
    | 0 => some (.fin s 0 1)
    | 1 => some (if s then .nan else .fin false 0 1)
    | 2 => some (if s then .fin false 0 1 else .inf false)
    | 3 => some (if s then .nan else .inf false)
    | 4 => some .nan
    | 5 => some .nan
    | 6 => some (.fin s 1 1)
    | 7 => some (if s then .fin false 0 1 else .fin false 1 1)
    | 8 => some (if s then .fin true 0 1 else .inf false)
    | _ => some (.fin s 1 1)
  | .fin s n d =>
    if n = 0 then
      match fn with
      | 0 => some (.inf s)
      | 1 => some (.inf s)
      | 2 => some (.fin false 1 1)
      | 3 => some (.inf true)
      | 5 => some (.fin false 1 1)
      | 7 => none
      | _ => some (.fin s 0 1)
    else if s && (fn == 1 || fn == 3) then some .nan
    else if fn = 3 ∧ n = d then some (.fin false 0 1)
    else if fn = 2 ∧ n % d = 0 ∧ n / d ≤ 149 then
      some (if s then .fin false 1 (2 ^ (n / d)) else .fin false (2 ^ (n / d)) 1)
    else none

/-- The binary32 result of a special function for the bits `x` (R144). -/
def specialFunction (fn : Nat) (x : Word) : Nat :=
  let v := Fmt.f32.decode x.toNat
  match specialExact fn v with
  | some y => Fmt.f32.round .rne false y
  | none =>
    match v with
    | .fin s n d =>
      let free := (Config.specialFunction fn x).toNat
      let r := Fmt.f32.decode free
      if (fn = 4 ∨ fn = 5) ∧ n > d * 2 ^ 15 then
        if withinAbs r (.fin false 0 1) 1 1 then free else 0
      else
        let y := specialValue fn s n d
        if specialBound fn v y r then free else Fmt.f32.round .rne false y
    | _ => Fmt.f32.nan

/-- A special function of an element: narrower elements are widened exactly and the binary32 result is
rounded to the element format (R144). -/
def EType.special (t : EType) (fn : Nat) (m : FloatMode) (a : Nat) : Nat :=
  match t.fmt with
  | none => a
  | some f =>
    let x := f.input m.ftz a
    let r := specialFunction fn (BitVec.ofNat 32 (Fmt.f32.round .rne false x))
    f.round .rne m.ftz (Fmt.f32.decode r)

/-- A special-function form: f32, f16x2 or bf16x2 (R144). -/
def State.specialOp (s : State) (fn : Nat) (d a : BitVec 8) : Result :=
  s.elementwise1 (.only [2, 3, 4]) d a (fun t => t.special fn)

/-- VRCP (R144). -/
def execVrcp (d a : BitVec 8) (s : State) : Result := s.specialOp 0 d a
/-- VRSQ (R144). -/
def execVrsq (d a : BitVec 8) (s : State) : Result := s.specialOp 1 d a
/-- VEXP2 (R144). -/
def execVexp2 (d a : BitVec 8) (s : State) : Result := s.specialOp 2 d a
/-- VLOG2 (R144). -/
def execVlog2 (d a : BitVec 8) (s : State) : Result := s.specialOp 3 d a
/-- VSIN (R144). -/
def execVsin (d a : BitVec 8) (s : State) : Result := s.specialOp 4 d a
/-- VCOS (R144). -/
def execVcos (d a : BitVec 8) (s : State) : Result := s.specialOp 5 d a
/-- VTANH (R144). -/
def execVtanh (d a : BitVec 8) (s : State) : Result := s.specialOp 6 d a
/-- VSIGM (R144). -/
def execVsigm (d a : BitVec 8) (s : State) : Result := s.specialOp 7 d a
/-- VGELU (R144). -/
def execVgelu (d a : BitVec 8) (s : State) : Result := s.specialOp 8 d a
/-- VERF (R144). -/
def execVerf (d a : BitVec 8) (s : State) : Result := s.specialOp 9 d a

end Sys2Proof.Machine
end

