-- ==== Sys2Proof/Machine/Convert.lean ====
section
/-! DEFINITION. Conversion and packing (R145 to R151). -/

namespace Sys2Proof.Machine

/-- What a conversion reads besides its element: MODE of the slice, NARROW, SEED, the block record of S62
(R150), and the key of stochastic rounding (R110). -/
structure ConvertCtx where
  mode : Word
  narrow : Word64
  seed : Word64
  record : Word64
  deriving DecidableEq, Repr

/-- Whether a storage code is f32, i32 or n32. -/
def wideCode32 (c : Nat) : Bool := c == 0 || c == 8 || c == 9

/-- An element converted from storage code `cs` to `cd` (R145). -/
def convertElem (ctx : ConvertCtx) (cs cd key : Nat) (x : Nat) : Nat :=
  let ftz := modeFtz ctx.mode && wideCode32 cd
  let v : Num := match storage cs with
    | some (.float f) => if decide (cs ≤ 2) && ftz then f.decode (f.flush true x) else f.decode x
    | some st => st.decode ctx.record x
    | none => .nan
  match storage cs, cd with
  | some (.int sg w), 8 => wrapTo 32 (intRead sg w x)
  | some (.int sg w), 9 => wrapTo 32 (intRead sg w x)
  | _, 0 => Fmt.f32.round (floatMode ctx.mode).rnd (modeFtz ctx.mode) v
  | _, 8 => v.toIntSat (floatMode ctx.mode).rnd true 32
  | _, 9 => v.toIntSat (floatMode ctx.mode).rnd false 32
  | _, _ => narrowTo cd ctx.narrow ctx.record key ctx.seed v

/-- The conversion context of a lane. -/
def Gang.convertCtx (g : Gang) (lane : Nat) : ConvertCtx :=
  ⟨g.laneMode lane, g.narrow, g.seed, g.sreg (lane / 4) 62⟩

/-- Whether some slice with an active lane holds a broken record in S62 where a code names sq4 or sq8 (R150). -/
def Gang.brokenRecord (g : Gang) (cs cd : Nat) : Bool :=
  (cs == 6 || cs == 7 || cd == 6 || cd == 7) && g.active.any (fun l => !recordOk (g.sreg (l / 4) 62))

/-- The first multi-register range check of R149: whether `n` registers from `c` stay in one set. -/
def rangeOk (c n : Nat) : Bool := if isT c then decide (c + n ≤ 256) else decide (c + n ≤ 248)

/-- The storage code of a 64-bit element type in R151's table. -/
def wideTypeCode (e : Nat) : Nat := if e = 9 then 0 else if e = 10 then 8 else 9

/-- A 64-bit conversion of R151: `d` is 0 TO64, 1 FROM64, 2 X64; `x` is the lane's word or pair.  FTZ flushes the f64 source
of FROM64, whose ETYPE is floating (R109), and no other: an f32 source is flushed only on its way to f32, i32 or n32 (R145), and
an f64 source of X64 stands under an integer ETYPE. -/
def convert64 (mode : Word) (c d x : Nat) : Nat :=
  let m := floatMode mode
  let e := etype (modeEtype mode)
  let value (st : Storage) (x : Nat) : Num := match st with
    | .float f => f.input (m.ftz && d == 1) x
    | st => st.decode 0 x
  let st32 : Storage := if c = 0 then .float .f32 else .int (c == 8) 32
  let st64 : Storage := if c = 0 then .float .f64 else .int (c == 8) 64
  let stE : Storage := match e.fmt with
    | some f => .float f
    | none => .int e.signed 64
  let src := if d = 0 then st32 else if d = 1 then stE else st64
  let dst := if d = 1 then st32 else stE
  match src, dst with
  | .int sg w, .int _ w' => wrapTo w' (intRead sg w x)
  | _, .float f => f.round m.rnd m.ftz (value src x)
  | _, .int sg w => (value src x).toIntSat m.rnd sg w
  | _, _ => 0

/-- Whether VCVT's codes are a conversion under a slice's element type (R146, R151). -/
def convertOk (e c d : Nat) : Bool :=
  if wideEtype e then
    (c == 0 || c == 8 || c == 9) && decide (d ≤ 2) && !(d == 2 && c == wideTypeCode e)
  else c != d

/-- VCVT with source field `c` and destination field `t`, read in each slice under its own element type
(R146, R151): the four rows of the opcode table that share these words have this one effect. -/
def State.convert (s : State) (d a : BitVec 8) (c t : BitVec 4) : Result :=
  let g := s.here
  let cs := c.toNat
  let cd := t.toNat
  let narrow := g.members.any (fun sl => !wideEtype (modeEtype (g.modeOf sl)))
  let dem : Demand :=
    { illegal := g.members.any (fun sl => !convertOk (modeEtype (g.modeOf sl)) cs cd) || g.oddPair a.toNat || g.oddPair d.toNat
      reads := if g.anyWide && cd != 0 then [a.toNat, a.toNat + 1] else [a.toNat]
      writes := if g.anyWide && cd != 1 then [d.toNat, d.toNat + 1] else [d.toNat] }
  s.issue dem (fun s =>
    if narrow && g.brokenRecord cs cd then s.precise .format
    else
      (s.onHere (fun g => g.active.foldl (fun acc l =>
        if g.wideLane l then
          let x := g.operand (cd != 0) a.toNat l
          acc.setOperand (cd != 1) d.toNat l (convert64 (g.laneMode l) cs cd x)
        else
          acc.setV d.toNat l (BitVec.ofNat 32
            (convertElem (g.convertCtx l) cs cd (8 * l) (field (g.vword a.toNat l).toNat 0 (codeWidth cs))))) g)).done dem.writes)

/-- VCVT (R146). -/
def execVcvt (d a : BitVec 8) (c t : BitVec 4) (s : State) : Result := s.convert d a c t
/-- VCVT.TO64 (R151). -/
def execVcvtTo64 (d a : BitVec 8) (c : BitVec 4) (s : State) : Result := s.convert d a c 0
/-- VCVT.FROM64 (R151). -/
def execVcvtFrom64 (d a : BitVec 8) (c : BitVec 4) (s : State) : Result := s.convert d a c 1
/-- VCVT.X64 (R151). -/
def execVcvtX64 (d a : BitVec 8) (c : BitVec 4) (s : State) : Result := s.convert d a c 2

/-- VPACK: fills all elements of Vd from r registers (R147, R149). -/
def execVpack (d a : BitVec 8) (c t : BitVec 4) (s : State) : Result :=
  let g := s.here
  let ws := codeWidth c.toNat
  let wd := codeWidth t.toNat
  let r := ws / wd
  let ns := 32 / ws
  let regs := (List.range r).map (a.toNat + ·)
  s.issue { illegal := g.anyWide || decide (ws ≤ wd) || !rangeOk a.toNat r, reads := regs, writes := [d.toNat] } (fun s =>
    if g.brokenRecord c.toNat t.toNat then s.precise .format
    else
      (s.onHere (fun g => g.active.foldl (fun acc l =>
        acc.setV d.toNat l (BitVec.ofNat 32 ((List.range (32 / wd)).foldl (fun w j =>
          let x := field (g.vword (a.toNat + j / ns) l).toNat (ws * (j % ns)) ws
          w + convertElem (g.convertCtx l) c.toNat t.toNat (8 * l + j) x * 2 ^ (wd * j)) 0))) g)).done [d.toNat])

/-- VUNPKL and VUNPKH: the lower or upper half of the source elements (R148, R149). -/
def State.unpack (s : State) (upper : Bool) (d a : BitVec 8) (c t : BitVec 4) : Result :=
  let g := s.here
  let ws := codeWidth c.toNat
  let wd := codeWidth t.toNat
  let ns := 32 / ws
  let nd := 32 / wd
  let n := wd / ws / 2
  let regs := (List.range n).map (d.toNat + ·)
  s.issue { illegal := g.anyWide || decide (wd ≤ ws) || !rangeOk d.toNat n, reads := [a.toNat], writes := regs } (fun s =>
    if g.brokenRecord c.toNat t.toNat then s.precise .format
    else
      (s.onHere (fun g => g.active.foldl (fun acc l =>
        (List.range n).foldl (fun acc q =>
          acc.setV (d.toNat + q) l (BitVec.ofNat 32 ((List.range nd).foldl (fun w j =>
            let e := nd * q + j + (if upper then ns / 2 else 0)
            let x := field (g.vword a.toNat l).toNat (ws * e) ws
            w + convertElem (g.convertCtx l) c.toNat t.toNat (8 * l + nd * q + j) x * 2 ^ (wd * j)) 0))) acc) g)).done regs)

/-- VUNPKL (R148). -/
def execVunpkl (d a : BitVec 8) (c t : BitVec 4) (s : State) : Result := s.unpack false d a c t
/-- VUNPKH (R148). -/
def execVunpkh (d a : BitVec 8) (c t : BitVec 4) (s : State) : Result := s.unpack true d a c t

end Sys2Proof.Machine
end

