-- ==== Sys2Proof/Machine/MatrixMath.lean ====
section
/-! DEFINITION. The arithmetic of the matrix engine: alignment, the totals of a K-step, accumulator rows and their
checksums, sparsity (R161, R166 to R173). -/

namespace Sys2Proof.Machine

/-! ## Dyadic numbers -/

/-- m × 2^e with an odd m, or 0. -/
def Dy.norm (x : Dy) : Dy :=
  if x.m = 0 then ⟨0, 0⟩
  else
    let k := trailingZeros (Nat.log2 x.m.natAbs + 1) x.m.natAbs
    ⟨x.m / (2 ^ k : Nat), x.e + k⟩

/-- The numerator of a dyadic number over 2 to the `e`, for `e` at most its exponent. -/
def Dy.over (x : Dy) (e : Int) : Int := x.m * (2 ^ (x.e - e).toNat : Nat)

/-- The exact sum. -/
def Dy.add (x y : Dy) : Dy := (⟨x.over (min x.e y.e) + y.over (min x.e y.e), min x.e y.e⟩ : Dy).norm

/-- The exact product. -/
def Dy.mul (x y : Dy) : Dy := (⟨x.m * y.m, x.e + y.e⟩ : Dy).norm

/-- The negated number. -/
def Dy.neg (x : Dy) : Dy := ⟨-x.m, x.e⟩

/-- The magnitude. -/
def Dy.abs (x : Dy) : Dy := ⟨(x.m.natAbs : Nat), x.e⟩

/-- The exact sum of a list. -/
def Dy.sum (l : List Dy) : Dy := l.foldl Dy.add ⟨0, 0⟩

/-- Whether one dyadic number is at most another. -/
def Dy.le (x y : Dy) : Bool := decide (x.over (min x.e y.e) ≤ y.over (min x.e y.e))

/-- floor(log2 |x|) of a non-zero number. -/
def Dy.log2 (x : Dy) : Int := (Nat.log2 x.m.natAbs : Int) + x.e

/-- The number as a value to round. -/
def Dy.num (x : Dy) : Num :=
  if 0 ≤ x.e then .fin (decide (x.m < 0)) (x.m.natAbs * 2 ^ x.e.toNat) 1 else .fin (decide (x.m < 0)) x.m.natAbs (2 ^ (-x.e).toNat)

/-- A finite value whose divisor is a power of two. -/
def Num.dy : Num → Dy
  | .fin s n d => (⟨Num.numer s n, -(Nat.log2 d : Int)⟩ : Dy).norm
  | _ => ⟨0, 0⟩

/-- Whether a value is finite. -/
def Num.isFin : Num → Bool
  | .fin _ _ _ => true
  | _ => false

/-! ## Formats (R161) -/

/-- Magnitude bits Pm of a matrix format; none for a format that the matrix path does not accept. -/
def planesOf (fmt : Nat) : Option Nat :=
  match fmt with
  | 5 => some 4
  | 6 => some 4
  | 3 => some 9
  | 4 => some 9
  | 7 => some 9
  | 12 => some 8
  | 13 => some 8
  | 1 => some 13
  | 2 => some 13
  | _ => none

/-- K positions of a dense K-step. -/
def depthOf (fmt : Nat) : Nat :=
  match codeWidth fmt with
  | 4 => 256
  | 8 => 128
  | _ => 64

/-- emin of a matrix format. -/
def eminOf (fmt : Nat) : Int :=
  match fmt with
  | 3 => -6
  | 4 => -14
  | 7 => -6
  | 1 => -14
  | _ => -126

/-- An element's value in element units, before SCALE. -/
def unitValue (fmt bits : Nat) (rec_ : Word64) : Num :=
  match storage fmt with
  | some (.float f) => f.decode bits
  | some (.int sg w) => .ofInt (intRead sg w bits)
  | some .sq4 => decodeSqElem false bits rec_
  | some .sq8 => decodeSqElem true bits rec_
  | none => .nan

/-- SCALE of an element's block: 1 for an unscaled format. -/
def scaleOf (fmt : Nat) (rec_ : Word64) : Dy := if fmt = 6 ∨ fmt = 7 then (recordScale rec_).dy else ⟨1, 0⟩

/-! ## Alignment (R166) -/

/-- floor(n / d × 2^-q) for a finite value. -/
def scaledFloor (x : Num) (q : Int) : Nat :=
  match x with
  | .fin _ n d => (overQuantum n d q).1
  | _ => 0

/-- The exponent G of a group of values. -/
def groupExponent (emin : Int) (xs : List Num) : Int :=
  xs.foldl (fun g x => match x with
    | .fin _ n d => if n = 0 then g else max g (ratLog2 n d)
    | _ => g) emin

/-- The mark of an element: 1 +∞, 2 −∞, 3 NaN; 4 and 5 a positive and a negative value that alignment takes to 0, which
is not a zero in the products of R168 (DEDUCED, log entry 85). -/
def markOf (x : Num) (a : Nat) : Nat :=
  match x with
  | .nan => 3
  | .inf s => if s then 2 else 1
  | .fin s n _ => if n ≠ 0 ∧ a = 0 then (if s then 5 else 4) else 0

/-- align_group: the signed aligned integers, the marks, and the group scale (R166). -/
def alignGroup (fmt : Nat) (xs : List Num) (scale : Dy) : List Int × List Nat × Dy :=
  let pm : Int := (planesOf fmt).getD 0
  let (q, unit) : Int × Dy :=
    if fmt = 12 ∨ fmt = 13 then (0, ⟨1, 0⟩)
    else if fmt = 5 ∨ fmt = 6 then (-1, ⟨1, -1⟩)
    else
      let e := groupExponent (eminOf fmt) xs - pm + 1
      (e, ⟨1, e⟩)
  let mags := xs.map (fun x => scaledFloor x q)
  ((xs.zip mags).map (fun p => Num.numer p.1.isNeg p.2), (xs.zip mags).map (fun p => markOf p.1 p.2), unit.mul scale)

/-- One group of a line aligned into the operand: its values with their positions, and the position of the group. -/
def Aligned.addGroup (al : Aligned) (fmt line group : Nat) (xs : List (Nat × Num)) (scale : Dy) : Aligned :=
  let (mags, marks, sc) := alignGroup fmt (xs.map Prod.snd) scale
  let keys := xs.map (fun p => 4096 * line + p.1)
  { mags := (keys.zip mags).foldl (fun t p => Table.set 0 t p.1 p.2) al.mags
    marks := (keys.zip marks).foldl (fun t p => Table.set 0 t p.1 p.2) al.marks
    scales := Table.set ⟨1, 0⟩ al.scales (256 * line + group) sc }

/-- The signed aligned integer at a position of a line. -/
def Aligned.at_ (al : Aligned) (line k : Nat) : Int := Table.get 0 al.mags (4096 * line + k)
/-- The mark at a position of a line. -/
def Aligned.mark (al : Aligned) (line k : Nat) : Nat := Table.get 0 al.marks (4096 * line + k)
/-- The scale of a group of a line. -/
def Aligned.scale (al : Aligned) (line group : Nat) : Dy := Table.get ⟨1, 0⟩ al.scales (256 * line + group)

/-- Whether every element is finite. -/
def Aligned.finite (al : Aligned) : Bool := al.marks.all (fun e => e.2 == 0 || decide (4 ≤ e.2))

/-! ## B slots (R160, R172, R173) -/

/-- K positions that a slot stores in each column. -/
def BSlot.depth (b : BSlot) : Nat := depthOf b.fmt

/-- Logical positions of a group of a sparse slot: 4 or 8 (R172). -/
def groupSpan (kind : Nat) : Nat := if kind = 1 then 4 else 8

/-- The logical K position of the `k`-th kept element where each group keeps its first ones. -/
def firstKept (kind k : Nat) : Nat := k / (groupSpan kind / 2) * groupSpan kind + k % (groupSpan kind / 2)

/-- The logical K position of a stored element (R172). -/
def BSlot.logical (b : BSlot) (c k : Nat) : Nat :=
  if b.kind = 0 then k else (b.pos.find (4096 * c + k)).getD (firstKept b.kind k)

/-- The rank of an element (R173): NaN above infinity above every finite magnitude. -/
def ranksAbove (x y : Num) : Bool :=
  match x, y with
  | .nan, .nan => false
  | .nan, _ => true
  | _, .nan => false
  | .inf _, .inf _ => false
  | .inf _, .fin _ _ _ => true
  | .fin _ _ _, .inf _ => false
  | .fin _ n d, .fin _ m e => decide (m * d < n * e)

/-- The positions that a group keeps, rising: `keep` of them, by rank, the lower index first (R173). -/
def keptOf (keep : Nat) (xs : List Num) : List Nat :=
  (List.range xs.length).filter (fun i =>
    let x := xs.getD i .nan
    decide (((List.range xs.length).filter (fun j =>
      let y := xs.getD j .nan
      ranksAbove y x || (decide (j < i) && !ranksAbove x y))).length < keep))

/-! ## The totals of a K-step (R167, R168) -/

/-- A value as a factor of R168: 0 zero, 1 positive, 2 negative, 3 +∞, 4 −∞, 5 NaN. -/
def factorOf (a : Int) (mark : Nat) : Nat :=
  match mark with
  | 1 => 3
  | 2 => 4
  | 3 => 5
  | 4 => 1
  | 5 => 2
  | _ => if a = 0 then 0 else if 0 < a then 1 else 2

/-- A product with a non-finite factor: 0 none, 1 +∞, 2 −∞, 3 NaN. -/
def wildProduct (x y : Nat) : Nat :=
  if x < 3 ∧ y < 3 then 0
  else if x = 5 ∨ y = 5 ∨ x = 0 ∨ y = 0 then 3
  else if (x % 2 == 0) == (y % 2 == 0) then 1 else 2

/-- The non-finite total of products, if there is one (R168). -/
def wildTotal (l : List Nat) : Option Num :=
  if l.contains 3 || (l.contains 1 && l.contains 2) then some .nan
  else if l.contains 1 then some (.inf false)
  else if l.contains 2 then some (.inf true)
  else none

/-- The sum of group terms in a window of 192 bits, each truncated toward zero (R167). -/
def windowSum (ts : List Dy) : Dy :=
  let ts := ts.filter (fun t => t.m != 0)
  match ts with
  | [] => ⟨0, 0⟩
  | t :: rest =>
    let low := rest.foldl (fun e u => max e u.log2) t.log2 - 191
    let parts := (t :: rest).map (fun u =>
      if low ≤ u.e then u.over low else Num.numer (decide (u.m < 0)) (u.m.natAbs / 2 ^ (low - u.e).toNat))
    (⟨parts.foldl (fun a b => a + b) 0, low⟩ : Dy).norm

/-- kstep_total of element (m, c), with R168. -/
def kstepTotal (a : Aligned) (b : BSlot) (m c : Nat) : Num :=
  let ks := List.range b.depth
  let wild := if a.marks.isEmpty && b.data.marks.isEmpty then [] else
    ks.map (fun k => wildProduct (factorOf (a.at_ m (b.logical c k)) (a.mark m (b.logical c k))) (factorOf (b.data.at_ c k) (b.data.mark c k)))
  match wildTotal wild with
  | some x => x
  | none =>
    let ts := (List.range (b.depth / 16)).map (fun q =>
      let s := (List.range 16).foldl (fun (s : Int) i => s + a.at_ m (b.logical c (16 * q + i)) * b.data.at_ c (16 * q + i)) 0
      ((⟨s, 0⟩ : Dy).mul (a.scale m q)).mul (b.data.scale c q))
    (windowSum ts).num

/-- TC: the total of R167 formed with the checksum column (R170).  Non-finite elements count 0 in it; where one meets an element
of a column, that element of the tile becomes non-finite itself (R168). -/
def checkTotal (a : Aligned) (b : BSlot) (m : Nat) : Num :=
  let len := if b.kind = 0 then 16 else 32
  (windowSum ((List.range (b.depth / 16)).map (fun q =>
    (Dy.sum ((List.range len).map (fun i => (⟨a.at_ m (len * q + i), 0⟩ : Dy).mul (Table.get ⟨0, 0⟩ b.cs (len * q + i))))).mul (a.scale m q)))).num

/-! ## Accumulator tiles (R169 to R171) -/

/-- An element of a tile. -/
def AccTile.el (t : AccTile) (m c : Nat) : Word := Table.get 0 t.c (64 * m + c)
/-- An element of a tile written. -/
def AccTile.setEl (t : AccTile) (m c : Nat) (v : Word) : AccTile := { t with c := Table.set 0 t.c (64 * m + c) v }

/-- A binary32 word as a value. -/
def f32Num (w : Word) : Num := Fmt.f32.decode w.toNat
/-- Whether a binary32 word is finite. -/
def f32Fin (w : Word) : Bool := (f32Num w).isFin
/-- round_rne or round_rup to binary32. -/
def toF32 (r : Rnd) (x : Num) : Word := BitVec.ofNat 32 (Fmt.f32.round r false x)

/-- The elements of a row. -/
def AccTile.row (t : AccTile) (m : Nat) : List Word := (List.range 64).map (t.el m)

/-- Whether every element of a row is finite. -/
def AccTile.rowFin (t : AccTile) (m : Nat) : Bool := (t.row m).all f32Fin

/-- The exact sum of values: NaN for a NaN or for infinities of both signs, else an infinity where there is one. -/
def Num.total (l : List Num) : Num :=
  let wild := l.map (fun x => match x with
    | .nan => 3
    | .inf s => if s then 2 else 1
    | .fin _ _ _ => 0)
  (wildTotal wild).getD (Dy.sum (l.map Num.dy)).num

/-- The magnitude of a value. -/
def Num.size : Num → Num
  | .nan => .nan
  | .inf _ => .inf false
  | .fin _ n d => .fin false n d

/-- The exact sum of a row of finite elements. -/
def AccTile.rowSum (t : AccTile) (m : Nat) : Dy := Dy.sum ((t.row m).map (fun w => (f32Num w).dy))

/-- CV of a row. -/
def AccTile.cv (t : AccTile) (m : Nat) : Bool := !t.cvOff.getLsbD m

/-- CV of a row written. -/
def AccTile.setCv (t : AccTile) (m : Nat) (v : Bool) : AccTile :=
  let bit : Word := BitVec.ofNat 32 (2 ^ m)
  { t with cvOff := if v then t.cvOff &&& ~~~bit else t.cvOff ||| bit }

/-- Whether an element of a row becomes non-finite, from a tile to the tile that takes its place (R170). -/
def AccTile.turnsWild (old new : AccTile) (m : Nat) : Bool :=
  (List.range 64).any (fun c => f32Fin (old.el m c) && !f32Fin (new.el m c))

/-- The check state of a row as ACCWR leaves it, whose old elements `old` has (R170). -/
def AccTile.freshRow (old t : AccTile) (m : Nat) : AccTile :=
  if old.turnsWild t m then t.setCv m false
  else
    ({ t with cs := Table.set 0 t.cs m (toF32 .rne (Num.total ((t.row m).map f32Num)))
              mg := Table.set 0 t.mg m (toF32 .rup (Num.total ((t.row m).map (fun w => (f32Num w).size)))) }).setCv m true

/-- How a row stands (R171): 0 passes, 1 skipped, 2 fails. -/
def AccTile.judge (t : AccTile) (m : Nat) : Nat :=
  let cs := Table.get 0 t.cs m
  let mg := Table.get 0 t.mg m
  if !t.cv m || !t.rowFin m || !f32Fin cs || !f32Fin mg then 1
  else
    let diff := ((f32Num cs).dy.add (t.rowSum m).neg).abs
    if diff.le ((f32Num mg).dy.mul ⟨1, -20⟩) then 0 else 2

/-- The first failing row among those listed (R187, R189). -/
def AccTile.failing (t : AccTile) (rows : List Nat) : Option Nat := rows.find? (fun m => t.judge m == 2)

/-- round_rne(old + T): an exactly zero result is +0 (R167, R168). -/
def accumulate (old : Word) (t : Num) : Word :=
  let x := Num.add .rne (f32Num old) t
  if x.isZero then 0 else toF32 .rne x

/-- One K-step added to a row of a tile, with its check state (R167, R170): `first` is the first K-step of a form
with AD, `check` the checksum enable of the slot descriptor. -/
def AccTile.addRow (t : AccTile) (a : Aligned) (b : BSlot) (neg first check : Bool) (m : Nat) : AccTile :=
  let old := fun c => if first then (0 : Word) else t.el m c
  let sums := (List.range 64).map (fun c =>
    let x := kstepTotal a b m c
    if neg then x.negate else x)
  let t' := (sums.zip (List.range 64)).foldl (fun (acc : AccTile) p =>
    acc.setEl m p.2 (accumulate (old p.2) p.1)) t
  let t' := if check then t' else t'.setCv m false
  if t.turnsWild t' m then t'.setCv m false
  else if check then
    let tc := checkTotal a b m
    let cs := if first then 0 else Table.get 0 t.cs m
    let mg := if first then 0 else Table.get 0 t.mg m
    let grown := Num.total ((List.range 64).map (fun c => (f32Num (old c)).size) ++ sums.map Num.size)
    { t' with
      cs := Table.set 0 t'.cs m (toF32 .rne (Num.add .rne (f32Num cs) (if neg then tc.negate else tc)))
      mg := Table.set 0 t'.mg m (toF32 .rup (Num.add .rup (f32Num mg) grown)) }
  else t'

/-- One K-step added to a tile: rows in order, each on its own (R167). -/
def AccTile.addStep (t : AccTile) (a : Aligned) (b : BSlot) (neg first check : Bool) : AccTile :=
  (List.range 32).foldl (fun t m => t.addRow a b neg first check m) t

/-! ## Plane cycles (R174, R205) -/

/-- Planes of a row pair in which some element has a bit set. -/
def planesUsed (a : Aligned) (pair planes : Nat) : Nat :=
  ((List.range planes).filter (fun b => a.mags.any (fun e => e.1 / 4096 / 2 == pair && bitOf e.2.natAbs b))).length

/-- P of R174. -/
def planeCycles (a : Aligned) (pm : Nat) : Nat := (List.range 16).foldl (fun n p => n + 1 + planesUsed a p pm) 0

/-- Pd of R205. -/
def deltaCycles (d : Aligned) (pm : Nat) : Nat :=
  (List.range 16).foldl (fun n p => if d.mags.any (fun e => e.1 / 4096 / 2 == p) then n + 1 + planesUsed d p (pm + 1) else n) 0

/-! ## Differences (R203) -/

/-- D: the new aligned operand less the stored one, elements below the threshold dropped; with the group scales of the
new operand. -/
def difference (new old : Aligned) (theta : Nat) : Aligned :=
  let keys := (new.mags.keys ++ old.mags.keys).eraseDups
  { mags := keys.foldl (fun t k =>
      let x : Int := Table.get 0 new.mags k - Table.get 0 old.mags k
      Table.set 0 t k (if x.natAbs < theta then 0 else x)) []
    scales := new.scales }

/-- A* + D (R203). -/
def Aligned.plus (a d : Aligned) : Aligned :=
  { a with mags := d.mags.foldl (fun t e => Table.set 0 t e.1 (Table.get 0 t e.1 + e.2)) a.mags }

end Sys2Proof.Machine
end

