-- ==== Sys2Proof/Machine/Walker.lean ====
section
/-! DEFINITION. The Ephemeris registers, the coverage map and the tile walker (R310 to R315, R342 to R345). -/

namespace Sys2Proof.Machine

/-! ## Ephemeris values (R310, R311) -/

/-- A 16-bit coordinate of a packed word. -/
def coord (w d : Nat) : Nat := field w (16 * d) 16

/-- Whether the five Ephemeris values are ones that EPHCOMMIT installs: extents of at least 1, no reserved bit, tile
extents that are non-zero multiples of their grain, an order that is a permutation, and a placement that shares a bit
with `clusters` (R311). -/
def ephemerisOk (dims grain tile order place clusters : Nat) : Bool :=
  (List.range 4).all (fun d => decide (1 ≤ coord dims d) && coord tile d != 0 && coord tile d % 2 ^ field grain (4 * d) 4 == 0 &&
    (List.range 4).any (fun p => field order (2 * p) 2 == d)) &&
  decide (grain < 2 ^ 16) && decide (order < 2 ^ 13) && (place &&& clusters) != 0

/-- The clusters that have a core in a tenant's core mask (R303, R311). -/
def State.tenantClusters (s : State) (t : Nat) : Nat :=
  maskOf ((List.range 64).filter (fun c => field (s.tenantReg t (2 + c / 16)) (c % 16 * 4) 4 != 0))

/-- Whether a core lies in a tenant's core mask. -/
def State.inMask (s : State) (t core : Nat) : Bool := bitOf (s.tenantReg t (2 + core / 64)) (core % 64)

/-- An Ephemeris register of a launch as stored. -/
def Launch.ephReg (l : Launch) (i : Nat) : Nat := (Table.get 0 l.eph i).toNat

/-- Whether some cell from `n` on is FREE; `fuel` cells are looked at. -/
def State.anyFree (s : State) (l : Launch) : Nat → Nat → Bool
  | 0, _ => false
  | fuel + 1, n =>
    (match s.cell l n .load with
      | .ok 0 => true
      | _ => false) || s.anyFree l fuel (n + 1)

/-- The cells from `n` on that EXHAUSTED looks at: up to the first FREE one. -/
def State.statusCells (s : State) (l : Launch) : Nat → Nat → List Nat
  | 0, _ => []
  | fuel + 1, n => n :: (match s.cell l n .load with
    | .ok 0 => []
    | _ => s.statusCells l fuel (n + 1))

/-- EPH.STATUS: the cells of the tickets not completed, whether no cell is FREE, and REFUSED (R310). -/
def State.ephStatus (s : State) (l : Launch) : Nat :=
  let claimed := l.tickets.foldl (fun n t => n + t.cells.length) 0
  let free := l.ephReg 6 != 0 && s.anyFree l l.cellCount 0
  claimed % 2 ^ 32 + (if free then 0 else 2 ^ 32) + (if bitOf (l.ephReg 7) 33 then 2 ^ 33 else 0)

/-- The launch of the gang on the pipe: the root launch, for a task's gang (R310). -/
def State.launchKey (s : State) : Nat := (s.block s.here.block).launch

/-- EPHWR: the staging and user registers, unchecked (R342). -/
def execEphwr (a b : BitVec 6) (s : State) : Result :=
  s.issue { s.here.uniformDemand [a] with illegal := decide (b.toNat < 8) || decide (16 ≤ b.toNat) } (fun s =>
    let v := s.here.uniformS a.toNat
    (s.onLaunch s.launchKey (fun l => { l with eph := Table.set 0 l.eph b.toNat v })).done)

/-- EPHCOMMIT (R311, R342). -/
def execEphcommit (d : BitVec 6) (s : State) : Result :=
  s.issue {} (fun s =>
    let l := s.launch s.launchKey
    let r := l.ephReg
    let ok := decide (r 8 = r 0) && decide (r 9 = r 1) && ephemerisOk (r 8) (r 9) (r 10) (r 11) (r 12) (s.tenantClusters l.tenant)
    let gen := if ok then (r 5 + 1) % 2 ^ 32 else r 5
    let s := s.onLaunch s.launchKey (fun l =>
      if ok then
        { l with eph := Table.set 0 (Table.set 0 ((List.range 5).foldl (fun t i => Table.set 0 t i (Table.get 0 l.eph (8 + i))) l.eph) 5
            (BitVec.ofNat 64 gen)) 7 0 }
      else { l with eph := Table.set 0 l.eph 7 (BitVec.ofNat 64 (2 ^ 33)) })
    (s.onHere (fun g => g.answer (some d) (BitVec.ofNat 64 gen) ok)).done)

/-! ## Cells and tiles (R312, R313) -/

/-- The linear index of a cell (R312). -/
def Launch.cellIndex (l : Launch) (c : Nat → Nat) : Nat :=
  c 0 + l.cellsAlong 0 * (c 1 + l.cellsAlong 1 * (c 2 + l.cellsAlong 2 * c 3))

/-- The dimension that ORDER visits at a position. -/
def Launch.dimAt (l : Launch) (p : Nat) : Nat := field (l.ephReg 3) (2 * p) 2

/-- The position at which ORDER visits a dimension. -/
def Launch.posOf (l : Launch) (d : Nat) : Nat := ((List.range 4).find? (fun p => l.dimAt p == d)).getD 0

/-- The coordinate in dimension `d` of member `i` of a sequence of `extent 0 × … × extent 3` steps: P0 runs fastest, and
a dimension with SERP runs backwards on every odd step of the next outer position (R313). -/
def Launch.stepCoord (l : Launch) (extent : Nat → Nat) (i d : Nat) : Nat :=
  let p := l.posOf d
  let inner := fun (q : Nat) => (List.range q).foldl (fun n k => n * extent (l.dimAt k)) 1
  let digit := fun (q : Nat) => i / inner q % max 1 (extent (l.dimAt q))
  if p < 3 ∧ bitOf (l.ephReg 3) (8 + d) ∧ digit (p + 1) % 2 = 1 then extent d - 1 - digit p else digit p

/-- Tiles along a dimension, and the first cell and the number of cells of tile `t` there. -/
def Launch.tilesAlong (l : Launch) (d : Nat) : Nat :=
  (coord (l.ephReg 0) d + coord (l.ephReg 2) d - 1) / coord (l.ephReg 2) d
@[inherit_doc Launch.tilesAlong] def Launch.tileLow (l : Launch) (d t : Nat) : Nat :=
  t * coord (l.ephReg 2) d / 2 ^ field (l.ephReg 1) (4 * d) 4
@[inherit_doc Launch.tilesAlong] def Launch.tileCells (l : Launch) (d t : Nat) : Nat :=
  min (l.cellsAlong d) ((t + 1) * coord (l.ephReg 2) d / 2 ^ field (l.ephReg 1) (4 * d) 4) - l.tileLow d t

/-- A fragment: its lowest cell and its extents in cells, by dimension. -/
structure Fragment where
  low : List Nat
  size : List Nat
  deriving DecidableEq, Repr

/-- The cells of a fragment. -/
def Launch.fragmentCells (l : Launch) (f : Fragment) : List Nat :=
  let e := fun (d : Nat) => f.size.getD d 0
  (List.range (e 0 * e 1 * e 2 * e 3)).map (fun i =>
    l.cellIndex (fun d => f.low.getD d 0 + i / (List.range d).foldl (fun n k => n * e k) 1 % max 1 (e d)))

/-- What reading the cells of a list finds: a page that cannot be reached, else a reserved state, else their states. -/
def State.readCells (s : State) (l : Launch) (kind : AccessKind) (cells : List Nat) : Except (Cause × Nat) (List Nat) :=
  match cells.findSome? (fun n => match s.cell l n kind with
    | .error e => some e
    | .ok _ => none) with
  | some e => .error e
  | none =>
    let states := cells.map (fun n => match s.cell l n kind with
      | .ok v => v
      | .error _ => 0)
    if states.contains 3 then .error (.format, 0) else .ok states

/-- The fragment of a tile (R313): the whole tile where every cell is FREE, else the first maximal run of FREE cells along
P0; none where no cell is FREE. -/
def State.tileFragment (s : State) (l : Launch) (tile : Nat → Nat) : Except (Cause × Nat) (Option Fragment) :=
  let low := fun (d : Nat) => l.tileLow d (tile d)
  let size := fun (d : Nat) => l.tileCells d (tile d)
  let whole : Fragment := ⟨(List.range 4).map low, (List.range 4).map size⟩
  let at_ := fun (i d : Nat) => low d + l.stepCoord size i d
  let total := size 0 * size 1 * size 2 * size 3
  match s.readCells l .atomic ((List.range total).map (fun i => l.cellIndex (at_ i))) with
  | .error e => .error e
  | .ok states =>
    let free := fun (i : Nat) => states.getD i 3 == 0
    if states.all (fun v => v == 0) then .ok (if total = 0 then none else some whole)
    else
      match (List.range total).find? free with
      | none => .ok none
      | some i =>
        let p := l.dimAt 0
        let row := max 1 (size p)
        let len := ((List.range (row - i % row)).takeWhile (fun k => free (i + k))).length
        let first := min (at_ i p) (at_ (i + len - 1) p)
        .ok (some ⟨(List.range 4).map (fun d => if d = p then first else at_ i d),
          (List.range 4).map (fun d => if d = p then len else 1)⟩)

/-- The cells of a tile. -/
def Launch.tileList (l : Launch) (tile : Nat → Nat) : List Nat :=
  l.fragmentCells ⟨(List.range 4).map (fun d => l.tileLow d (tile d)), (List.range 4).map (fun d => l.tileCells d (tile d))⟩

/-- The first tile from step `i` on that holds a FREE cell, with its fragment, or the trouble that a tile before it brings; and the
cells read on the way; `fuel` tiles are looked at. -/
def State.findTile (s : State) (l : Launch) : Nat → Nat → List Nat × Except (Cause × Nat) (Option Fragment)
  | 0, _ => ([], .ok none)
  | fuel + 1, i =>
    let tile := l.stepCoord l.tilesAlong i
    match s.tileFragment l tile with
    | .ok none =>
      let r := s.findTile l fuel (i + 1)
      (l.tileList tile ++ r.1, r.2)
    | r => (l.tileList tile, r)

/-- The number of tiles of a launch. -/
def Launch.tileCount (l : Launch) : Nat := l.tilesAlong 0 * l.tilesAlong 1 * l.tilesAlong 2 * l.tilesAlong 3

/-- The cells that a WALK has read, with the fragment that it claims or the trouble that it meets.  With ORDER.FREE the walker may
begin its search at any tile: the place is a free value (R313, log entry 2). -/
def State.walkChoice (s : State) (l : Launch) : List Nat × Except (Cause × Nat) (Option Fragment) :=
  if bitOf (l.ephReg 3) 12 then
    let start := (Config.freeValue s.tick).toNat % max 1 l.tileCount
    match s.findTile l (l.tileCount - start) start with
    | (seen, .ok none) =>
      let r := s.findTile l start 0
      (seen ++ r.1, r.2)
    | r => r
  else s.findTile l l.tileCount 0

/-! ## The forms (R342 to R345) -/

/-- A form that meets trouble at the map: the stop of the launch for a reserved state, the fault of the page (R312). -/
def State.mapTrouble (s : State) (e : Cause × Nat) : State :=
  if e.1 = .format then
    s.stopLaunch s.launchKey .format (some (s.here.key,
      { cause := .format, kind := 0, pc := s.here.wordPc, word := s.wordHere, index := s.here.wordIndex }))
  else s.addressFault e.1 e.2

/-- The lines of the map that hold cells, those that translate. -/
def State.mapLines (s : State) (l : Launch) (cells : List Nat) : List Nat :=
  (cells.filterMap (fun n => match s.deviceTranslate l.tenant (l.cellVa n) .load with
    | .ok a => some (a / 64)
    | .error _ => none)).eraseDups

/-- Whether a walk to the map bytes of cells waits for the host (R247). -/
def State.mapWaits (s : State) (l : Launch) (cells : List Nat) : Bool :=
  ((cells.map (fun n => l.cellVa n / 64)).eraseDups).any (fun x => s.walkHeld l.tenant (64 * x))

/-- The form on the pipe reads cells of the map: while the host owns a line of it or of a page table the form waits (R247), and for
a line of another device until that answers (R249); poison kills the gang (R399); else the form goes on. -/
def State.checkMap (s : State) (l : Launch) (cells : List Nat) (effect : State → State) : State :=
  let lines := s.mapLines l cells
  let away := fun (x : Nat) => regionOf (64 * x) == .peer
  if s.mapWaits l cells || lines.any (fun x => !away x && s.hostOwns x) then (s.noteSince false).stall
  else match lines.find? (fun x => away x && (s.wordAnswer x).isNone) with
    | some x => s.askPeer x 2
    | none =>
      if lines.any (fun x => away x && ((s.wordAnswer x).map PeerData.refused).getD false) then s.refusedWord
      else if lines.any (fun x => if away x then ((s.wordAnswer x).map PeerData.poison).getD false else (s.home x).poison) then
        s.killHere .uncorr
      else effect s

/-- The map lines that an acquire of the form on the pipe has read and does not write: their homes grant leases with PTS (R231,
R232). -/
def State.leaseMap (s : State) (lines : List Nat) : State :=
  (lines.filter (fun x => regionOf (64 * x) != .peer)).foldl (fun s x => s.grant x s.here.ptsNow none) s

/-- PTS takes the wts of map lines that the form on the pipe has read (R231). -/
def State.seeMap (s : State) (lines : List Nat) : State :=
  let mine := lines.filter (fun x => regionOf (64 * x) != .peer)
  s.onHere (fun g => g.raisePts (mine.foldl (fun m x => max m (s.home x).wts) 0))

/-- EPHRD (R342).  STATUS reads the map: it waits for its lines, and poison there kills the gang (R247, R399). -/
def execEphrd (d b : BitVec 6) (s : State) : Result :=
  s.issue { illegal := decide (16 ≤ b.toNat) } (fun s =>
    let l := s.launch s.launchKey
    let put := fun (s : State) (v : Nat) => (s.onHere (fun g => g.writeS g.members d.toNat (fun _ => BitVec.ofNat 64 v))).done
    if b.toNat ≠ 7 then put s (l.ephReg b.toNat)
    else if l.ephReg 6 = 0 then put s (s.ephStatus l)
    else s.checkMap l (s.statusCells l l.cellCount 0) (fun s => put s.forgetAnswers (s.ephStatus l)))

/-- A form on the map that only acquires waits for the gang's earlier acquires and fences, and for the acknowledgement of dirty
bytes that the gang has read (R232, R234). -/
def State.acquireWaits (s : State) : Bool := s.wordHeld || s.awaitsAck s.here.key

/-- The points of a fragment: origin and extents clipped to DIMS, packed (R343). -/
def Launch.packOrigin (l : Launch) (f : Fragment) : Nat :=
  (List.range 4).foldl (fun n d => n + f.low.getD d 0 * 2 ^ field (l.ephReg 1) (4 * d) 4 % 2 ^ 16 * 2 ^ (16 * d)) 0
@[inherit_doc Launch.packOrigin] def Launch.packExtent (l : Launch) (f : Fragment) : Nat :=
  (List.range 4).foldl (fun n d =>
    let g := 2 ^ field (l.ephReg 1) (4 * d) 4
    let lo := f.low.getD d 0 * g
    n + (min ((f.low.getD d 0 + f.size.getD d 0) * g) (coord (l.ephReg 0) d) - lo) % 2 ^ 16 * 2 ^ (16 * d)) 0

/-- WALK's three registers and SCC. -/
def Gang.walkAnswer (g : Gang) (d : BitVec 6) (origin extent ticket : Nat) (scc : Bool) : Gang :=
  let put := fun (g : Gang) (i v : Nat) => g.writeS g.members (d.toNat + i) (fun _ => BitVec.ofNat 64 v)
  (put (put (put g 0 origin) 1 extent) 2 ticket).answer none 0 scc

/-- A fragment claimed: its cells, a new ticket, the cells claimed again after a kill, and the acquire (R313, R314). -/
def State.claimFragment (s : State) (d : BitVec 6) (f : Fragment) : State :=
  let key := s.launchKey
  let l := s.launch key
  let cells := l.fragmentCells f
  let (s, w) := s.writeCells l cells 1 s.here.ptsNow
  let s := s.onLaunch key (fun l => { l with
    tickets := l.tickets ++ [⟨l.nextTicket, l.ephReg 5, cells, s.here.block, s.here.gangId⟩]
    nextTicket := l.nextTicket + 1
    reruns := l.reruns + (cells.filter (fun c => l.returned.contains c)).length
    returned := l.returned.filter (fun c => !cells.contains c)
    largest := max l.largest w })
  s.onHere (fun g => ((g.raisePts w).acquireClock).walkAnswer d (l.packOrigin f) (l.packExtent f)
    (l.nextTicket % 2 ^ 32 + l.ephReg 5 * 2 ^ 32) true)

/-- WALK (R313, R343): an acquire at device scope, against every map line that its search read (R315); its atomics on the map
are acq_rel there, so a release comes first (R312). -/
def execWalk (d : BitVec 6) (s : State) : Result :=
  s.issue { s.here.orderedDemand [] with illegal := d == 0 || decide (61 < d.toNat) } (fun s =>
    if (s.launch s.launchKey).ephReg 6 = 0 then
      if s.acquireWaits then (s.noteSince false).stall
      else (s.onHere (fun g => g.acquireClock.walkAnswer d 0 0 0 false)).done
    else s.afterRelease 3 (fun s =>
      let l := s.launch s.launchKey
      let (seen, found) := s.walkChoice l
      s.checkMap l seen (fun s =>
        let lines := s.mapLines l seen
        match found with
        | .error e => s.mapTrouble e
        | .ok none =>
          let s := ({ s with tick := s.tick + 1 }.leaseMap lines).seeMap lines
          (s.forgetAnswers.onHere (fun g => g.acquireClock.walkAnswer d 0 0 0 false)).done
        | .ok (some f) =>
          let claimed := s.mapLines l (l.fragmentCells f)
          let s := ({ s with tick := s.tick + 1 }.leaseMap (lines.filter (fun x => !claimed.contains x))).seeMap lines
          (s.forgetAnswers.claimFragment d f).done)))

/-- WDONE: after a release at device scope the cells of an outstanding ticket of that generation become DONE, by acq_rel atomics
(R312, R314, R344). -/
def execWdone (a : BitVec 6) (s : State) : Result :=
  s.issue (s.here.orderedDemand [a]) (fun s =>
    s.afterRelease 3 (fun s =>
      let key := s.launchKey
      let l := s.launch key
      let word := (s.here.uniformS a.toNat).toNat
      match l.tickets.find? (fun t => t.num == field word 0 32 && t.gen == field word 32 32) with
      | none => (s.onHere (fun g => g.answer none 0 false)).done
      | some t =>
        s.checkMap l t.cells (fun s =>
        match s.readCells l .atomic t.cells with
        | .error e => s.mapTrouble e
        | .ok _ =>
          let (s, w) := ((s.seeMap (s.mapLines l t.cells)).forgetAnswers).writeCells l t.cells 2 s.here.ptsNow
          let s := s.onLaunch key (fun l => { l with tickets := l.tickets.filter (fun x => x.num != t.num), largest := max l.largest w })
          (s.onHere (fun g => ((g.raisePts w).acquireClock).answer none 0 true)).done)))

/-- COVQ: the state of the cell that holds a point, read as an acquire at device scope (R345). -/
def execCovq (d a : BitVec 6) (s : State) : Result :=
  s.issue (s.here.orderedDemand [a]) (fun s =>
    let l := s.launch s.launchKey
    let p := (s.here.uniformS a.toNat).toNat
    if s.acquireWaits then (s.noteSince false).stall
    else if l.ephReg 6 = 0 ∨ (List.range 4).any (fun i => decide (coord (l.ephReg 0) i ≤ coord p i)) = true then
      (s.onHere (fun g => g.acquireClock.answer (some d) 0 false)).done
    else
      let n := l.cellIndex (fun i => coord p i / 2 ^ field (l.ephReg 1) (4 * i) 4)
      s.checkMap l [n] (fun s =>
        match s.readCells l .load [n] with
        | .error e => s.mapTrouble e
        | .ok v =>
          let lines := s.mapLines l [n]
          (((s.leaseMap lines).seeMap lines).forgetAnswers.onHere (fun g =>
            g.acquireClock.answer (some d) (BitVec.ofNat 64 (v.headD 0)) true)).done))

end Sys2Proof.Machine
end

