-- ==== Sys2Proof/Machine/Tasks.lean ====
section
/-! DEFINITION. Kernel descriptors (R95), reorder rings (R309, R340), job cards and their queues (R305 to R308, R341),
active messages (R346, R386, R387) and arenas (R347). -/

namespace Sys2Proof.Machine

/-! ## Kernel descriptors (R95) -/

/-- The descriptor that 128 bytes hold; none where a reserved field is not zero or a field lies outside its values
(R95, launch check 2 of R301).  ENTRY is any address: one that is not a multiple of 4 is not refused here, where R95 gives the
field no alignment (DESIGN CHOICE, log entry 64). -/
def parseDescriptor (x : Nat) : Option Descriptor :=
  let lanes := field x 64 11
  let gm1 := field x 75 4
  let entry := fun (g : Nat) => field x (128 + 16 * g) 16
  let ok := decide (1 ≤ lanes) && decide (lanes ≤ 1024) && gm1 == (lanes + 63) / 64 - 1 && decide (field x 81 7 ≤ 64) &&
    decide (field x 88 6 ≤ 32) && field x 94 2 == 0 && decide (field x 96 20 ≤ 917504) && field x 116 12 == 0 &&
    (List.range 16).all (fun g => field (entry g) 9 7 == 0 && (decide (g ≤ gm1) || entry g == 0)) &&
    field x 705 63 == 0 && field x 768 256 == 0
  if ok then
    some { entry := field x 0 64, lanes := lanes, gm1 := gm1, phased := bitOf x 79, gridbar := bitOf x 80, carry := field x 81 7
           accs := field x 88 6, scratch := field x 96 20
           roles := (List.range (gm1 + 1)).map (fun g => (field (entry g) 0 4, field (entry g) 4 5))
           eph := (List.range 5).map (fun i => field x (384 + 64 * i) 64), ephv := bitOf x 704 }
  else none

/-- The granules that one block of a kernel starts with. -/
def Descriptor.granules (d : Descriptor) : Nat := d.roles.foldl (fun n r => n + r.2) 0

/-! ## Reads of the device in a tenant's space -/

/-- Why a read of the device in a tenant's space gives nothing: a page, or poison; or it waits while the host owns a line of
it (R247). -/
inductive DeviceError where
  | page (c : Cause)
  | poison
  | waits
  deriving DecidableEq, Repr

/-- `n` bytes at a tenant's virtual address, within one page, read at the homes with a required time (R246, R357): the
number and the largest wts. -/
def State.readTenant (s : State) (t time va n : Nat) : Except DeviceError (Nat × Nat × State) :=
  match s.deviceTranslate t va .load with
  | .error c => .error (.page c)
  | .ok a =>
    if s.walkHeld t va || s.hostOwnsRange a n then .error .waits
    else
    let (r, s) := s.homeRead time a n
    if r.poison then .error .poison else .ok (r.value, r.wts, s)

/-! ## Reorder rings (R309, R340) -/

/-- A reorder-ring header. -/
structure Ring where
  ticket : Nat
  head : Nat
  slots : Nat
  full : Nat
  /-- N -/
  count : Nat
  deriving DecidableEq, Repr

/-- The header that 64 bytes hold; none where a reserved field or a size is out of its values. -/
def parseRing (x : Nat) : Option Ring :=
  let n := field x 128 5
  let sz := field x 136 4
  if 1 ≤ n ∧ n ≤ 16 ∧ field x 133 3 = 0 ∧ 3 ≤ sz ∧ sz ≤ 8 ∧ field x 140 52 = 0 ∧ field x 320 192 = 0 then
    some ⟨field x 0 64, field x 64 64, field x 192 64, field x 256 64, 2 ^ n⟩
  else none

/-- Tickets handed out and not consumed. -/
def Ring.held (r : Ring) : Nat := (r.ticket + 2 ^ 64 - r.head) % 2 ^ 64

/-- The byte of the bitmap that holds a ticket's bit, and the bit. -/
def Ring.bit (r : Ring) (t : Nat) : Nat × Nat := (r.full + t % r.count / 8, t % 8 % r.count)

/-- The gang's own accesses to a line that must come before its next atomic there (R238, R266). -/
def State.lineBusy (s : State) (key line : Nat) : Bool :=
  s.ops.any (fun o => o.gang == key && o.lines.contains line) ||
    (s.core (key / 64)).fifo.any (fun e => e.line == line && (e.gangs.contains key || e.readers.contains key))

/-- A line that an atomic step of the word on the pipe reads at its home: after the gang's earlier accesses that must come first
(R232, R236, R238), and when the host does not own it (R247); for a line of another device, what that device answers (R249).
Poison kills the gang (R399). -/
def State.withHome (s : State) (line : Nat) (effect : State → Line → State) : State :=
  if s.wordHeld || s.lineBusy s.here.key line then (s.noteSince false).stall
  else if regionOf (64 * line) = .peer then
    match s.wordAnswer line with
    | none => s.askPeer line 2
    | some d => if d.refused then s.refusedWord else if d.poison then s.killHere .uncorr else effect s d.data
  else if s.hostOwns line then (s.noteSince false).stall
  else if (s.home line).poison then s.killHere .uncorr
  else effect s (s.lineBytes line)

/-- Several lines read so, each into a table. -/
def State.withHomes (s : State) (got : Table Line) : List Nat → (State → Table Line → State) → State
  | [], effect => effect s got
  | line :: rest, effect => s.withHome line (fun s l => s.withHomes (got.insert line l) rest effect)

/-- A form on a ring header: the causes of R320; the line at its home; SHAPE for a bad header; then the effect on the header at its
physical address.  At a line of another device that device makes the step, and nothing is written here (R249; log entry 31). -/
def State.ringWord (s : State) (dem : Demand) (a : BitVec 6) (effect : State → Nat → Ring → State) : Result :=
  s.issue dem (fun s =>
    let g := s.here
    let va := (g.uniformS a.toNat).toNat
    if va % 64 ≠ 0 then s.precise .misalign va
    else if s.walkWaits g va then s.stall
    else
      let s := s.fillFor g va
      match s.translate g va .atomic with
      | .error c => s.addressFault c va
      | .ok pa => s.withHome (pa / 64) (fun s l =>
          match parseRing l.toNat with
          | none => s.precise .shape
          | some r => effect s pa r))

/-- Bytes written by an atomic of the gang at the homes: its PTS rises to their wts, and later loads of the gang use
only copies as new (R237, R266). -/
def State.atomicBytes (s : State) (l : List (Nat × Byte)) : State :=
  let (s, w) := s.homeBytes s.here.ptsNow l
  let lines := (l.map (fun e => e.1 / 64)).eraseDups
  let s := s.onLaunch s.launchKey (fun k => { k with largest := max k.largest w })
  s.onHere (fun g => { g.raisePts w with floors := lines.foldl (fun t x => Table.set 0 t x (max (Table.get 0 t x) w)) g.floors })

/-- Bytes that a ring form writes, with the header at `pa`: nothing where that is a line of another device, which writes them. -/
def State.ringBytes (s : State) (pa : Nat) (l : List (Nat × Byte)) : State := if regionOf pa = .peer then s else s.atomicBytes l

/-- A ring form is done. -/
def State.ringDone (s : State) (d : Option (BitVec 6)) (v : Word64) (scc : Bool) : State :=
  (s.forgetAnswers.onHere (fun g => g.answer d v scc)).done

/-- RTKT (R340). -/
def execRtkt (d a : BitVec 6) (s : State) : Result :=
  s.ringWord (s.here.uniformDemand [a]) a (fun s pa r =>
    if r.held < r.count then
      (s.ringBytes pa (numberAt pa 8 ((r.ticket + 1) % 2 ^ 64))).ringDone (some d) (BitVec.ofNat 64 r.ticket) true
    else s.ringDone (some d) 0 false)

/-- The physical addresses of bytes of the bitmap, or the cause that reaching one raises. -/
def State.bitmapAt (s : State) (vas : List Nat) : Except (Cause × Nat) (List (Nat × Nat)) :=
  match vas with
  | [] => .ok []
  | va :: rest =>
    match s.translate s.here va .atomic with
    | .error c => .error (c, va)
    | .ok a => (s.bitmapAt rest).map (fun l => (va, a) :: l)

/-- Whether a ticket is handed out and not consumed. -/
def Ring.live (r : Ring) (t : Nat) : Bool := decide (r.head ≤ t) && decide (t < r.ticket)

/-- RFILL: a release at device scope, then the ticket's full bit (R340). -/
def execRfill (a b : BitVec 6) (s : State) : Result :=
  s.ringWord (s.here.orderedDemand [a, b]) a (fun s head r =>
    let t := (s.here.uniformS b.toNat).toNat
    if !r.live t then s.ringDone none 0 false
    else if s.walkWaits s.here (r.bit t).1 then s.stall
    else match s.bitmapAt [(r.bit t).1] with
      | .error (c, va) => s.addressFault c va
      | .ok l =>
        let pa := (l.headD (0, 0)).2
        s.withHome (pa / 64) (fun s line =>
          let old := BitVec.ofNat 8 (lineField line (pa % 64) 1)
          if bitOf old.toNat (r.bit t).2 then s.ringDone none 0 false
          else s.afterRelease 3 (fun s =>
            (s.ringBytes head [(pa, old ||| BitVec.ofNat 8 (2 ^ (r.bit t).2))]).ringDone none 0 true)))

/-- Whether every load and atomic of the gang that is earlier than the word on the pipe is performed: step 1 of R230. -/
def State.earlierReadsDone (s : State) : Bool := s.readsDone s.here.key (s.here.grp.since.getD s.nextId)

/-- RHEAD: the gang's earlier loads and atomics are performed first; then the consecutive full slots from HEAD are counted, as many
as there are, and up to `m` of them freed in one step, and the form acquires at device scope (R340). -/
def execRhead (d a b : BitVec 6) (s : State) : Result :=
  s.ringWord (s.here.orderedDemand [a, b]) a (fun s pa r =>
    let m := (s.here.uniformS b.toNat).toNat
    if r.count < m then s.precise .shape
    else if !s.earlierReadsDone || s.awaitsAck s.here.key then (s.noteSince false).stall
    else
      let tickets := (List.range r.count).map (fun i => (r.head + i) % 2 ^ 64)
      let vas := (tickets.map (fun t => (r.bit t).1)).eraseDups
      if vas.any (fun va => s.walkWaits s.here va) then s.stall
      else match s.bitmapAt vas with
      | .error (c, va) => s.addressFault c va
      | .ok l =>
        let at_ := fun (va : Nat) => (Table.find l va).getD 0
        s.withHomes [] ((l.map (fun e => e.2 / 64)).eraseDups) (fun s got =>
          let byte := fun (va : Nat) => BitVec.ofNat 8 (lineField ((Table.find got (at_ va / 64)).getD 0) (at_ va % 64) 1)
          let full := tickets.takeWhile (fun t => bitOf (byte (r.bit t).1).toNat (r.bit t).2)
          let freed := full.take m
          let lines := (pa / 64 :: l.map (fun e => e.2 / 64)).eraseDups.filter (fun x => regionOf (64 * x) != .peer)
          let seen := lines.foldl (fun n x => max n (s.home x).wts) 0
          let s := s.onHere (fun g => g.raisePts seen)
          let s := if freed.isEmpty then s
            else s.ringBytes pa (numberAt (pa + 8) 8 ((r.head + freed.length) % 2 ^ 64) ++
              ((freed.map (fun t => (r.bit t).1)).eraseDups.map (fun va => (at_ va,
                (freed.filter (fun t => (r.bit t).1 == va)).foldl (fun b t => b &&& ~~~(BitVec.ofNat 8 (2 ^ (r.bit t).2))) (byte va)))))
          (s.onHere Gang.acquireClock).ringDone (some d) (BitVec.ofNat 64 full.length) (!full.isEmpty)))

/-! ## Job cards (R305 to R308, R341) -/

/-- The cards that a cluster's task queue holds (R307). -/
def State.queued (s : State) (cluster : Nat) : Nat := (s.jobs.filter (fun e => e.2.cluster == cluster && e.2.place == .queue)).length

/-- The cards for a cluster that stand in overflow rings, in post order. -/
def State.ringed (s : State) (cluster : Nat) : List (Nat × Job) := s.jobs.filter (fun e => e.2.cluster == cluster && e.2.place == .ring)

/-- The line of a card's ring slot, where it can be reached. -/
def State.ringLine (s : State) (j : Job) : Option Nat :=
  match s.ringSlotAddr j.tenant j.ringSlot with
  | .error _ => none
  | .ok a => some (a / 64)

/-- Whether the walk to a card's DONECTR waits for the host (R247). -/
def State.counterWaits (s : State) (j : Job) : Bool := j.donectr != 0 && s.walkHeld j.tenant j.donectr

/-- One card moved from the overflow ring to its queue, if there is room (R308); its fields are read again from its
slot, and a poisoned slot drops the card (R399).  None while the host owns a line that this needs (R247), or the queue is full. -/
def State.moveCard (s : State) (key : Nat) : Option State :=
  match s.jobs.find key with
  | none => none
  | some j =>
    let slot := s.tenantReg j.tenant 0xA + 64 * (j.ringSlot % max 1 (s.tenantReg j.tenant 0xB))
    if j.place ≠ .ring ∨ 512 ≤ s.queued j.cluster ∨ s.counterWaits j = true ∨ s.deviceHeld j.tenant slot 64 = true then none
    else if ((s.ringLine j).map (fun l => (s.home l).poison)).getD false then some (s.rejectJob key)
    else
      let j := match s.ringSlotAddr j.tenant j.ringSlot with
        | .error _ => j
        | .ok a =>
          let x := s.read a 64
          { j with descAddr := field x 0 64, arg := field x 64 64, blocks := field x 128 16, ranks := field x 144 2 + 1
                   prio := field x 146 3, depen := bitOf x 149, depphase := field x 160 32, depoff := field x 192 20
                   donectr := field x 256 64 }
      some { s with jobs := s.jobs.insert key { j with place := .queue }
                    ringOut := Table.set 0 s.ringOut j.tenant (Table.get 0 s.ringOut j.tenant + 1) }

/-- The listed spilled cards of a cluster moved into its queue in post order, as far as they go: those of the tenants that `p` names,
and none past one that must wait (R308). -/
def State.moveCards (s : State) (p : Nat → Bool) : List (Nat × Job) → State
  | [] => s
  | (key, j) :: rest =>
    if p j.tenant then
      match s.moveCard key with
      | none => s
      | some s => s.moveCards p rest
    else s

/-- OVERFLOW_RING_MOVE: the spilled cards of a tenant for a cluster move into its queue in post order (R308). -/
def execOverflowRingMove (tenant cluster : Nat) (s : State) : Result :=
  .next (s.moveCards (fun t => t == tenant) (s.ringed cluster))

/-- A card placed in its cluster's queue, or spilled; whether it is taken (R308, R341).  Cards spilled earlier move first, and while
one of them is left the card spills behind it.  A spill that finds the ring page unmapped stops the context, and the card is
kept. -/
def State.placeCard (s : State) (j : Job) : State × Bool :=
  let s := s.moveCards (fun _ => true) (s.ringed j.cluster)
  let key := s.nextId
  let add := fun (s : State) (p : JobPlace) => { s with jobs := s.jobs.insert key { j with place := p, order := key }, nextId := key + 1 }
  if s.queued j.cluster < 512 ∧ s.ringed j.cluster = [] then (add s .queue, true)
  else
    match (add s .kept).spill key with
    | (s', .placed) => (s', true)
    | (_, .full) => (s, false)
    | (s', .unmapped) =>
      ({ s'.deviceEvent j.tenant .ringmap 0 0 0 0 with ringStopped := (s'.ringStopped ++ [j.tenant]).eraseDups }, true)

/-- Whether a card's reserved fields and counts are as POST requires, with the size of the posting carve-out (R341). -/
def cardOk (x size : Nat) : Bool :=
  field x 156 4 == 0 && field x 212 44 == 0 && field x 320 192 == 0 && field x 128 16 != 0 &&
    field x 128 16 % (field x 144 2 + 1) == 0 &&
    (!bitOf x 149 || (field x 192 20 % 16 == 0 && decide (field x 192 20 + 16 ≤ size)))

/-- POST and POSTN (R341).  The task's clocks start at the time of the release, before the card is read.  A gang that belongs to no
launch has no root launch to give a task: its card is not taken (log entry 45).  The placing waits while the walk to the ring's next
slot does (R247). -/
def State.postWord (s : State) (a : BitVec 6) (far : Bool) : Result :=
  s.issue (s.here.orderedDemand [a]) (fun s =>
    let g := s.here
    let va := (g.uniformS a.toNat).toNat
    if va % 64 ≠ 0 then s.precise .misalign va
    else if s.walkWaits g va then s.stall
    else
      let s := s.fillFor g va
      match s.translate g va .load with
      | .error c => s.addressFault c va
      | .ok pa =>
        s.afterRelease 3 (fun s =>
          let released := s.here.ptsNow
          s.withLine false (pa / 64) (fun s l =>
          let x := l.toNat
          let b := s.block g.block
          let cluster := if far then field x 150 6 else g.core / 4
          if !cardOk x (s.carveSize g.carve) || (far && !bitOf (s.tenantClusters b.tenant) cluster) then s.forgetAnswers.precise .shape
          else if b.launch = 0 then s.ringDone none 0 false
          else if s.ringWaits b.tenant then s.stall
          else
            let (s, taken) := s.placeCard
              { tenant := b.tenant, cluster := cluster, place := .queue, order := 0, descAddr := field x 0 64, arg := field x 64 64
                blocks := field x 128 16, ranks := field x 144 2 + 1, prio := field x 146 3, depen := bitOf x 149
                depphase := field x 160 32, depoff := field x 192 20, donectr := field x 256 64, launch := some b.launch
                block := g.block, pts := released }
            s.ringDone none 0 taken)))

/-- POST (R341). -/
def execPost (a : BitVec 6) (s : State) : Result := s.postWord a false
/-- POSTN (R341). -/
def execPostn (a : BitVec 6) (s : State) : Result := s.postWord a true

/-! ## Active messages (R346, R386, R387) -/

/-- This module's fabric device number (R376). -/
def State.fabid (s : State) : Nat := field (s.barReg 0x14000) 0 16

/-- The largest stack clock (R241, R387). -/
def State.stackClock (s : State) : Nat := (List.range 4).foldl (fun m i => max m (Table.get 0 s.clocks i)) 0

/-- What an entry of a tenant's handler table comes to. -/
inductive HandlerLook where
  /-- the entry's line, or its descriptor's, is still the host's (R247) -/
  | waits
  /-- the entry is empty or unusable -/
  | none
  /-- descriptor, argument, priority and descriptor address -/
  | found (d : Descriptor) (arg prio addr : Nat)
  deriving DecidableEq, Repr

/-- The handler that an entry of a tenant's handler table names (R386). -/
def State.handler (s : State) (t cluster n : Nat) : HandlerLook :=
  match s.readTenant t 0 (s.tenantReg t 0x10 + 32 * n) 24 with
  | .error .waits => .waits
  | .error _ => .none
  | .ok (x, _, s') =>
    let desc := field x 0 64
    if desc = 0 ∨ bitOf (s.tenantClusters t) cluster = false then .none
    else match s'.readTenant t 0 desc 128 with
      | .error .waits => .waits
      | .error _ => .none
      | .ok (y, _, _) =>
        match parseDescriptor y with
        | none => .none
        | some d => if 64 < d.lanes ∨ d.phased = true ∨ d.gridbar = true ∨ d.scratch < 320 then .none else .found d (field x 64 64) (field x 128 3) desc

/-- The header and payload that a handler's carve-out starts with (R387). -/
def messageBytes (source tenant : Nat) (payload : List Byte) : List Byte :=
  bytesOf 64 (source % 2 ^ 16 + tenant % 16 * 2 ^ 16 + payload.length % 512 * 2 ^ 20) ++ payload

/-- An active message arrives at a tenant of this device: its status, and its place as a job (R386); no status while the
reads of the handler table must wait (R247). -/
def State.receiveMessage (s : State) (t cluster n source from_ : Nat) (payload : List Byte) : State × Option Nat :=
  if s.tenantState t = 0 ∨ s.tenantState t = 3 then (s, some 2)
  else match s.handler t cluster n with
    | .waits => (s, none)
    | .none => (s, some 4)
    | .found d arg prio addr =>
      let key := s.nextId
      let job : Job :=
        { tenant := t, cluster := cluster, place := .queue, order := key, descAddr := addr, arg := arg, blocks := 1, ranks := 1, prio := prio
          launch := none, pts := s.stackClock, payload := messageBytes source from_ payload, source := some source, desc := some d }
      let waiting := s.jobs.filter (fun e => e.2.tenant == t && e.2.place == .messages)
      if s.tenantState t = 2 ∨ s.saved.any (fun b => b.block.tenant == t) ∨ 512 ≤ s.queued cluster ∨ waiting ≠ [] then
        let log := field (s.tenantReg t 0xF) 0 4
        let slot := Table.get 0 s.ringIn (16 + t)
        let va := field (s.tenantReg t 0xF) 12 37 * 4096 + 512 * (slot % 2 ^ log)
        if log = 0 ∨ 2 ^ log ≤ waiting.length then (s, some 1)
        else if s.deviceHeld t va job.payload.length then (s, none)
        else match s.deviceTranslate t va .store with
          | .error _ => (s, some 1)
          | .ok a =>
            let (s, _) := s.homeBytes s.stackClock (job.payload.mapIdx (fun i b => (a + i, b)))
            ({ s with jobs := s.jobs.insert key { job with place := .messages }, nextId := key + 1
                      ringIn := Table.set 0 s.ringIn (16 + t) (slot + 1) }, some 0)
      else ({ s with jobs := s.jobs.insert key job, nextId := key + 1 }, some 0)

/-- ACTIVE_MESSAGE_RECEIVE: a message from another device is refused, ringed or queued, and its answer goes back
(R386). -/
def execActiveMessageReceive (t cluster n source from_ : Nat) (payload : List Byte) (s : State) : Result :=
  match s.receiveMessage (t % 16) (cluster % 64) (n % 64) source from_ (payload.take 256) with
  | (s, some status) => .next { s with seen := (0x200000 + source % 2 ^ 16, status) :: s.seen }
  | (s, none) => .next s

/-- MESSAGE_RING_DRAIN: when a tenant runs and has no saved blocks, its oldest ringed message moves to its queue (R386). -/
def execMessageRingDrain (t : Nat) (s : State) : Result :=
  match s.jobs.find? (fun e => e.2.tenant == t && e.2.place == .messages) with
  | none => .next s
  | some (key, j) =>
    if s.tenantState t ≠ 1 ∨ s.saved.any (fun b => b.block.tenant == t) = true ∨ 512 ≤ s.queued j.cluster then .next s
    else .next { s with jobs := s.jobs.insert key { j with place := .queue } }

/-- AMSG (R346): MISALIGN, then SHAPE; a release at system scope; the payload read from scratchpad; then the group waits
for the destination's answer, which for this device comes at once. -/
def execAmsg (d a b : BitVec 6) (s : State) : Result :=
  s.issue (s.here.orderedDemand [a, b]) (fun s =>
    let g := s.here
    let dest := (g.uniformS a.toNat).toNat
    let v := (g.uniformS b.toNat).toNat
    let off := field v 0 20
    let len := field v 20 9
    if off % 4 ≠ 0 then s.precise .misalign off
    else if 2 ^ 32 ≤ dest ∨ 2 ^ 29 ≤ v ∨ len = 0 ∨ 256 < len ∨ s.carveSize g.carve < off + len then s.precise .shape
    else s.afterRelease 4 (fun s =>
      let s := s.flushScratch g.key
      let payload := bytesOf len (s.sread g.carve off len)
      if s.objectPoisoned g.carveKey off len then s.killHere .uncorr
      else if field dest 16 16 = 0xFFFF ∨ field dest 16 16 = s.fabid then
        match s.receiveMessage (field dest 12 4) (field dest 6 6) (field dest 0 6) s.fabid (s.tenantOf g) payload with
        | (s, some status) => (s.onHere (fun g => g.answer (some d) (BitVec.ofNat 64 status) (status == 0))).done
        | (s, none) => s.stall
      else
        let batch := s.nextId
        let s := s.startOp { s.freshOp (.message dest payload d.toNat) 4 none [] with batch := batch }
        s.onHere (fun g => { g with grp := { g.grp.fresh with wait := .op batch } })))

/-- ABUMP: one atomic step at the arena pointer's home (R347, R387, R388). -/
def execAbump (d a b : BitVec 6) (s : State) : Result :=
  s.issue (s.here.uniformDemand [a, b]) (fun s =>
    let g := s.here
    let arena := (g.uniformS a.toNat).toNat
    let size := (g.uniformS b.toNat).toNat
    if 16 ≤ arena ∨ 2 ^ 32 ≤ size then s.precise .shape
    else
      let blk := s.block g.block
      if s.walkHeld blk.tenant (s.tenantReg blk.tenant 0x11 + 32 * arena) then s.stall
      else match s.deviceTranslate blk.tenant (s.tenantReg blk.tenant 0x11 + 32 * arena) .atomic with
      | .error .uncorr => s.killHere .uncorr
      | .error _ => s.precise .perm
      | .ok pa => s.withHome (pa / 64) (fun s l =>
          let limit := lineField l (pa % 64 + 8) 8
          let ptr := lineField l (pa % 64 + 16) 8
          let own := lineField l (pa % 64 + 24) 8
          let n := (size + 63) / 64 * 64
          if blk.launch = 0 ∨ bitOf own 32 = false ∨ field own 0 32 ≠ (s.launch blk.launch).lid then s.forgetAnswers.precise .perm
          else if n = 0 then s.ringDone (some d) (BitVec.ofNat 64 ptr) true
          else if ptr + n ≤ limit then
            (s.ringBytes pa (numberAt (pa + 16) 8 (ptr + n))).ringDone (some d) (BitVec.ofNat 64 ptr) true
          else s.ringDone (some d) 0 false))

end Sys2Proof.Machine
end

