-- ==== Sys2Proof/Machine/System.lean ====
section
/-! DEFINITION. The SYS forms (R367 to R372): requests to the supervisor, the return from a fault, the invalidation of
translations and the halt of gangs; and the taking of deferred faults (R178, R288). -/

namespace Sys2Proof.Machine

/-! ## Requests and traps (R368, R369) -/

/-- SVC (R368). -/
def execSvc (d a : BitVec 6) (s : State) : Result :=
  s.issue { s.here.uniformDemand [a] with ends := true, illegal := s.here.isSupervisor } (fun s =>
    let g := s.here
    let va := (g.uniformS a.toNat).toNat
    if va % 64 ≠ 0 then s.precise .misalign va
    else if s.walkWaits g va then s.stall
    else
      let s := s.fillFor g va
      match s.translate g va .load with
      | .error c => s.addressFault c va
      | .ok pa =>
        s.afterRelease 4 (fun s =>
          if g.stop ≠ .none then s.onHere (fun g => g.waitFor .held)
          else s.withLine true (pa / 64) (fun s l =>
            let s := if regionOf pa = .peer then s else s.onHere Gang.acquireClock
            let s := (s.swrite (.supervisor g.core) (128 * g.slot + 0x40) 64 l.toNat).forgetAnswers
            s.takeFault { cause := .svc, kind := 2, pc := s.here.wordPc, word := s.wordHere, index := s.here.wordIndex, dest := d.toNat })))

/-- TRAP (R369). -/
def execTrap (a : BitVec 6) (s : State) : Result :=
  s.issue { s.here.uniformDemand [a] with ends := true, illegal := s.here.isSupervisor } (fun s =>
    let v := (s.here.uniformS a.toNat).toNat
    if 2 ^ 16 ≤ v then s.precise .shape
    else s.takeFault { cause := .trap, kind := 3, pc := s.here.wordPc, word := s.wordHere, index := s.here.wordIndex, code := v })

/-! ## Return from a fault (R370) -/

/-- Whether a stop has met a group within its run. -/
def Stop.met (t : Stop) (p : Group) : Bool :=
  match t with
  | .none => false
  | .fault _ _ sl _ => sl == p.slices && p.run.isSome && p.wait == .ready

/-- A group meets its word again: that of the stop, or one that could not take its fault or make its SVC (R400 step 9); in a halted
gang after the WAKEG (R362, R370). -/
def Group.unhold (t : Stop) (halted : Bool) (p : Group) : Group :=
  if p.wait = .held ∨ t.met p = true then { p with wait := if halted then .halt else .ready } else p

/-- A gang's stop ends. -/
def Gang.unstop (g : Gang) : Gang :=
  { g with stop := .none, taken := none, grp := g.grp.unhold g.stop g.halted, parted := g.parted.map (Group.unhold g.stop g.halted) }

/-- The gang of a stop ends as if every slice had exited (R370). -/
def Gang.finish (g : Gang) : Gang :=
  { g with exited := BitVec.allOnes 16, grp := {}, parted := [], deferred := [], taken := none, stop := .none }

/-- PENDING of a mailbox entry cleared. -/
def State.clearPending (s : State) (core slot : Nat) : State :=
  let at_ := pendingAt slot
  let s := s.setSbyte (.supervisor core) at_ (s.sbyte (.supervisor core) at_ &&& 0xFE)
  let c := s.core core
  s.setCore core { c with pendingSince := c.pendingSince.erase slot }

/-- What a return does to the stopped gang: RESUME, NEXT or END (R370). -/
def State.returnTo (s : State) (g : Gang) (mode : Nat) (value : Word64) : State :=
  match g.stop with
  | .none => s
  | .fault kind cause slices dest =>
    let slice := trailingZeros 16 slices.toNat
    match mode with
    | 0 => s.setGang g.unstop
    | 1 => s.setGang (g.unstop.within slice (fun g =>
        (if kind = 2 then g.writeS g.members dest (fun _ => value) else g).advance))
    | _ =>
      let key := (s.block g.block).launch
      ((s.noteFault key cause).setGang g.finish).gridTest key

/-- Whether a stop is that of an SVC or a TRAP. -/
def Stop.isCall : Stop → Bool
  | .fault kind _ _ _ => kind == 2 || kind == 3
  | .none => false

/-- ERET (R370).  Only slots 0 to 47 have a mailbox entry: the others answer as an entry that is not pending. -/
def execEret (a b : BitVec 6) (s : State) : Result :=
  s.issue { s.here.uniformDemand [a, b] with ends := true, supervisor := true } (fun s =>
    let g := s.here
    let v := (g.uniformS a.toNat).toNat
    let slot := field v 0 6
    let mode := field v 6 2
    if 2 ^ 8 ≤ v ∨ slot = 48 ∨ mode = 3 then s.precise .shape
    else if 48 < slot ∨ s.isPending g.core slot = false then (s.onHere (fun g => g.answer none 0 false)).done
    else match (s.gang g.core slot).filter (fun t => t.stop != .none) with
      | none => ((s.clearPending g.core slot).onHere (fun g => g.answer none 0 true)).done
      | some t =>
        if mode = 1 ∧ t.stop.isCall = false then s.precise .shape
        else (((s.clearPending g.core slot).returnTo t mode (g.uniformS b.toNat)).onHere (fun g => g.answer none 0 true)).done)

/-! ## Invalidation (R371) -/

/-- An invalidation: the translations drop, and the form completes once everything translated before is done. -/
def State.invalidate (s : State) (dem : Demand) (bad : Gang → Bool) (t : Gang → Nat) (drop : State → Nat → State) : Result :=
  match s.here.grp.marker with
  | some m => .next (if s.tenantDone (t s.here) m then s.done else s.stall)
  | none =>
    s.issue dem (fun s =>
      if bad s.here then s.precise .shape
      else
        let s := (drop s (t s.here)).markNow
        if s.tenantDone (t s.here) (s.nextId - 1) then s.done else s.stall)

/-- TLBINV (R371). -/
def execTlbinv (a b : BitVec 6) (s : State) : Result :=
  s.invalidate { s.here.uniformDemand [a, b] with supervisor := true }
    (fun g => decide (2 ^ 49 ≤ (g.uniformS a.toNat).toNat) || decide (16 ≤ (g.uniformS b.toNat).toNat))
    (fun g => (g.uniformS b.toNat).toNat)
    (fun s t =>
      let va := (s.here.uniformS a.toNat).toNat
      s.dropTlb (fun k e => k / 2 ^ 40 == t && k % 2 ^ 40 * 2 ^ 19 / 2 ^ e.bits == va / 2 ^ e.bits))

/-- TLBINVA (R371). -/
def execTlbinva (a : BitVec 6) (s : State) : Result :=
  s.invalidate { s.here.uniformDemand [a] with supervisor := true }
    (fun g => decide (16 ≤ (g.uniformS a.toNat).toNat)) (fun g => (g.uniformS a.toNat).toNat) State.dropTenantTlb

/-! ## Halts (R372) -/

/-- HALTG and WAKEG on the gang that Sa names. -/
def State.haltWord (s : State) (a : BitVec 6) (f : State → Gang → State) : Result :=
  s.issue { s.here.uniformDemand [a] with supervisor := true } (fun s =>
    let v := (s.here.uniformS a.toNat).toNat
    let slot := field v 0 6
    if 2 ^ 16 ≤ v ∨ field v 6 2 ≠ 0 ∨ slot = 48 then s.precise .shape
    else match s.gang (field v 8 8) slot with
      | none => (s.onHere (fun g => g.answer none 0 false)).done
      | some t => ((f s t).onHere (fun g => g.answer none 0 true)).done)

/-- HALTG (R372). -/
def execHaltg (a : BitVec 6) (s : State) : Result := s.haltWord a (fun s t => s.setGang { t with halted := true })

/-- A group of a gang that is halted no longer: a wait in progress notes the WAKEG, and a word that the halt held back goes on (R334,
R372). -/
def Group.unhalt (p : Group) : Group :=
  if p.parked then { p with why := p.why ||| 128 } else if p.wait = .halt then { p with wait := .ready } else p

/-- A gang no longer halted (R372). -/
def Gang.unhalt (g : Gang) : Gang :=
  if g.halted then { g with halted := false, grp := g.grp.unhalt, parted := g.parted.map Group.unhalt } else g

/-- WAKEG (R372). -/
def execWakeg (a : BitVec 6) (s : State) : Result := s.haltWord a (fun s t => (s.setGang t.unhalt).ungate t.core)

/-! ## Deferred faults (R178, R288) -/

/-- Whether a group stands where a deferred fault is taken: between runs, or at the phase boundary of a phased kernel. -/
def Group.between (p : Group) (phased : Bool) : Bool :=
  p.run == none || (phased && (match p.wait with
    | .grid _ => true
    | _ => false))

/-- Whether a gang's kernel is phased (R47). -/
def State.phasedGang (s : State) (g : Gang) : Bool :=
  !g.isSupervisor && (s.block g.block).job.isNone && (((s.launch (s.block g.block).launch).desc.map Descriptor.phased).getD false)

/-- Whether a gang stands at a run boundary where a deferred fault is taken: a group between runs, or every slice
exited. -/
def State.atBoundary (s : State) (g : Gang) : Bool :=
  g.groups.any (fun p => p.between (s.phasedGang g)) || g.groups.all (fun p => p.slices == 0)

/-- The later operations of the gang on the pipe that a deferred fault discards: matrix-queue operations after one of
their own, engine commands not started after one of theirs; their flags fall and their ranges are released (R178,
R288). -/
def State.dropLater (s : State) (d : Deferred) : State :=
  let c := s.core s.here.core
  let ours := fun (block gang id : Nat) => block == s.here.block && gang == s.here.gangId && decide (d.op < id)
  let op := fun (o : MatOp) => !d.engine && !o.started && ours o.block o.gangId o.id
  let cmd := fun (k : CopyCmd) => d.engine && !k.started && k.next == 0 && ours k.block k.gangId k.id
  let flags := (c.mq.filter op).map MatOp.flag ++ (c.cmds.filter cmd).map CopyCmd.flag
  let c := (c.cmds.filter cmd).foldl (fun (c : Core) k => c.unlock k.id)
    { c with mq := c.mq.filter (fun o => !op o), cmds := c.cmds.filter (fun k => !cmd k) }
  (s.setCore s.here.core c).onHere (fun g => flags.foldl Gang.lowerFlag g)

/-- The oldest deferred fault of the gang on the pipe is taken (R178, R362). -/
def State.takeDeferred (s : State) : State :=
  match s.here.deferred with
  | [] => s
  | d :: rest =>
    if s.here.stop ≠ .none then s
    else
      let s := s.dropLater d
      (s.onHere (fun g => { g with deferred := rest, taken := some d })).takeFault
        { cause := d.cause, kind := 1, pc := d.pc, word := d.word, index := d.index, addr := d.addr, code := d.code, slice := some d.slice }

/-- DEFERRED_FAULT_TAKEN (R178). -/
def execDeferredFaultTaken (core slot : Nat) (s : State) : Result :=
  match s.gang core slot with
  | none => .next s
  | some g =>
    if !s.atBoundary g || g.halted || g.deferred.isEmpty || g.stop != .none then .next s
    else
      let slice := ((g.groups.find? (fun p => p.between (s.phasedGang g))).map (fun p => trailingZeros 16 p.slices.toNat)).getD 0
      .next (s.focus core slot slice).takeDeferred

end Sys2Proof.Machine
end

