-- ==== Sys2Proof/Machine/Dispatcher.lean ====
section
/-! DEFINITION. The dispatcher and the cluster task scheduler: launch windows and records (R299 to R302, R377, R448),
placement (R28 to R31, R42, R46, R94, R303, R304, R351), tasks and handlers (R305 to R307, R387), the ends of gangs and
blocks (R33, R396), phases (R47 to R49), arbitration (R319), pre-emption (R363 to R366) and teardown (R355). -/

namespace Sys2Proof.Machine

/-! ## Launch windows (R377) -/

/-- The offset of a launch window's status register (R376). -/
def windowStatus (t q : Nat) : Nat := 0x100000 + 0x1000 * (4 * t + q) + 8

/-- Whether a launch still counts in DEPTH: its last block has not started (R377). -/
def Launch.held (l : Launch) : Bool :=
  match l.stage with
  | .queued => true
  | .running => l.phase == 0 && decide (l.started < l.blocks)
  | .complete => false

/-- DEPTH of a launch window (R377). -/
def State.depth (s : State) (t q : Nat) : Nat :=
  (s.launches.filter (fun e => e.2.tenant == t && e.2.queue == q && e.2.held)).length

/-- A sticky bit of a launch window set. -/
def State.stickyWindow (s : State) (t q bit : Nat) : State :=
  s.setBar (windowStatus t q) (s.barReg (windowStatus t q) ||| 2 ^ bit)

/-- LAUNCH: the host writes `va` to the window of tenant `t`, queue `q` (R377). -/
def execLaunch (t q va : Nat) (s : State) : Result :=
  let t := t % 16
  let q := q % 4
  if va % 128 ≠ 0 ∨ 2 ^ 49 ≤ va then .next (s.stickyWindow t q 18)
  else if s.tenantState t ≠ 1 ∧ s.tenantState t ≠ 2 then .next (s.stickyWindow t q 17)
  else if 256 ≤ s.depth t q then .next (s.stickyWindow t q 16)
  else .next { s.setLaunch s.nextId { tenant := t, queue := q, order := s.nextId, record := va } with nextId := s.nextId + 1 }

/-- LAUNCH_WINDOW_STATUS_WRITE: each sticky bit for which `v` holds a 1 clears (R377). -/
def execLaunchWindowStatusWrite (t q v : Nat) (s : State) : Result :=
  let at_ := windowStatus (t % 16) (q % 4)
  .next (s.setBar at_ ((List.range' 16 3).foldl (fun n b => if bitOf (s.barReg at_) b && !bitOf v b then n + 2 ^ b else n) 0))

/-! ## Completion records (R302, R448) -/

/-- The 64 bytes of a completion record (R302). -/
def completionBits (status cause lid blocks reruns left peerfail laneflt : Nat) : Nat :=
  status % 2 ^ 8 + cause % 2 ^ 8 * 2 ^ 8 + lid % 2 ^ 32 * 2 ^ 64 + blocks % 2 ^ 64 * 2 ^ 128 + reruns % 2 ^ 32 * 2 ^ 192 +
    left % 2 ^ 32 * 2 ^ 224 + peerfail % 2 ^ 32 * 2 ^ 256 + laneflt % 2 ^ 32 * 2 ^ 288

/-- The record written at CPL with a carried time, or, where CPL cannot be reached, its device event (R302, R448). -/
def State.putCompletion (s : State) (t cpl lid time bits : Nat) : State :=
  match s.deviceTranslate t cpl .store with
  | .error c => s.deviceEvent t c 0 lid 0 cpl
  | .ok a => (s.homeBytes time (numberAt a 64 bits)).1

/-- Cells of a launch that are not DONE; cells that cannot be read count (R302). -/
def State.cellsLeft (s : State) (l : Launch) : Nat :=
  if l.ephReg 6 = 0 then 0
  else ((List.range l.cellCount).filter (fun n => match s.cell l n .load with
    | .ok 2 => false
    | _ => true)).length

/-- Whether the host owns a line of a tenant's arena table, or of a page table on the way to it, whose bytes the device must then
wait for (R247). -/
def State.arenaOwned (s : State) (t : Nat) : Bool := (List.range 16).any (fun i => s.deviceHeld t (s.tenantReg t 0x11 + 32 * i + 24) 8)

/-- Whether the end of a launch waits for the host: for its arenas, for a line of its coverage map, or for the walk to its
completion record (R247). -/
def State.endWaits (s : State) (l : Launch) : Bool :=
  let cells := if l.ephReg 6 = 0 then [] else List.range l.cellCount
  s.arenaOwned l.tenant || s.walkHeld l.tenant l.cpl || s.mapWaits l cells || (s.mapLines l cells).any s.hostOwns

/-- VALID cleared in every arena entry of a launch (R388). -/
def State.clearArenas (s : State) (l : Launch) : State :=
  (List.range 16).foldl (fun s i =>
    match s.deviceTranslate l.tenant (s.tenantReg l.tenant 0x11 + 32 * i + 24) .store with
    | .error _ => s
    | .ok a =>
      let w := s.read a 8
      if bitOf w 32 ∧ field w 0 32 = l.lid then (s.homeBytes 0 (numberAt a 8 (w - 2 ^ 32))).1 else s) s

/-- A launch ends: its arenas close and its completion record is written (R302, R388). -/
def State.endLaunch (s : State) (key : Nat) : State :=
  let l := s.launch key
  let left := s.cellsLeft l
  let status := if l.aborted then 5 else if l.fault.isSome || l.stopping.isSome || left != 0 then 4 else 0
  let cause := if status = 0 then 0 else if l.aborted then l.fault.getD 0 else (l.stopping.getD (l.fault.getD 0))
  let s := (s.clearArenas l).putCompletion l.tenant l.cpl l.lid (l.largest + 1)
    (completionBits status cause l.lid l.ended l.reruns left l.peerfail l.laneflt)
  let s := s.onLaunch key (fun l => { l with stage := .complete, status := status, tickets := [] })
  { s with jobs := s.jobs.filter (fun e => e.2.launch != some key) }

/-- Whether a task of a launch has ended and is not counted in its DONECTR yet (R305). -/
def State.uncounted (s : State) (key : Nat) : Bool := s.jobs.any (fun e => e.2.launch == some key && e.2.doneMark.isSome)

/-- Whether every store of a launch is acknowledged, and every fire-and-forget store answered (R302, R390). -/
def State.storesDone (s : State) (key : Nat) : Bool :=
  s.cores.all (fun e => e.2.fifo.all (fun it => !it.launches.contains key)) && s.ff.all (fun f => f.launch != some key)

/-- Whether a launch has a block that has not ended, resident or saved. -/
def State.hasBlocks (s : State) (key : Nat) : Bool :=
  s.blocks.any (fun e => e.2.launch == key && !e.2.ended) || s.saved.any (fun b => b.block.launch == key)

/-- COMPLETION_RECORD_WRITE (R302): when every block and task of the launch has ended, or a stopped launch has none
left.  After a module error none is written (R408). -/
def execCompletionRecordWrite (launch : Nat) (s : State) : Result :=
  let l := s.launch launch
  let ended := if l.stopping.isSome then !s.hasBlocks launch && !s.uncounted launch
    else l.ended == l.blocks && !s.hasBlocks launch && !s.jobs.any (fun e => e.2.launch == some launch)
  if l.stage = .running ∧ l.aborted = false ∧ s.mgmt.error = none ∧ ended = true ∧ s.storesDone launch = true ∧
      s.endWaits l = false then
    .next (s.endLaunch launch)
  else .next s

/-! ## Admission (R95, R299 to R301) -/

/-- The fields of a launch record's 128 bytes as a launch; `eph` holds its Ephemeris words (R300). -/
def parseRecord (x : Nat) (l : Launch) : Launch :=
  { l with
    arg := field x 64 64, blocks := field x 128 16 * field x 144 16 * field x 160 16, split := field x 192 3, swz := bitOf x 195
    ranks := field x 196 2 + 1, serial := bitOf x 198, lid := field x 224 32, phbase := field x 256 64, cpl := field x 320 64 }

/-- Launch check 2 of R301 on the record `x` and its descriptor. -/
def launchRecordOk (x : Nat) (d : Descriptor) (clusters : Nat) : Bool :=
  let l := parseRecord x {}
  let eph := fun (i : Nat) => field x (512 + 64 * i) 64
  let use := fun (i : Nat) => if d.ephv then d.eph.getD i 0 else eph i
  field x 176 16 == 0 && field x 199 25 == 0 && field x 448 64 == 0 && field x 832 192 == 0 &&
    l.blocks != 0 && decide (l.blocks < 2 ^ 32) && l.blocks % l.ranks == 0 &&
    (l.phbase != 0) == d.phased && l.phbase % 0x8000 == 0 && l.cpl % 64 == 0 && field x 384 64 % 64 == 0 &&
    (!d.ephv || (List.range 5).all (fun i => eph i == 0)) &&
    ephemerisOk (use 0) (use 1) (use 2) (use 3) (use 4) clusters

/-- What one block takes of a core (R30). -/
structure Need where
  slots : Nat
  granules : Nat
  /-- carve-out bytes, rounded up to 4 KiB (R215) -/
  scratch : Nat
  accs : Nat
  deriving DecidableEq, Repr

/-- A carve-out rounded up to 4 KiB (R215). -/
def pages4k (n : Nat) : Nat := (n + 4095) / 4096 * 4096

/-- The need of a fresh block of a kernel. -/
def Descriptor.need (d : Descriptor) : Need := ⟨d.gm1 + 1, d.granules, pages4k d.scratch, d.accs⟩

/-- The bytes of the scratchpad partition of a split (R215). -/
def splitBytes (split : Nat) : Nat := 131072 * split

/-- The cores, or for cluster launches the first cores of clusters, on which a block or cluster of `k` blocks may stand:
by core mask and, for a grid, by placement mask (R301 check 3, R303). -/
def State.allowedCores (s : State) (t place k : Nat) : List Nat :=
  if k = 1 then (List.range 256).filter (fun c => s.inMask t c && bitOf place (c / 4))
  else ((List.range 64).filter (fun c => bitOf place c && (List.range k).all (fun r => s.inMask t (4 * c + r)))).map (fun c => 4 * c)

/-- How many blocks of a need an empty core holds. -/
def Need.perCore (n : Need) (split : Nat) : Nat :=
  let per := fun (lim v : Nat) => if v = 0 then 65536 else lim / v
  min (min (per 48 n.slots) (per 252 n.granules)) (min (per (splitBytes split) n.scratch) (per 32 n.accs))

/-- The end of a rejected launch: its completion record is written, and its arena entries close (R301, R388). -/
def State.rejectLaunch (s : State) (key : Nat) (l : Launch) (status cause : Nat) : State :=
  ((s.setLaunch key { l with stage := .complete, status := status }).clearArenas l).putCompletion l.tenant l.cpl l.lid 1
    (completionBits status cause l.lid 0 0 0 0 0)

/-- The end of a launch whose completion record cannot be written (R448). -/
def State.loseLaunch (s : State) (key : Nat) (l : Launch) (c : Cause) (addr : Nat) : State :=
  (s.setLaunch key { l with stage := .complete, status := 1 }).deviceEvent l.tenant c 0 l.lid 0 addr

/-- A launch accepted: its Ephemeris and its starting clocks (R299, R310). -/
def State.acceptLaunch (s : State) (key : Nat) (l : Launch) (x : Nat) (d : Descriptor) (wts : Nat) : State :=
  let use := fun (i : Nat) => BitVec.ofNat 64 (if d.ephv then d.eph.getD i 0 else field x (512 + 64 * i) 64)
  let eph := (List.range 5).foldl (fun t i => Table.set 0 (Table.set 0 t i (use i)) (8 + i) (use i)) []
  s.setLaunch key { l with
    stage := .running, desc := some d, pts := wts, largest := wts, eph := Table.set 0 eph 6 (BitVec.ofNat 64 (field x 384 64)) }

/-- Launch checks 2 to 4 of R301. -/
def State.checkLaunch (s : State) (key : Nat) (l : Launch) (x : Nat) (d : Option Descriptor) (wts : Nat) : State :=
  match d with
  | none => s.rejectLaunch key l 1 0
  | some d =>
    if field x 0 64 % 128 ≠ 0 ∨ launchRecordOk x d (s.tenantClusters l.tenant) = false then s.rejectLaunch key l 1 0
    else
      let place := if d.ephv then d.eph.getD 4 0 else field x 768 64
      let cores := s.allowedCores l.tenant place l.ranks
      if 252 < d.granules ∨ splitBytes l.split < d.scratch ∨ cores = [] then s.rejectLaunch key l 2 0
      else if d.gridbar = true ∧ d.phased = false ∧ cores.length * l.ranks * d.need.perCore l.split < l.blocks then
        s.rejectLaunch key l 3 0
      else s.acceptLaunch key l x d wts

/-- LAUNCH_ADMIT: the dispatcher reads the oldest record of a queue that it has not read, with its descriptor, and
checks it (R95, R299, R301, R399, R448).  While the host owns a line that it needs it waits (R247). -/
def execLaunchAdmit (t q : Nat) (s : State) : Result :=
  match s.launches.find? (fun e => e.2.tenant == t && e.2.queue == q && e.2.stage == .queued) with
  | none => .next s
  | some (key, l) =>
    let s₀ := s
    if s.tenantState t ≠ 1 ∨ s.mgmt.error ≠ none ∨ s.arenaOwned t = true then .next s
    else match s.readTenant t 0 l.record 64 with
      | .error .waits => .next s₀
      | .error (.page c) => .next (s.loseLaunch key l c l.record)
      | .error .poison => .next (s.loseLaunch key l .uncorr l.record)
      | .ok (lo, w1, s) =>
        let l := parseRecord lo l
        if s.walkHeld t l.cpl || s.walkHeld t (field lo 0 64 + 127) then .next s₀
        else match s.deviceTranslate t l.cpl .store with
        | .error c => .next (s.loseLaunch key l c l.cpl)
        | .ok _ =>
          match s.readTenant t 0 (l.record + 64) 64 with
          | .error .waits => .next s₀
          | .error (.page c) => .next (s.rejectLaunch key l 1 c.code)
          | .error .poison => .next (s.rejectLaunch key l 1 Cause.uncorr.code)
          | .ok (hi, w2, s) =>
            let desc := field lo 0 64
            match s.deviceTranslate t (desc + 127) .load with
            | .error c => .next (s.rejectLaunch key l 1 c.code)
            | .ok _ =>
              match s.readTenant t 0 desc 128 with
              | .error .waits => .next s₀
              | .error (.page c) => .next (s.rejectLaunch key l 1 c.code)
              | .error .poison => .next (s.rejectLaunch key l 1 Cause.uncorr.code)
              | .ok (y, w3, s) => .next (s.checkLaunch key l (lo + hi * 2 ^ 512) (parseDescriptor y) (max w1 (max w2 w3)))

/-! ## Room on a core (R30, R215, R303, R351) -/

/-- The user slots of a core that hold no gang, those without a pending mailbox entry first. -/
def State.freeSlots (s : State) (core : Nat) : List Nat :=
  let free := (List.range 48).filter (fun n => (s.gang core n).isNone)
  free.filter (fun n => !s.isPending core n) ++ free.filter (fun n => s.isPending core n)

/-- What the blocks of a core take of it. -/
def State.taken (s : State) (core : Nat) : Need :=
  let res := s.residents core
  ⟨48 - (s.freeSlots core).length,
    (s.allGangs.filter (fun g => g.core == core && !g.isSupervisor)).foldl (fun n g => n + g.granules) 0,
    res.foldl (fun n e => n + pages4k e.2.scratchSize) 0, res.foldl (fun n e => n + e.2.accCount) 0⟩

/-- Whether a core can now take a block of a tenant with a split: no block of another tenant or split is resident; a change
of either waits until its dirty lines are home; and it holds the block whole (R30, R215, R303, R351, R407). -/
def State.canTake (s : State) (t split core : Nat) (n : Need) : Bool :=
  let c := s.core core
  let same := c.tenant == t && c.split == split
  let u := s.taken core
  s.inMask t core && decide (core < 256) && !c.noDispatch && (same || ((s.residents core).isEmpty && c.fifo.isEmpty)) &&
    decide (u.slots + n.slots ≤ 48) && decide (u.granules + n.granules ≤ 252) &&
    decide (u.scratch + n.scratch ≤ splitBytes split) && decide (u.accs + n.accs ≤ 32)

/-- How many blocks of a need a core can take now. -/
def State.roomFor (s : State) (t split core : Nat) (n : Need) : Nat :=
  if s.canTake t split core n then
    let u := s.taken core
    let per := fun (lim v : Nat) => if v = 0 then 65536 else lim / v
    min (min (per (48 - u.slots) n.slots) (per (252 - u.granules) n.granules))
      (min (per (splitBytes split - u.scratch) n.scratch) (per (32 - u.accs) n.accs))
  else 0

/-- A core from which the last block of a tenant has left: its B slots are cleared, every L1 copy and L1 TLB entry
dropped, and the tenant's Umbra pieces leave its cache (R159, R195, R351). -/
def State.leaveCore (s : State) (core : Nat) : State :=
  if (s.residents core).isEmpty then
    let c := s.core core
    { s.setCore core { c with slots := [], l1 := [], tlb := [] } with
      umbra := s.umbra.map (fun e => if e.cachedBy = some core then { e with cachedBy := none } else e) }
  else s

/-- A core made ready for a block: an empty one takes the tenant and the split (R215, R351). -/
def State.seat (s : State) (core t split : Nat) : State :=
  let c := s.core core
  if c.tenant = t ∧ c.split = split then s
  else s.setCore core { c with tenant := t, split := split, l1 := [], tlb := (if c.tenant = t then c.tlb else []),
                                  evc := (if c.tenant = t then c.evc else []) }

/-- Gangs take free slots of a core, in order. -/
def State.seatGangs (s : State) (core : Nat) (gangs : List Gang) : State :=
  gangs.foldl (fun s g => s.setGang { g with core := core, slot := (s.freeSlots core).headD 0 }) s

/-- A kernel is mirrored on a core, or never will be, once its first block stands there (R43). -/
def State.startMirror (s : State) (core : Nat) (k : Kernel) : State :=
  match (s.mirrorTable k).find core with
  | some _ => s
  | none =>
    let n := s.registerTotal core k
    s.setMirror core k (if n ≤ 126 ∧ n ≤ s.freeGranules core then 1 else 3)

/-! ## Fresh gangs and blocks (R28, R42, R73, R94) -/

/-- The lanes of gang `g` of a block of `lanes` lanes. -/
def gangLanes (lanes g : Nat) : Nat := min 64 (lanes - 64 * g)

/-- The slices of a gang of `n` lanes that start exited (R28). -/
def startExited (n : Nat) : SliceMask := BitVec.ofNat 16 (maskOf ((List.range 16).filter (fun sl => decide (n ≤ 4 * sl))))

/-- A gang as it is dispatched (R28, R42, R94). -/
def freshGang (d : Descriptor) (block g arg linear count pts ats : Nat) : Gang :=
  let n := gangLanes d.lanes g
  let out := startExited n
  let s := (List.range 16).flatMap (fun sl =>
    [(64 * sl + 1, BitVec.ofNat 64 arg), (64 * sl + 2, BitVec.ofNat 64 linear), (64 * sl + 3, BitVec.ofNat 64 count)])
  { block := block, gangId := g, role := (d.roles.getD g (0, 0)).1, granules := (d.roles.getD g (0, 0)).2
    exited := out, grp := { slices := ~~~out, pc := BitVec.ofNat 64 d.entry }
    s := s.filter (fun e => e.2 != 0), m := Table.set 0 [] 0 (BitVec.ofNat 64 (2 ^ n - 1)), pts := pts, ats := ats }

/-- The gangs of a fresh block. -/
def freshGangs (d : Descriptor) (block arg linear count pts ats : Nat) : List Gang :=
  (List.range (d.gm1 + 1)).map (fun g => freshGang d block g arg linear count pts ats)

/-- The instruction cache of a core emptied, and the copies of other devices' lines that its fetch agent would find in the cluster
cache: what its gangs fetch from now on is read anew (R222). -/
def State.dropCode (s : State) (core : Nat) : State :=
  let c := s.core core
  let k := s.cluster (core / 4)
  (s.setCore core { c with icache := [], icachePoison := [] }).setCluster (core / 4)
    { k with copies := k.copies.filter (fun e => regionOf (64 * e.1) != .peer) }

/-- A block placed with its gangs on a core, whose clock runs again (R318). -/
def State.placeBlock (s : State) (key : Nat) (b : Block) (split : Nat) (gangs : List Gang) : State :=
  let n := gangs.foldl (fun n g => n + g.granules) 0
  let s := ((s.seat b.core b.tenant split).dropCode b.core).makeRoom b.core b.mirrorKernel n
  (((s.setBlock key b).seatGangs b.core gangs).startMirror b.core b.mirrorKernel).ungate b.core

/-! ## What may start now (R299, R303 to R307, R355, R378) -/

/-- Whether any work of a tenant may be dispatched: it runs, no module error has struck (R408), no weight-store command of
it is in progress (R378), its context is not stopped by RINGMAP (R308), and no save of its blocks is under way. -/
def State.tenantRuns (s : State) (t : Nat) : Bool :=
  s.tenantState t == 1 && s.mgmt.error.isNone && s.wsBusy.map WsCommand.tenant != some t && !s.ringStopped.contains t &&
    (match s.preempt with
      | some p => p.restore || p.tenant != t
      | none => true)

/-- Whether a launch precedes another in its queue. -/
def Launch.before (a b : Launch) : Bool := a.tenant == b.tenant && a.queue == b.queue && decide (a.order < b.order)

/-- Whether the launches ahead of one in its queue let its blocks start (R299). -/
def State.queueClear (s : State) (l : Launch) : Bool :=
  let ahead := s.launches.vals.filter (fun x => x.before l)
  ahead.all (fun x => !x.held) &&
    (!l.serial || ahead.all (fun x => x.stage == .complete || ahead.any (fun y => decide (x.order < y.order))))

/-- The linear ids of the next unit of a grid to start: the next block, or the next cluster's blocks, leaving out those
that ended in an earlier phase (R31, R47). -/
def Launch.unitFrom (l : Launch) : Nat → Nat → Option (Nat × List Nat)
  | 0, _ => none
  | fuel + 1, i =>
    if l.blocks ≤ i then none
    else
      let ids := ((List.range l.ranks).map (fun r => i + r)).filter (fun b => !l.endedIds.contains b)
      if ids = [] then l.unitFrom fuel (i + l.ranks) else some (i, ids)

/-- The next unit of a launch. -/
def Launch.nextUnit (l : Launch) : Option (Nat × List Nat) := l.unitFrom (l.blocks + 1) l.started

/-- Whether blocks of a launch may start now, wherever there is room. -/
def State.launchReady (s : State) (key : Nat) (l : Launch) : Bool :=
  l.stage == .running && l.stopping.isNone && !l.aborted && s.tenantRuns l.tenant && l.nextUnit.isSome && s.queueClear l &&
    !s.saved.any (fun b => b.block.launch == key && b.block.job.isNone)

/-- The need of a block of a launch in its present phase (R30, R48). -/
def Launch.need (l : Launch) : Need :=
  match l.desc with
  | none => ⟨0, 0, 0, 0⟩
  | some d =>
    if l.phase = 0 then d.need
    else { d.need with granules := d.roles.foldl (fun n r => n + max r.2 ((d.carry + 7) / 8)) 0 }

/-- The core of a block of a unit that is placed on `core`: its rank's core of the cluster, for a cluster launch (R30). -/
def Launch.coreOf (l : Launch) (core id : Nat) : Nat := if l.ranks = 1 then core else 4 * (core / 4) + id % l.ranks

/-- Whether the next unit of a launch can stand on a core, or its cluster, now (R30, R303). -/
def State.unitFits (s : State) (l : Launch) (core : Nat) : Bool :=
  match l.nextUnit with
  | none => false
  | some (_, ids) =>
    bitOf (l.ephReg 4) (core / 4) && ids.all (fun id => s.canTake l.tenant l.split (l.coreOf core id) l.need)

/-- Whether a kernel starts all its blocks at once (R46). -/
def Launch.atOnce (l : Launch) : Bool := (l.desc.map (fun d => d.gridbar && !d.phased)).getD false

/-- Whether every block of a launch could start now (R46). -/
def State.wholeFits (s : State) (l : Launch) : Bool :=
  decide (l.blocks ≤ l.ranks * ((s.allowedCores l.tenant (l.ephReg 4) l.ranks).foldl (fun n c =>
    n + ((List.range l.ranks).map (fun r => s.roomFor l.tenant l.split (c + r) l.need)).foldl min 65536) 0))

/-- Whether a job card's dependence is met, and the phase timestamp it brings: that of the phase completion that met it, also where
the card is dispatched after the posting block has ended (R306).  A posting block that is saved is
judged by its saved bytes; one that stands between two phases of its kernel has not ended, and its carve-out, which is
released, holds no phase. -/
def State.dependence (s : State) (j : Job) : Option Nat :=
  if j.depen = false then some 0
  else if j.met.isSome then j.met
  else match s.blocks.find j.block with
    | some b =>
      if b.ended then some 0
      else if phaseReached (s.barrier (.block j.block) j.depoff).phase j.depphase then some (s.phaseTs (.block j.block) j.depoff)
      else none
    | none =>
      match s.saved.find? (fun b => b.key == j.block) with
      | none => none
      | some b =>
        let phase := ofBytes ((List.range 4).map (fun i => Table.get 0 b.block.scratch (j.depoff + i)))
        if phaseReached phase j.depphase then some (Table.get 0 b.block.phaseTs j.depoff) else none

/-- The descriptor of a card at its dispatch: none where the card is unplaceable (R305). -/
def State.jobDescriptor (s : State) (j : Job) : Option (Descriptor × Nat) :=
  match j.launch with
  | none => j.desc.map (fun d => (d, (d.scratch + 131071) / 131072))
  | some key =>
    let l := s.launch key
    match j.desc with
    | some d => some (d, l.split)
    | none =>
      match s.readTenant j.tenant 0 j.descAddr 128 with
      | .error _ => none
      | .ok (y, _, _) =>
        match parseDescriptor y with
        | none => none
        | some d =>
          let cores := (List.range j.ranks).all (fun r => s.inMask j.tenant (4 * j.cluster + r))
          let any := (List.range 4).any (fun r => s.inMask j.tenant (4 * j.cluster + r))
          if j.descAddr % 128 ≠ 0 ∨ j.donectr % 8 ≠ 0 ∨ d.phased = true ∨ d.gridbar = true ∨ 252 < d.granules ∨
              splitBytes l.split < d.scratch ∨ (if j.ranks = 1 then any else cores) = false then none
          else some (d, l.split)

/-- Whether the descriptor that a card names is still to be read, and the host owns a line of it (R247). -/
def State.descriptorOwned (s : State) (j : Job) : Bool := j.desc.isNone && s.deviceHeld j.tenant j.descAddr 128

/-- Whether a job's next block may be dispatched now, wherever there is room (R305 to R307, R312, R387). -/
def State.jobReady (s : State) (key : Nat) (j : Job) : Bool :=
  (j.place == .queue || (j.place == .running && decide (j.started < j.blocks))) && s.tenantRuns j.tenant &&
    (match j.launch with
      | some k => (s.launch k).stopping.isNone && !(s.launch k).aborted
      | none => true) &&
    !s.descriptorOwned j && !s.counterWaits j && (j.place == .running || (s.dependence j).isSome) &&
    !s.saved.any (fun b => b.block.job == some key) &&
    (j.source.isNone || !s.jobs.any (fun e => e.2.tenant == j.tenant && e.2.source == j.source && decide (e.2.order < j.order) &&
      e.2.place != .running))

/-- The split that a job's block takes on a core: a handler takes that of a core that its tenant occupies (R215). -/
def State.jobSplit (s : State) (j : Job) (split core : Nat) : Nat :=
  if j.launch.isNone && !(s.residents core).isEmpty then (s.core core).split else split

/-- Whether a job's next block or cluster can stand on a core now (R30, R307). -/
def State.jobFits (s : State) (j : Job) (core : Nat) : Bool :=
  match s.jobDescriptor j with
  | none => false
  | some (d, split) =>
    core / 4 == j.cluster &&
      (if j.ranks = 1 then s.canTake j.tenant (s.jobSplit j split core) core d.need
       else (List.range j.ranks).all (fun r => s.canTake j.tenant split (4 * j.cluster + r) d.need))

/-- The precedence of a piece of work: priority, tasks before grid blocks, then the earlier (R304). -/
structure Rank where
  prio : Nat
  task : Bool
  order : Nat
  deriving DecidableEq, Repr

/-- Whether one piece of work wins over another (R304). -/
def Rank.beats (a b : Rank) : Bool :=
  decide (b.prio < a.prio) || (a.prio == b.prio && ((a.task && !b.task) || (a.task == b.task && decide (a.order < b.order))))

/-- The rank of a launch's blocks, by the priority of its queue (R299, R304). -/
def State.launchRank (s : State) (l : Launch) : Rank := ⟨field (s.tenantReg l.tenant 6) (4 * l.queue) 3, false, l.order⟩

/-- The rank of a card. -/
def Job.rank (j : Job) : Rank := ⟨j.prio, true, j.order⟩

/-- The cores that units of a launch or task take where they are placed on the listed cores (R30). -/
def unitCores (ranks : Nat) (cores : List Nat) : List Nat :=
  if ranks = 1 then cores else cores.flatMap (fun c => (List.range ranks).map (fun r => 4 * (c / 4) + r))

/-- Whether some other piece of work that wins over `r` could take one of the cores now (R304). -/
def State.outranked (s : State) (r : Rank) (cores : List Nat) : Bool :=
  s.launches.any (fun e => (s.launchRank e.2).beats r && s.launchReady e.1 e.2 && cores.any (s.unitFits e.2) &&
    (!e.2.atOnce || s.wholeFits e.2)) ||
  s.jobs.any (fun e => e.2.rank.beats r && s.jobReady e.1 e.2 && cores.any (s.jobFits e.2))

/-! ## Dispatch (R30, R31, R42, R46, R94, R299, R303 to R307) -/

/-- The keys that the blocks of a unit take, by rank. -/
def unitPeers (first ranks : Nat) (ids : List Nat) : Table Nat := (ids.mapIdx (fun n id => (id % ranks, first + n)))

/-- A fresh block of a kernel. -/
def freshBlock (d : Descriptor) (core t launch : Nat) (job : Option Nat) (linear count ranks : Nat) (peers : Table Nat) : Block :=
  { core := core, tenant := t, launch := launch, job := job, linear := linear, count := count, rank := linear % ranks, ranks := ranks
    peers := peers, gangCount := d.gm1 + 1, live := 2 ^ (d.gm1 + 1) - 1, scratchSize := d.scratch, accCount := d.accs }

/-- The next unit of a launch's first phase starts on a core or its cluster. -/
def State.startUnit (s : State) (key core : Nat) : State :=
  let l := s.launch key
  match l.desc, l.nextUnit with
  | some d, some (i, ids) =>
    let first := s.nextId
    let peers := unitPeers first l.ranks ids
    let s := ids.foldl (fun s id =>
      let k := (peers.find (id % l.ranks)).getD 0
      s.placeBlock k (freshBlock d (l.coreOf core id) l.tenant key none id l.blocks l.ranks peers) l.split
        (freshGangs d k l.arg id l.blocks l.pts l.pts)) { s with nextId := first + ids.length }
    s.onLaunch key (fun l => { l with
      started := i + l.ranks
      blockKeys := ids.foldl (fun t id => t.insert id ((peers.find (id % l.ranks)).getD 0)) l.blockKeys })
  | _, _ => s

/-- Units started in turn on the listed cores, as long as each fits. -/
def State.startUnits (s : State) (key : Nat) : List Nat → Option State
  | [] => some s
  | c :: rest => if s.unitFits (s.launch key) c then (s.startUnit key c).startUnits key rest else none

/-- BLOCK_DISPATCH: the next blocks, or clusters, of a launch start on the listed cores, one core for each (R30, R31).  A
kernel with a grid barrier that is not phased starts all its blocks at once (R46). -/
def execBlockDispatch (launch : Nat) (cores : List Nat) (s : State) : Result :=
  let l := s.launch launch
  if l.phase ≠ 0 ∨ s.launchReady launch l = false ∨ s.outranked (s.launchRank l) (unitCores l.ranks cores) = true ∨
      (l.atOnce = true ∧ cores.length * l.ranks ≠ l.blocks) then .next s
  else .next ((s.startUnits launch cores).getD s)

/-- The next block, or cluster, of a job starts on a core: its gangs' ATS is the wts of the POST, and their PTS that or, if it is
more, the timestamp of the phase that met the card's dependence (R305, R306, R387). -/
def State.startJob (s : State) (key core : Nat) (d : Descriptor) (split : Nat) : State :=
  match s.jobs.find key with
  | none => s
  | some j =>
    let dep := (s.dependence j).getD 0
    let first := s.nextId
    let ids := (List.range j.ranks).map (fun r => j.started + r)
    let peers := unitPeers first j.ranks ids
    let s := { s with
      nextId := first + j.ranks
      jobs := s.jobs.insert key { j with place := .running, desc := some d, met := some dep, started := j.started + j.ranks } }
    ids.foldl (fun s id =>
      let k := (peers.find (id % j.ranks)).getD 0
      let c := if j.ranks = 1 then core else 4 * j.cluster + id % j.ranks
      let b := freshBlock d c j.tenant (j.launch.getD 0) (some key) id j.blocks j.ranks peers
      let b := { b with scratch := (j.payload.mapIdx (fun i x => (i, x))).filter (fun e => e.2 != 0) }
      s.placeBlock k b (s.jobSplit j split c) (freshGangs d k j.arg id j.blocks (max j.pts dep) j.pts)) s

/-- A job dispatched on a core, or dropped where it is unplaceable (R305, R306). -/
def State.dispatchJob (s : State) (key core : Nat) (handler : Bool) : State :=
  match s.jobs.find key with
  | none => s
  | some j =>
    if s.jobReady key j = false ∨ j.launch.isNone ≠ handler then s
    else match s.jobDescriptor j with
      | none => s.rejectJob key
      | some (d, split) =>
        if s.jobFits j core && !s.outranked j.rank (unitCores j.ranks [core]) then s.startJob key core d split else s

/-- TASK_DISPATCH (R305 to R307). -/
def execTaskDispatch (job core : Nat) (s : State) : Result := .next (s.dispatchJob job core false)

/-- HANDLER_DISPATCH (R387). -/
def execHandlerDispatch (job core : Nat) (s : State) : Result := .next (s.dispatchJob job core true)

/-! ## The ends of gangs and blocks (R33, R396) -/

/-- The copy-engine commands and matrix-queue operations of a gang. -/
def State.engineWork (s : State) (core block gangId : Nat) : Bool :=
  (s.core core).cmds.any (fun k => k.block == block && k.gangId == gangId) ||
    (s.core core).mq.any (fun o => o.block == block && o.gangId == gangId)

/-- GANG_END: every slice has exited, no deferred fault is left to take, and every operation of the gang is complete
(R33). -/
def execGangEnd (core slot : Nat) (s : State) : Result :=
  match s.gang core slot with
  | none => .next s
  | some g =>
    if g.isSupervisor || g.exited != BitVec.allOnes 16 || !g.deferred.isEmpty || g.stop != .none ||
        s.ops.any (fun o => o.gang == g.key) || s.engineWork core g.block g.gangId then .next s
    else .next (s.removeGang g)

/-- The report of a block's lane events at its end or at the end of a phase (R396), from the LCAUSE of each gang. -/
def State.reportLanes (s : State) (b : Block) (causes : Table Nat) : State :=
  match (List.range b.gangCount).find? (fun g => field (Table.get 0 causes g) 8 8 != 0) with
  | none => s
  | some g =>
    let cause := if field (Table.get 0 causes g) 0 8 = Cause.scratch.code then Cause.scratch else Cause.peergone
    (s.deviceEvent b.tenant cause b.core (s.launch b.launch).lid b.linear 0).onLaunch b.launch (fun l => { l with laneflt := l.laneflt + 1 })

/-- The watches of a block, and their arrivals on the way, are gone. -/
def State.dropWatches (s : State) (key : Nat) : State :=
  { s with watches := s.watches.filter (fun w => w.block != key), arrivals := s.arrivals.filter (fun a => a.block != key) }

/-- One more block of a job has ended; the last one begins the release that counts the task in DONECTR (R305). -/
def State.jobBlockEnded (s : State) (key : Nat) : State :=
  match s.jobs.find key with
  | none => s
  | some j =>
    let mark := if j.ended + 1 < j.blocks then none else some s.nextId
    { s with jobs := s.jobs.insert key { j with ended := j.ended + 1, doneMark := mark }, nextId := s.nextId + 1 }

/-- A task whose last block has ended is counted: DONECTR rises by 1 once every store of its launch ahead of the release is
acknowledged (R230, R305). -/
def State.finishJob (s : State) (key : Nat) : State :=
  match s.jobs.find key with
  | none => s
  | some j =>
    match j.doneMark with
    | none => s
    | some m =>
      let launch := j.launch.getD 0
      let ahead := s.cores.any (fun e => e.2.fifo.any (fun it => decide (it.id < m) && it.launches.contains launch))
      if ahead || s.counterWaits j then s
      else { s.addCounter j.tenant j.donectr 1 ((s.launch launch).largest + 1) with jobs := s.jobs.erase key }

/-- A block leaves its core: its carve-out, tiles and range locks are released (R33, R48).  Its watches stay armed until it
ends (R326). -/
def State.releaseBlock (s : State) (key : Nat) : State :=
  let b := s.block key
  let c := s.core b.core
  s.setCore b.core { c with locks := c.locks.filter (fun l => !(l.scratch && l.owner == key)) }

/-- Whether every block of a phased grid has completed the present phase (R47). -/
def Launch.phaseOver (l : Launch) : Bool := (List.range l.blocks).all (fun i => l.phaseDone.contains i || l.endedIds.contains i)

/-- The next phase begins once every block has completed the present one and some block has not ended (R47). -/
def Launch.turnPhase (l : Launch) : Launch :=
  if l.phaseOver && !l.phaseDone.isEmpty then
    { l with phase := l.phase + 1, phaseDone := [], started := 0, gridTs := l.gridPts, gridPts := 0 }
  else l

/-- BLOCK_END: every gang of the block has ended and its engine operations are complete (R33).  The end of a block may
complete a phase of its kernel (R47); the step that follows the end of a task's last block counts the task (R305).  The bytes of the
carve-out stay as they are until it is given to another block, which finds it zero (R215, R431). -/
def execBlockEnd (block : Nat) (s : State) : Result :=
  match s.blocks.find block with
  | none => .next s
  | some b =>
    let c := s.core b.core
    if b.ended then .next ((b.job.map s.finishJob).getD s)
    else if b.live != 0 || c.cmds.any (fun k => k.block == block) || c.mq.any (fun o => o.block == block) then .next s
    else
      let s := ((s.reportLanes b b.causes).releaseBlock block).dropWatches block
      let s := s.setBlock block { b with ended := true, accs := [], accCount := 0 }
      let s := match b.job with
        | some j => s.jobBlockEnded j
        | none => s.onLaunch b.launch (fun l => Launch.turnPhase { l with ended := l.ended + 1, endedIds := l.endedIds ++ [b.linear] })
      .next ((s.leaveCore b.core).gridTest b.launch)

/-! ## Phases (R47 to R49) -/

/-- The record check of R49 over `n` halfwords of a record, leaving out the one at 0x3E. -/
def recordCheck (rec_ : Nat) (n : Nat) : Nat :=
  (List.range n).foldl (fun c h => if h = 31 then c else rotateLeft 16 c 1 ^^^ field rec_ (16 * h) 16) 0xA5A5

/-- The halfwords that the check of a record with a carry of `c` covers. -/
def checkedHalves (c : Nat) : Nat := 0x1100 + 128 * c

/-- A table's values from key `k` on as one number of `n` fields of `w` bits. -/
def packTable (w n : Nat) (f : Nat → Nat) : Nat := (List.range n).foldl (fun x i => x + f i % 2 ^ w * 2 ^ (w * i)) 0

/-- The phase record of a gang (R49): slice `sl` resumes at `pc sl` with SCC 1.  `phase` is the number of the phase that ends;
the program counter and SCC of a slice that has exited are recorded as 0 (log entry 61). -/
def phaseRecord (g : Gang) (phase c : Nat) (pc : Nat → Nat) : Nat :=
  let body := phase % 2 ^ 32 + c * 2 ^ 32 + g.exited.toNat * 2 ^ 39 + g.narrow.toNat * 2 ^ 64 + g.ptsNow % 2 ^ 32 * 2 ^ 128 +
    g.atsNow % 2 ^ 32 * 2 ^ 160 + g.seed.toNat * 2 ^ 192 + g.layer.toNat * 2 ^ 256 +
    packTable 128 16 (fun sl => pc sl + (g.modeOf sl).toNat * 2 ^ 64 + (if g.exited.getLsbD sl then 0 else 2 ^ 96)) * 2 ^ 512 +
    packTable 64 16 (fun i => (g.mask i).toNat) * 2 ^ 2560 +
    packTable 64 1024 (fun i => (g.sreg (i / 64) (i % 64)).toNat) * 2 ^ 4096 +
    packTable 32 (64 * c) (fun i => (g.vword (i / 64) (i % 64)).toNat) * 2 ^ 69632
  body + recordCheck body (checkedHalves c) * 2 ^ 496

/-- The bytes of a phase record with a carry of `c`. -/
def phaseBytes (c : Nat) : Nat := 0x2200 + 256 * c

/-- Whether a gang has stopped at its phase boundary: every group waits at BARWAIT.GRID, and nothing of the gang is
incomplete (R48). -/
def State.atPhaseEnd (s : State) (g : Gang) (phase : Nat) : Bool :=
  g.groups.all (fun p => p.slices == 0 || p.wait == .grid (phase + 1)) && !g.halted && g.stop == .none && g.deferred.isEmpty &&
    g.flags.isEmpty && !s.ops.any (fun o => o.gang == g.key) && !s.engineWork g.core g.block g.gangId &&
    !(s.clusterItems g.core).any (fun e => e.2.gangs.contains g.key || e.2.readers.contains g.key || e.2.writers.contains g.key)

/-- The address at which a slice of a gang resumes after its BARWAIT.GRID word. -/
def Gang.resumePc (g : Gang) (sl : Nat) : Nat :=
  match g.groupOf sl with
  | some p => (g.groupPc p).toNat + 4
  | none => 0

/-- The phase records of a block written at a launch's area, one for each gang; one that cannot be reached stops the
launch. -/
def State.writeRecords (s : State) (l : Launch) (b : Block) (c : Nat) (gangs : List Gang) : Except Cause State :=
  (List.range b.gangCount).foldl (fun (acc : Except Cause State) i =>
    match acc with
    | .error e => .error e
    | .ok s =>
      match s.deviceTranslate l.tenant (l.phbase + (b.linear * b.gangCount + i) * 0x8000) .store with
      | .error e => .error e
      | .ok a =>
        let g := (gangs.find? (fun g => g.gangId == i)).getD { exited := BitVec.allOnes 16 }
        .ok (s.homeBytes (g.ptsNow + 1) (numberAt a (phaseBytes c) (phaseRecord g l.phase c g.resumePc))).1) (.ok s)

/-- Whether a walk to a phase record of a block waits for the host (R247). -/
def State.recordsHeld (s : State) (l : Launch) (b : Block) : Bool :=
  (List.range b.gangCount).any (fun i => s.walkHeld l.tenant (l.phbase + (b.linear * b.gangCount + i) * 0x8000))

/-- A gang goes without the steps of its end, its block having left the core. -/
def State.dropGang (s : State) (core slot : Nat) : State :=
  let s := if s.here.core = core ∧ s.here.slot = slot then s.onHere (fun h => { h with ended := true })
    else { s with gangs := s.gangs.erase (gangKey core slot) }
  s.forgetGang (gangKey core slot)

/-- PHASE_END: a block of a phased kernel whose gangs not ended have all stopped at the boundary writes its phase records, reports
its lane events and leaves its core (R48, R49, R396). -/
def execPhaseEnd (block : Nat) (s : State) : Result :=
  match s.blocks.find block with
  | none => .next s
  | some b =>
    let l := s.launch b.launch
    let gangs := s.gangsOf block
    match l.desc with
    | none => .next s
    | some d =>
      let c := s.core b.core
      if b.ended || b.job.isSome || !d.phased || gangs.isEmpty || !gangs.all (fun g => g.remaining != 0 && s.atPhaseEnd g l.phase) ||
          c.cmds.any (fun k => k.block == block) || c.mq.any (fun o => o.block == block) || s.recordsHeld l b then .next s
      else match s.writeRecords l b d.carry gangs with
        | .error e => .next (s.stopLaunch b.launch e none)
        | .ok s =>
          let causes := gangs.foldl (fun t g => Table.set 0 t g.gangId g.lcause.toNat) b.causes
          let s := (s.reportLanes b causes).releaseBlock block
          let s := gangs.foldl (fun s g => s.dropGang g.core g.slot) s
          let s := s.onLaunch b.launch (fun l => { l with
            recordAge := gangs.foldl (fun t g => Table.set 0 t (b.linear * b.gangCount + g.gangId) s.rebases) l.recordAge
            recordFloors := gangs.foldl (fun t g => t.insert (b.linear * b.gangCount + g.gangId) g.floors) l.recordFloors
            phaseDone := l.phaseDone ++ [b.linear], gridPts := gangs.foldl (fun n g => max n g.ptsNow) l.gridPts
            largest := gangs.foldl (fun n g => max n g.ptsNow) l.largest
            abandonedIds := if b.abandoned then l.abandonedIds ++ [b.linear] else l.abandonedIds })
          let s := { s with blocks := s.blocks.erase block }
          .next ((s.leaveCore b.core).onLaunch b.launch Launch.turnPhase)

/-- A gang restored from its phase record: the carry set and the scalar state, with the acquire of the grid phase
(R48, R49, R332); the rebases made since the record was written lower its PTS (R242).  The record holds no groups: slices that
resume at one address come back as one group (log entry 61). -/
def restoredGang (d : Descriptor) (block i rec_ wts gridTs owed : Nat) (floors : Table Nat) : Gang :=
  let at_ := fun (byte n : Nat) => field rec_ (8 * byte) (8 * n)
  let role := d.roles.getD i (0, 0)
  let exited : SliceMask := BitVec.ofNat 16 (field rec_ 39 16)
  let clock := max (at_ 0x10 4 - rebaseBy * owed) (max wts gridTs)
  let live := (List.range 16).filter (fun sl => !exited.getLsbD sl)
  let pc := fun (sl : Nat) => BitVec.ofNat 64 (at_ (0x40 + 16 * sl) 8)
  let sparse := fun (n : Nat) (f : Nat → Nat) => ((List.range n).map (fun k => (k, f k))).filter (fun e => e.2 != 0)
  let base : Gang :=
    { block := block, gangId := i, role := role.1, granules := max role.2 ((d.carry + 7) / 8), exited := exited
      grp := { slices := ~~~exited }
      s := (sparse 1024 (fun k => if k % 64 = 0 then 0 else at_ (0x200 + 8 * k) 8)).map (fun e => (e.1, BitVec.ofNat 64 e.2))
      scc := BitVec.ofNat 16 (maskOf ((List.range 16).filter (fun sl => bitOf (at_ (0x4C + 16 * sl) 1) 0)))
      mode := (sparse 16 (fun sl => at_ (0x48 + 16 * sl) 4)).map (fun e => (e.1, BitVec.ofNat 32 e.2))
      m := (sparse 16 (fun k => at_ (0x140 + 8 * k) 8)).map (fun e => (e.1, BitVec.ofNat 64 e.2))
      v := (sparse (64 * d.carry) (fun k => at_ (0x2200 + 4 * k) 4)).map (fun e => (e.1, BitVec.ofNat 32 e.2))
      narrow := BitVec.ofNat 64 (at_ 8 8), seed := BitVec.ofNat 64 (at_ 0x18 8), layer := BitVec.ofNat 64 (at_ 0x20 8)
      wakewhy := 64, pts := clock, ats := clock, floors := floors }
  if live = [] then base else base.part pc

/-- The gangs of a block read from its phase records; a failing check stops the launch with FORMAT (R49). -/
def State.readRecords (s : State) (l : Launch) (d : Descriptor) (block id : Nat) : Except Cause (List Gang × State) :=
  (List.range (d.gm1 + 1)).foldl (fun (acc : Except Cause (List Gang × State)) i =>
    match acc with
    | .error e => .error e
    | .ok (gs, s) =>
      match s.readTenant l.tenant 0 (l.phbase + (id * (d.gm1 + 1) + i) * 0x8000) (phaseBytes d.carry) with
      | .error (.page e) => .error e
      | .error _ => .error .uncorr
      | .ok (x, wts, s) =>
        if recordCheck x (checkedHalves d.carry) ≠ field x 496 16 then .error .format
        else
          let n := id * (d.gm1 + 1) + i
          let g := restoredGang d block i x wts l.gridTs (s.rebases - Table.get 0 l.recordAge n) ((l.recordFloors.find n).getD [])
          .ok (gs ++ [g], s)) (.ok ([], s))

/-- A block of a later phase placed from its records. -/
def State.resumeBlock (s : State) (key k core id : Nat) (peers : Table Nat) (d : Descriptor) : Except Cause State :=
  let l := s.launch key
  match s.readRecords l d k id with
  | .error e => .error e
  | .ok (gangs, s) =>
    let alive := gangs.filter (fun g => g.exited != BitVec.allOnes 16)
    let b := freshBlock d core l.tenant key none id l.blocks l.ranks peers
    .ok (s.placeBlock k { b with live := maskOf (alive.map Gang.gangId), abandoned := l.abandonedIds.contains id } l.split alive)

/-- The keys of the blocks of the cluster that begins at linear id `first`, by rank: those of the first phase. -/
def Launch.peersFrom (l : Launch) (first : Nat) : Table Nat :=
  (List.range l.ranks).filterMap (fun r => (l.blockKeys.find (first + r)).map (fun k => (r, k)))

/-- Whether the host owns a line of a phase record of the listed blocks (R247). -/
def State.recordsOwned (s : State) (l : Launch) (d : Descriptor) (ids : List Nat) : Bool :=
  ids.any (fun id => (List.range (d.gm1 + 1)).any (fun i =>
    s.deviceHeld l.tenant (l.phbase + (id * (d.gm1 + 1) + i) * 0x8000) (phaseBytes d.carry)))

/-- The next unit of a later phase starts on a core or its cluster; its blocks keep their keys. -/
def State.resumeUnit (s : State) (key core : Nat) : Except Cause State :=
  let l := s.launch key
  match l.desc, l.nextUnit with
  | some d, some (i, ids) =>
    if s.recordsOwned l d ids then .ok s
    else
    match ids.foldl (fun (acc : Except Cause State) id =>
      match acc with
      | .error e => .error e
      | .ok s => s.resumeBlock key ((l.blockKeys.find id).getD 0) (l.coreOf core id) id (l.peersFrom i) d) (.ok s) with
    | .error e => .error e
    | .ok s => .ok (s.onLaunch key (fun l => { l with started := i + l.ranks }))
  | _, _ => .ok s

/-- PHASE_REDISPATCH: the next block, or cluster, of a later phase is placed on a core (R47 to R49). -/
def execPhaseRedispatch (launch core : Nat) (s : State) : Result :=
  let l := s.launch launch
  if l.phase = 0 ∨ s.launchReady launch l = false ∨ s.unitFits l core = false ∨
      s.outranked (s.launchRank l) (unitCores l.ranks [core]) = true then .next s
  else match s.resumeUnit launch core with
    | .error e => .next (s.stopLaunch launch e none)
    | .ok s => .next s

/-! ## Stalled words and network arbitration (R65, R316, R319) -/

/-- STALLED_WORD_ISSUE: a group whose word could not issue is tried again; groups that wait at REGANG are rejoined if they
now can be (R36, R65). -/
def execStalledWordIssue (core slot slice : Nat) (s : State) : Result :=
  match s.gang core slot with
  | none => .next s
  | some g =>
    match (g.groupOf slice).map Group.wait with
    | some .stalled => .next ((s.focus core slot slice).onHere (fun g => g.waitFor .ready))
    | some (.regang _) => if g.allRejoin && !g.halted then .next ((s.focus core slot slice).rejoin true) else .next s
    | _ => .next s

/-- The priority class of a packet: 3 for what R319 lists, and less for any other traffic. -/
def Traffic.cls : Traffic → Nat
  | .other c => min c 2
  | _ => 3

/-- Whether a stop is a bridge stop: one on each row ring of a die (R18). -/
def bridgeStop (stop : Nat) : Bool := stop % 8 == Config.bridgeColumn (stop / 8) % 8

/-- The next stop of the ring that leaves a stop by port 1 to 4, on the die's torus of 8 × 8 stops (R18). -/
def nextStop (stop dir : Nat) : Nat :=
  let col := stop % 8
  let row := stop / 8 % 8
  let at_ := fun (r c : Nat) => stop / 64 * 64 + r % 8 * 8 + c % 8
  match dir with
  | 1 => at_ row (col + 1)
  | 2 => at_ row (col + 7)
  | 3 => at_ (row + 1) col
  | _ => at_ (row + 7) col

/-- Whether a packet's way is one that the rings allow from a stop: along its row, then along its column, and out by the local
port or at a bridge (R18, R19). -/
def pathOk : Nat → List Nat → Bool
  | _, [] => false
  | stop, [d] => d == 0 || (d == 5 && bridgeStop stop)
  | stop, d :: e :: rest =>
    decide (1 ≤ d) && decide (d ≤ 4) && (e == d || e == 0 || e == 5 || (decide (d ≤ 2) && (e == 3 || e == 4))) &&
      pathOk (nextStop stop d) (e :: rest)

/-- The egress port that a packet wants, as 8 × stop + port. -/
def Packet.port (p : Packet) : Nat := 8 * p.stop + p.path.headD 0

/-- Buffers of a stop on the ring of a direction that hold no packet (R19). -/
def State.freeBuffers (s : State) (stop dir : Nat) : Nat :=
  Config.ringBuffers - (s.packets.filter (fun p => p.stop == stop && p.input == dir)).length

/-- Whether the bubble rule lets a packet advance: on its ring into any free buffer of the next stop, and into a ring where the
stop has two free buffers on it, and the next stop, which takes it, has one (R19). -/
def State.mayAdvance (s : State) (p : Packet) : Bool :=
  match p.path with
  | d :: _ :: _ => if p.input = d then decide (1 ≤ s.freeBuffers (nextStop p.stop d) d) 
      else decide (2 ≤ s.freeBuffers p.stop d) && decide (1 ≤ s.freeBuffers (nextStop p.stop d) d)
  | _ => true

/-- Whether one packet wins over another at a port (R319). -/
def Packet.beats (a b : Packet) : Bool :=
  let old := fun (p : Packet) => p.age == 255
  if old a || old b then old a && (!old b || decide (a.input < b.input))
  else decide (b.cls < a.cls) || (a.cls == b.cls && (decide (b.age < a.age) || (a.age == b.age && decide (a.input < b.input))))

/-- A packet is injected, its ageing counter at zero, at one of the 64 stops of a die, by the local port, or by the bridge port of
a bridge stop (R18, R319). -/
def State.addPacket (s : State) (stop input : Nat) (path : List Nat) (t : Traffic) : State :=
  if stop < 128 ∧ (input = 0 ∨ (input = 5 ∧ bridgeStop stop = true)) ∧ pathOk stop path = true then
    { s with packets := s.packets ++ [⟨stop, input, path, t.cls, 0⟩] }
  else s

/-- A packet that has won its port goes on to the next stop of its way, or leaves the network. -/
def Packet.onward (p : Packet) : List Packet :=
  match p.path with
  | d :: e :: rest => [{ p with stop := nextStop p.stop d, input := d, path := e :: rest }]
  | _ => []

/-- NETWORK_ARBITRATION: one cycle at an egress port: of the packets that compete there the winner goes on, and the others
age (R319). -/
def execNetworkArbitration (port : Nat) (s : State) : Result :=
  let competes := fun (p : Packet) => p.port == port && s.mayAdvance p
  let here := s.packets.filter competes
  match here.find? (fun p => here.all (fun q => !q.beats p)) with
  | none => .next s
  | some w => .next { s with
      packets := (s.packets.erase w).map (fun p => if competes p then { p with age := min 255 (p.age + 1) } else p) ++ w.onward }

/-! ## Pre-emption (R363 to R366) -/

/-- Whether each group of a gang stands where a save, or a teardown, may take it: between runs, in a wait or a halt, or stopped by a
fault, an SVC or a TRAP that the gang or the group has met (R355, R364). -/
def Gang.stands (g : Gang) : Bool :=
  g.groups.all (fun p => p.slices == 0 || p.run == none || (match p.wait with
    | .barwait _ _ _ _ => true
    | .grid _ => true
    | .claim _ _ => true
    | .regang _ => true
    | .halt => true
    | .held => g.stop != .none
    | _ => false) || (match g.stop with
    | .fault _ _ sl _ => sl == p.slices
    | .none => false))

/-- Whether a gang stands where a save, or a teardown, may take it, and nothing of it is in progress but its engine
commands, which stand at a granule boundary (R355, R364). -/
def State.quiet (s : State) (g : Gang) : Bool :=
  g.stands && !s.ops.any (fun o => o.gang == g.key) && !(s.core g.core).mq.any (fun o => o.block == g.block) &&
  !(s.core g.core).cmds.any (fun k => k.block == g.block && k.sent) &&
  !(s.clusterItems g.core).any (fun e => e.2.gangs.contains g.key || e.2.readers.contains g.key || e.2.writers.contains g.key)

/-- An element put before the first one that it precedes. -/
def insertBy {α : Type} (p : α → α → Bool) (x : α) : List α → List α
  | [] => [x]
  | y :: rest => if p x y then x :: y :: rest else y :: insertBy p x rest

/-- A list in the order of `p`. -/
def sortBy {α : Type} (p : α → α → Bool) (l : List α) : List α := l.foldr (insertBy p) []

/-- The resume record of a command: 128 bytes (R292).  LOW and HIGH of a scratchpad range are in the form of R164. -/
def CopyCmd.resumeRecord (k : CopyCmd) (locks : List RangeLock) : BitVec 1024 :=
  let mine := (locks.filter (fun l => l.cmd == k.id)).take 3
  let place := fun (l : RangeLock) (a : Nat) => if l.scratch then 2 ^ 63 + a % 2 ^ 20 else a % 2 ^ 64
  BitVec.ofNat 1024 (k.ctl % 2 ^ 64 + k.drec % 2 ^ 64 * 2 ^ 64 + k.srec % 2 ^ 64 * 2 ^ 128 +
    (k.kind % 16 + k.flag.getD 15 % 16 * 2 ^ 4 + k.gangId % 16 * 2 ^ 8 + k.next % 2 ^ 32 * 2 ^ 32) * 2 ^ 192 +
    (k.ats % 2 ^ 32 + k.pts % 2 ^ 32 * 2 ^ 32) * 2 ^ 256 +
    (mine.mapIdx (fun r l => place l l.low * 2 ^ (8 * (0x28 + 16 * r)) + place l (l.high - 1) * 2 ^ (8 * (0x30 + 16 * r)) +
      l.kind % 4 * 2 ^ (8 * 0x58 + 2 * r))).foldl (· + ·) 0)

/-- A block saved with its gangs (R364, R366). -/
def State.saveBlock (s : State) (area key : Nat) : State :=
  match s.blocks.find key with
  | none => s
  | some b =>
    let s := (s.arrivals.filter (fun a => a.block == key)).foldl (fun s a =>
      { s with arrivals := s.arrivals.erase a }.arriveAt (.block key) a.offset 1 a.wts (4 + if a.rebase then 256 else 0)) s
    let gangs := sortBy (fun a b => decide (a.gangId ≤ b.gangId)) (s.gangsOf key)
    let c := s.core b.core
    let pending := gangs.filter (fun g => s.isPending b.core g.slot)
    let cmds := c.cmds.filter (fun k => k.block == key)
    let entry : SavedBlock :=
      { key := key, area := area, block := s.block key, gangs := gangs, cmds := cmds
        records := cmds.map (fun k => k.resumeRecord c.locks), locks := c.locks.filter (fun l => c.cmds.any (fun k => k.block == key && k.id == l.cmd)), slots := c.slots
        mailbox := pending.map (fun g => (g.gangId, s.sread (.supervisor b.core) (128 * g.slot) 128))
        watches := (s.watches.filter (fun w => w.block == key)).map (fun w => (w.line, w.offset)) }
    let s := pending.foldl (fun s g => s.clearPending b.core g.slot) s
    let s := gangs.foldl (fun s g => s.dropGang g.core g.slot) (s.dropWatches key)
    let c := s.core b.core
    let s := s.setCore b.core { c with
      cmds := c.cmds.filter (fun k => k.block != key)
      locks := c.locks.filter (fun l => !entry.locks.contains l) }
    ({ s with saved := s.saved ++ [entry], blocks := s.blocks.erase key }.ungate b.core).leaveCore b.core

/-- Keys of blocks in decreasing linear id. -/
def decreasing (l : List (Nat × Block)) : List Nat := (sortBy (fun a b => decide (b.2.linear ≤ a.2.linear)) l).map Prod.fst

/-- PREEMPT_SAVE: once every group and engine of the set stands quiet, its blocks are saved (R363, R364). -/
def execPreemptSave (s : State) : Result :=
  match s.preempt with
  | none => .next s
  | some p =>
    let set := s.blocks.filter (fun e => !e.2.ended && s.inSet e.1)
    if p.restore || !set.all (fun e => (s.gangsOf e.1).all s.quiet && !(s.core e.2.core).mq.any (fun o => o.block == e.1) &&
        !(s.core e.2.core).cmds.any (fun k => k.block == e.1 && k.sent)) then .next s
    else
      let s := (decreasing set).foldl (fun s k => s.saveBlock p.core k) s
      let q := (s.cycle - p.since) % 2 ^ 32
      .next { s.setPriv 0xE01 (BitVec.ofNat 64 ((s.privReg 0xE01).toNat % 4 + q * 2 ^ 16)) with preempt := none }

/-- What a saved block needs of a core. -/
def SavedBlock.need (b : SavedBlock) : Need :=
  ⟨b.gangs.length, b.gangs.foldl (fun n g => n + g.granules) 0, pages4k b.block.scratchSize, b.block.accCount⟩

/-- Whether a saved block can stand on a core now, with its engine commands and their ranges (R15, R30, R277, R303). -/
def State.savedFits (s : State) (b : SavedBlock) (core : Nat) : Bool :=
  let l := s.launch b.block.launch
  let where_ := match b.block.job with
    | none => bitOf (l.ephReg 4) (core / 4)
    | some j => ((s.jobs.find j).map (fun j => j.cluster == core / 4)).getD false
  let split := if b.block.launch = 0 then
      (if (s.residents core).isEmpty then (b.block.scratchSize + 131071) / 131072 else (s.core core).split)
    else l.split
  where_ && s.canTake b.block.tenant split core b.need && decide ((s.core core).cmds.length + b.cmds.length ≤ 64) &&
    decide ((s.core core).locks.length + b.locks.length ≤ 64)

/-- A group that waits notes the restore (R334, R366). -/
def Group.noteRestore (p : Group) : Group := if p.parked then { p with why := p.why ||| 512 } else p

/-- A gang at its restore: its rebases are taken, and WAKEWHY.RESTORE tells of a wait (R242, R366). -/
def Gang.restored (g : Gang) : Gang :=
  let waits := g.groups.any Group.parked
  { g.payRebases with
    grp := g.grp.noteRestore, parted := g.parted.map Group.noteRestore
    wakewhy := if waits then g.wakewhy ||| 512 else g.wakewhy }

/-- The cause with which a launch is being stopped (R312). -/
def Launch.stopCause (l : Launch) : Cause :=
  ([Cause.xlate, .perm, .uncorr].find? (fun c => some c.code == l.stopping)).getD .format

/-- A saved block restored to a core (R292, R336, R366); a gang whose saved state holds poison is killed
(R401), and so is one of a launch that is being stopped (R312).  The B slots that were valid at the save take the place of the core's,
and the core keeps its others (DESIGN CHOICE, log entry 80). -/
def State.restoreBlock (s : State) (b : SavedBlock) (core : Nat) : State :=
  let l := s.launch b.block.launch
  let split := if b.block.launch = 0 then
      (if (s.residents core).isEmpty then (b.block.scratchSize + 131071) / 131072 else (s.core core).split)
    else l.split
  let s := { s with saved := s.saved.filter (fun x => x.key != b.key) }
  let s := s.placeBlock b.key { b.block with core := core } split (b.gangs.map Gang.restored)
  let slotOf := fun (i : Nat) => ((s.gangsOf b.key).find? (fun g => g.gangId == i)).map Gang.slot
  let c := s.core core
  let s := s.setCore core { c with
    cmds := c.cmds ++ b.cmds.map (fun k => { k with slot := (slotOf k.gangId).getD k.slot, started := false })
    locks := c.locks ++ b.locks
    slots := b.slots.foldl (fun t e => t.insert e.1 e.2) c.slots }
  let s := b.mailbox.foldl (fun s e => match slotOf e.1 with
    | none => s
    | some n =>
      let s := (s.swrite (.supervisor core) (128 * n) 128 e.2).ringDoorbell core
      let c := s.core core
      s.setCore core { c with pendingSince := c.pendingSince.insert n s.mgmt.time }) s
  let s := b.watches.foldl (fun s w => s.arriveAt (.block b.key) w.2 1 (s.home w.1).wts 4) s
  let s := (s.ungate core).gridTest b.block.launch
  let s := b.lost.foldl (fun s i => match (s.gangsOf b.key).find? (fun g => g.gangId == i) with
    | none => s
    | some g => s.kill core g.slot { cause := .uncorr, kind := 0, pc := g.wordPc, index := g.wordIndex }) s
  match l.stopping with
  | none => s
  | some _ => (s.gangsOf b.key).foldl (fun s g => (s.killOne g.core g.slot { cause := l.stopCause, kind := 1, pc := g.runPc }).1) s

/-- The blocks of one cluster among saved blocks, lowest first. -/
def SavedBlock.unit (b : SavedBlock) (all : List SavedBlock) : List SavedBlock :=
  all.filter (fun x => x.block.kernel == b.block.kernel && x.block.linear - x.block.rank == b.block.linear - b.block.rank)

/-- A core on which a unit of saved blocks can stand whole now, the listed cores tried first. -/
def State.coreForUnit (s : State) (unit : List SavedBlock) (prefs : List Nat) : Option Nat :=
  (prefs ++ List.range 256).find? (fun c => unit.all (fun b =>
    s.savedFits b (if b.block.ranks = 1 then c else 4 * (c / 4) + b.block.rank)))

/-- Saved blocks restored in increasing linear id: within each grid or task the restore stops at the first block, or
cluster, that cannot be placed, or that comes after one saved in another area (R51, R363). -/
def State.restoreAll (s : State) (prefs : List Nat) : List SavedBlock → State
  | [] => s
  | b :: rest =>
    let unit := b.unit (s.saved.filter (fun x => x.area == b.area))
    let behind := s.saved.any (fun x => x.block.kernel == b.block.kernel && decide (x.block.linear < b.block.linear - b.block.rank))
    if !s.saved.any (fun x => x.key == b.key) || behind then s.restoreAll prefs rest
    else match s.coreForUnit unit prefs with
      | none => s.restoreAll prefs rest
      | some c =>
        (unit.foldl (fun s x => s.restoreBlock x (if x.block.ranks = 1 then c else 4 * (c / 4) + x.block.rank)) s).restoreAll prefs rest

/-- PREEMPT_RESTORE: the saved blocks of the tenant in the named core's save area are restored as far as there is room
(R363, R366). -/
def execPreemptRestore (prefs : List Nat) (s : State) : Result :=
  match s.preempt with
  | none => .next s
  | some p =>
    if !p.restore then .next s
    else
      let mine := fun (s : State) => s.saved.filter (fun b => b.area == p.core && b.block.tenant == p.tenant)
      let s := s.restoreAll prefs (sortBy (fun a b => decide (a.block.linear ≤ b.block.linear)) (mine s))
      let old := (s.privReg 0xE01).toNat
      .next { s.setPriv 0xE01 (BitVec.ofNat 64 (old / 4 * 4 + old % 2 + if (mine s).isEmpty then 0 else 2)) with preempt := none }

/-! ## Teardown (R355) -/

/-- A launch that a teardown ends gets its completion record with STATUS ABORTED; one still queued is read for it
(R302, R448). -/
def State.abortLaunch (s : State) (key : Nat) : State :=
  let l := s.launch key
  match l.stage with
  | .complete => s
  | .running => (s.onLaunch key (fun l => { l with aborted := true })).endLaunch key
  | .queued =>
    match s.readTenant l.tenant 0 l.record 64 with
    | .error (.page c) => s.loseLaunch key l c l.record
    | .error _ => s.loseLaunch key l .uncorr l.record
    | .ok (x, _, s) =>
      let l := parseRecord x l
      ((s.setLaunch key { l with stage := .complete, status := 5 }).clearArenas l).putCompletion l.tenant l.cpl l.lid 1 (completionBits 5 0 l.lid 0 0 0 0 0)

/-- A block of a tenant torn down: its gangs are removed where they stand, their mailbox entries cleared, and nothing is
reported (R355, R396). -/
def State.tearBlock (s : State) (key : Nat) : State :=
  let b := s.block key
  let gangs := s.gangsOf key
  let s := gangs.foldl (fun s g =>
    ((if s.isPending g.core g.slot then s.clearPending g.core g.slot else s).dropGang g.core g.slot).onLaunch b.launch
      (fun l => { l with largest := max l.largest g.ptsNow })) s
  let s := (s.releaseBlock key).dropWatches key
  let c := s.core b.core
  let cmds := c.cmds.filter (fun k => k.block == key)
  let c := cmds.foldl (fun (c : Core) k => c.unlock k.id) { c with cmds := c.cmds.filter (fun k => k.block != key) }
  let s := s.setCore b.core c
  ({ s with blocks := s.blocks.insert key { b with ended := true, accs := [], accCount := 0 } }).leaveCore b.core

/-- Mailbox entries of killed gangs of a tenant cleared, by the TENANT field of their records (R355). -/
def State.clearTenantMail (s : State) (t : Nat) : State :=
  s.cores.foldl (fun s e => (List.range 48).foldl (fun s n =>
    if s.isPending e.1 n && s.sread (.supervisor e.1) (128 * n + 1) 1 % 16 == t then s.clearPending e.1 n else s) s) s

/-- Whether the host owns a line that the end of a tenant's launches needs: of a record still queued, of the arena table or a
coverage map, or of a page table on the way (R247). -/
def State.teardownWaits (s : State) (t : Nat) : Bool :=
  s.arenaOwned t || s.launches.any (fun e => e.2.tenant == t && (match e.2.stage with
    | .queued => s.deviceHeld t e.2.record 64
    | .running => s.endWaits e.2
    | .complete => false)) || s.jobs.any (fun e => e.2.tenant == t && e.2.doneMark.isSome && s.counterWaits e.2)

/-- The PTS of the gangs of a tenant's saved blocks counted in their launches (R302): a teardown ends those gangs. -/
def State.countSaved (s : State) (t : Nat) : State :=
  (s.saved.filter (fun b => b.block.tenant == t)).foldl (fun s b => s.onLaunch b.block.launch (fun l =>
    { l with largest := b.gangs.foldl (fun n g => max n g.ptsNow) l.largest })) s

/-- TEARDOWN_COMPLETE: once every block of the tenant stands quiet and its stores are home, the rest of the teardown is
made and STATE becomes OFF (R355). -/
def execTeardownComplete (t : Nat) (s : State) : Result :=
  let mine := s.blocks.filter (fun e => e.2.tenant == t && !e.2.ended)
  let keys := (s.launches.filter (fun e => e.2.tenant == t && e.2.stage != .complete)).map Prod.fst
  if s.tenantState t ≠ 3 ∨ mine.all (fun e => (s.gangsOf e.1).all s.quiet && !(s.core e.2.core).mq.any (fun o => o.block == e.1) &&
      !(s.core e.2.core).cmds.any (fun k => k.block == e.1 && k.sent)) = false ∨ keys.all s.storesDone = false ∨
      s.teardownWaits t = true ∨ s.mgmt.error ≠ none then .next s
  else
    let s := ((s.jobs.filter (fun e => e.2.tenant == t)).map Prod.fst).foldl State.finishJob s
    let s := mine.foldl (fun s e => s.tearBlock e.1) (s.countSaved t)
    let s := { s.clearTenantMail t with saved := s.saved.filter (fun b => b.block.tenant != t) }
    let s := keys.foldl State.abortLaunch s
    let s := { s with
      jobs := s.jobs.filter (fun e => e.2.tenant != t)
      ringOut := Table.set 0 s.ringOut t (Table.get 0 s.ringIn t)
      ringStopped := s.ringStopped.filter (fun x => x != t) }
    let s := (s.scrubUmbra t).setPriv (tenantIndex t 1) 0
    let off := (List.range 16).all (fun t => s.tenantState t == 0)
    .next (if off then { s with mgmt := { s.mgmt with offSince := s.mgmt.time } } else s)

end Sys2Proof.Machine
end

