-- ==== Sys2Proof/Machine/Time.lean ====
section
/-! DEFINITION. Time: cycles of the running clock and counts of the fixed reference (R11, R412, R413, R417). -/

namespace Sys2Proof.Machine

/-- Reference counts of one cycle at a clock step, in units of a 21st of a count (R412, R413). -/
def countsPerCycle (step : Nat) : Nat :=
  match step with
  | 0 => 21
  | 1 => 24
  | 2 => 28
  | 3 => 42
  | _ => 84

/-- The reference time in counts since reset (R413). -/
def State.counts (s : State) : Nat := s.mgmt.time / 21

/-- A core when `n` cycles pass: its counters of cycles count, and a counter written in the cycle before counts again (R417). -/
def Core.elapse (n : Nat) (c : Core) : Core :=
  if n = 0 then c else { c with evc := countTable [] (if c.gated then 2 else 1) n c.evc, evcSet := [] }

/-- `n` cycles pass: the cycle count, the reference time, and the counters of cycles (R417). -/
def State.elapse (s : State) (n : Nat) : State :=
  let below : Bool := s.mgmt.step != 0
  let s := { s with
    cycle := s.cycle + n
    mgmt := { s.mgmt with time := s.mgmt.time + n * countsPerCycle s.mgmt.step }
    cores := s.cores.map (fun e => (e.1, e.2.elapse n)) }
  if below then (s.countDie 0 15 n).countDie 1 15 n else s

/-- WSTIME.PHASE: the cycle within the calendar period (R199). -/
def State.phase (s : State) : Nat := s.cycle % 65536

/-- Whether a bank of the weight store is unavailable (R199). -/
def State.bankClosed (s : State) (bank : Nat) : Bool := s.phase / 1024 == bank

end Sys2Proof.Machine
end

