-- ==== Sys2Proof/Machine/Shape.lean ====
section
/-! DEFINITION. Shape records and the elements they describe (R162 to R165), read by the matrix engine and the
copy engine (R179, R244, R289). -/

namespace Sys2Proof.Machine

/-! ## Records (R162, R164, R165) -/

/-- shape_check of R165 over the halfwords of a record. -/
def shapeCheck (x : Nat) : Nat := (List.range 28).foldl (fun c h => rotateLeft 16 c 1 ^^^ field x (16 * h) 16) 0x5A5A

/-- The shape that the 64 bytes of a valid record hold (R162, R165). -/
def parseShape (x : Nat) : Option Shape :=
  let sh : Shape :=
    { base := field x 0 64, rows := field x 64 16, cols := field x 80 16, fmt := field x 96 8, space := field x 104 2
      hdrrec := bitOf x 106, geom := field x 112 8, rstride := signedOf 32 (field x 128 32), estride := field x 160 16
      sbase := field x 192 64, spitch := field x 256 32, row0 := field x 288 16, col0 := field x 304 16
      key := field x 320 64 }
  let reserved := field x 107 5 + field x 120 8 + field x 176 16 + field x 384 64 + field x 464 48
  if reserved = 0 ∧ 1 ≤ sh.rows ∧ 1 ≤ sh.cols ∧ 1 ≤ sh.estride ∧ sh.fmt ≤ 17 ∧ sh.space ≤ 2 ∧
      (sh.geom = 0 ∨ sh.geom = 16 ∨ sh.geom = 32) ∧ field x 448 16 = shapeCheck x then some sh
  else none

/-- Whether a shape's format is scaled (R98). -/
def Shape.scaled (sh : Shape) : Bool := sh.fmt == 6 || sh.fmt == 7

/-- GEOM as R163 asks: a geometry for a scaled format, 0 for any other. -/
def Shape.geomOk (sh : Shape) : Bool := if sh.scaled then sh.geom != 0 else sh.geom == 0

/-- The bits of an element. -/
def Shape.width (sh : Shape) : Nat := codeWidth sh.fmt

/-- The bytes that hold an element. -/
def Shape.elemBytes (sh : Shape) : Nat := (sh.width + 7) / 8

/-- The first byte of element (i, j), and the bit of it at which the element begins (R163). -/
def Shape.place (sh : Shape) (i j : Nat) : Int × Nat :=
  let row : Int := (sh.base : Int) + (i : Int) * sh.rstride
  let n := j * sh.estride
  if sh.width = 4 then (row + (n / 2 : Nat), 4 * (n % 2)) else (row + (n * (sh.width / 8) : Nat), 0)

/-- The block offsets of element (i, j) (R163). -/
def Shape.blockOf (sh : Shape) (i j : Nat) : Nat × Nat :=
  ((sh.row0 + i) / sh.geom - sh.row0 / sh.geom, (sh.col0 + j) / sh.geom - sh.col0 / sh.geom)

/-- The first byte of the record, or of the tile header, of the block at given offsets (R163). -/
def Shape.recordPlace (sh : Shape) (b : Nat × Nat) : Nat :=
  sh.sbase + b.1 * sh.spitch + b.2 * (if sh.hdrrec then 64 else 8)

/-- What is wrong with a record address, by the three tests of R164 in their order. -/
def State.recordFault (s : State) (g : Gang) (v : Nat) : Option Cause :=
  let scratch := bitOf v 63
  if (if scratch then field v 20 43 else field v 49 14) ≠ 0 then some .shape
  else if v % 64 ≠ 0 then some .misalign
  else if scratch && decide (s.carveSize g.carve < field v 0 20 + 64) then some .shape
  else none

/-! ## Reading (R179, R183, R399) -/

/-- Who reads: an engine of a core on behalf of a gang. -/
structure Reader where
  core : Nat
  tenant : Nat
  carve : Carve
  /-- its global addresses are physical (R359) -/
  physical : Bool
  ats : Nat
  floors : Table Nat
  /-- weak loads (R244) -/
  weak : Bool := false
  /-- the operation or command that reads -/
  id : Nat := 0
  /-- the gang whose loads these are, by key; none for reads of a copy, which change no clock (R179, R244, R289) -/
  gang : Option Nat := none
  deriving DecidableEq, Repr

/-- What stops a read: poison is consumed (R399), a fault with its address, or the wait for another device's answer. -/
inductive ReadStop where
  | poison
  | waits
  | fault (c : Cause) (addr : Nat)
  deriving DecidableEq, Repr

/-- A read in progress: the state with the copies it installs, and the largest wts it has met. -/
structure Scan where
  s : State
  wts : Nat := 0
  /-- by line, the wts that the gang has loaded there (R238) -/
  seen : Table Nat := []
  /-- another device has refused a read -/
  gone : Bool := false

/-- SHAPE, which has no address. -/
def ReadStop.shape : ReadStop := .fault .shape 0

/-- A global address of a reader translated. -/
def Reader.translate (r : Reader) (s : State) (va : Nat) (kind : AccessKind) : Except Cause Nat :=
  if r.physical then s.translatePhysical va else s.translateTenant r.core r.tenant va kind

/-- The TLB of the reader's core filled for an address. -/
def Reader.fill (r : Reader) (s : State) (va : Nat) : State := if r.physical then s else s.fillTlb r.core r.tenant va

/-- Whether an earlier access of the reader's gang to a line must be done first (R238, R266). -/
def Reader.behind (r : Reader) (s : State) (line : Nat) : Bool :=
  match r.gang with
  | none => false
  | some k => s.ops.any (fun p => p.gang == k && decide (p.id < r.id) && p.lines.contains line && !p.pastLine line)

/-- A line of global memory as the reader loads it: as a relaxed load, or as a weak load, which uses whatever copy is
nearest, or the home's line without a lease, and installs nothing (R179, R233, R244).  Without a copy that it may use, the
reader waits while the host owns the line (R247).  A gang's load notes what it has seen (R234, R238). -/
def Reader.line (r : Reader) (sc : Scan) (line : Nat) : Except ReadStop (LineData × Scan) :=
  let held := sc.s.usable r.core line r.weak false r.ats (Table.get 0 r.floors line) none
  if (held.isNone && sc.s.hostOwns line) || r.behind sc.s line then .error .waits
  else if r.weak then
    let (c, s) : Copy × State := match held with
      | some (c, _) => (c, sc.s)
      | none => ((sc.s.homeCopy line).copy, sc.s.setHome line (sc.s.home line))
    .ok (⟨c.wts, c.rts, s.seenLine r.core line c.wts c.data, c.tag, c.poison || s.seenPoison r.core line c.wts⟩, { sc with s := s })
  else
    let (d, s) := sc.s.loadLine r.core line r.ats r.floors
    match r.gang with
    | none => .ok (d, { sc with s := s })
    | some k => .ok (d, { sc with s := s.noteReader r.core line d.wts k, wts := max sc.wts d.wts, seen := sc.seen.insert line d.wts })

/-- What stops a read whose address does not translate: poison in a page table is consumed (R391; log entry 73). -/
def ReadStop.of (c : Cause) (va : Nat) : ReadStop := if c = .uncorr then .poison else .fault c va

/-- Whether a walk for an address of the reader waits for the host (R247). -/
def Reader.walkWaits (r : Reader) (s : State) (va : Nat) : Bool :=
  !r.physical && ((s.core r.core).tlb.find (tlbKey r.tenant va)).isNone &&
    ((s.cluster (r.core / 4)).tlb.find (tlbKey r.tenant va)).isNone && s.walkHeld r.tenant va

/-- What a gang has loaded in a scan: its PTS and its floors rise (R179, R231, R238), and it notes that another device did not
answer. -/
def Gang.scanned (g : Gang) (sc : Scan) : Gang :=
  let g := sc.seen.foldl (fun (g : Gang) e => g.raiseFloor e.1 e.2) (g.raisePts sc.wts)
  if sc.gone then g.peerEvent else g

/-- One byte of global memory, with the tag of its line. -/
def Reader.globalByte (r : Reader) (sc : Scan) (a : Int) : Except ReadStop ((Nat × Option Tag) × Scan) :=
  let va := wrapTo 64 a
  if r.walkWaits sc.s va then .error .waits
  else
  let s := r.fill sc.s va
  match r.translate s va .load with
  | .error c => .error (.of c va)
  | .ok pa =>
    if regionOf pa = .peer then
      match s.peerData.find? (fun d => d.op == r.id && d.line == pa / 64) with
      | none => .error .waits
      | some d =>
        if d.poison then .error .poison
        else .ok ((if d.refused then 0 else lineField d.data (pa % 64) 1, none), { sc with s := s, gone := sc.gone || d.refused })
    else match r.line { sc with s := s } (pa / 64) with
      | .error e => .error e
      | .ok (d, sc) => if d.poison then .error .poison else .ok ((lineField d.data (pa % 64) 1, d.tag), sc)

/-- Whether bytes lie in a carve-out (R163, R178). -/
def State.inCarve (s : State) (c : Carve) (a : Int) (n : Nat) : Bool := decide (0 ≤ a) && decide (a + n ≤ s.carveSize c)

/-- One byte of a carve-out. -/
def carveByte (c : Carve) (sc : Scan) (a : Int) : Except ReadStop ((Nat × Option Tag) × Scan) :=
  if !sc.s.inCarve c a 1 then .error .shape
  else if sc.s.scratchPoisoned c (a.toNat / 4) then .error .poison
  else .ok (((sc.s.sbyte c a.toNat).toNat, none), sc)

/-- Whether a weight-store address lies in a tenant's partition (R183, R353). -/
def State.inPartition (s : State) (tenant : Nat) (a : Int) : Bool :=
  let first := field (s.tenantReg tenant 9) 0 5
  let count := field (s.tenantReg tenant 9) 5 6
  decide ((first * 2 ^ 26 : Nat) ≤ a) && decide (a < ((first + count) * 2 ^ 26 : Nat))

/-- One byte of the weight store (R183, R197). -/
def Reader.weightByte (r : Reader) (sc : Scan) (a : Int) : Except ReadStop ((Nat × Option Tag) × Scan) :=
  if !sc.s.inPartition r.tenant a then .error (.fault .perm (wrapTo 64 a))
  else if sc.s.wsPoison.contains (a.toNat / 64) then .error .poison
  else .ok (((Table.get 0 sc.s.ws a.toNat).toNat, none), sc)

/-- One byte in a space (R162). -/
def Reader.byte (r : Reader) (sc : Scan) (space : Nat) (a : Int) : Except ReadStop ((Nat × Option Tag) × Scan) :=
  match space with
  | 0 => r.globalByte sc a
  | 1 => carveByte r.carve sc a
  | _ => r.weightByte sc a

/-- `n` bytes as a little-endian number, with the tag of the line of the first. -/
def Reader.bytes (r : Reader) (sc : Scan) (space : Nat) (a : Int) : Nat → Except ReadStop ((Nat × Option Tag) × Scan)
  | 0 => .ok ((0, none), sc)
  | n + 1 => do
    let ((b, tag), sc) ← r.byte sc space a
    let ((x, _), sc) ← r.bytes sc space (a + 1) n
    return ((b + 256 * x, tag), sc)

/-- The 64 bytes at a record address (R164). -/
def Reader.record (r : Reader) (sc : Scan) (v : Nat) : Except ReadStop (Nat × Scan) := do
  let ((x, _), sc) ← r.bytes sc (if bitOf v 63 then 1 else 0) (field v 0 (if bitOf v 63 then 20 else 49) : Nat) 64
  return (x, sc)

/-- A shape record read and checked (R165). -/
def Reader.shape (r : Reader) (sc : Scan) (v : Nat) : Except ReadStop (Shape × Scan) := do
  let (x, sc) ← r.record sc v
  match parseShape x with
  | some sh => return (sh, sc)
  | none => .error .shape

/-! ## Elements -/

/-- An element as stored: its bits, and the record of its block. -/
structure Elem where
  bits : Nat
  rec_ : Word64
  deriving DecidableEq, Repr

/-- The RECORD of the tile header at a place: all 64 bytes lie in the carve-out (R163), and FMT is 6 or 7 (R98). -/
def Reader.headerRecord (r : Reader) (sc : Scan) (space : Nat) (a : Int) : Except ReadStop (Nat × Scan) :=
  if space = 1 && !sc.s.inCarve r.carve a 64 then .error .shape
  else do
    let ((x, _), sc) ← r.bytes sc space a 16
    if field x 64 5 = 6 ∨ field x 64 5 = 7 then return (field x 0 64, sc) else .error (.fault .format 0)

/-- The block record of an element, from the tag of its line where it has one (R163, R104, R106): whether a window is on now does
not count, only the tag that the line brought (log entry 77). -/
def Reader.blockRecord (r : Reader) (sc : Scan) (sh : Shape) (i j : Nat) (tag : Option Tag) (grid : Bool) : Except ReadStop (Word64 × Scan) := do
  let (rec_, sc) ← (match tag with
    | some t => if (if t.geom = 1 then 32 else 16) = sh.geom then Except.ok (t.record, sc) else .error (.fault .format 0)
    | none => do
      let (x, sc) ← (if sh.hdrrec then r.headerRecord sc sh.space (sh.recordPlace (sh.blockOf i j) : Nat)
        else do
          let ((x, _), sc) ← r.bytes sc sh.space (sh.recordPlace (sh.blockOf i j) : Nat) 8
          return (x, sc) : Except ReadStop (Nat × Scan))
      return (BitVec.ofNat 64 x, sc) : Except ReadStop (Word64 × Scan))
  if recordOk rec_ && (!grid || specialOnGrid rec_) then return (rec_, sc) else .error (.fault .format 0)

/-- Element (i, j) of a shape; `grid` asks for a SPECIAL that the matrix path accepts (R106). -/
def Reader.elem (r : Reader) (sc : Scan) (sh : Shape) (grid : Bool) (i j : Nat) : Except ReadStop (Elem × Scan) := do
  let (a, lo) := sh.place i j
  let ((x, tag), sc) ← r.bytes sc sh.space a sh.elemBytes
  if sh.scaled then
    let (rec_, sc) ← r.blockRecord sc sh i j tag grid
    return (⟨field x lo sh.width, rec_⟩, sc)
  else return (⟨field x lo sh.width, unitRecord⟩, sc)

/-- The elements of rows `i0` to `i0 + n - 1` and columns `j0` to `j0 + m - 1`, row by row in increasing column, each
with its coordinates less (i0, j0). -/
def Reader.elems (r : Reader) (sc : Scan) (sh : Shape) (grid : Bool) (i0 n j0 m : Nat) : Except ReadStop (List (Nat × Nat × Elem) × Scan) :=
  (List.range n).foldlM (fun acc i => (List.range m).foldlM (fun (acc : List (Nat × Nat × Elem) × Scan) j => do
    let (e, sc) ← r.elem acc.2 sh grid (i0 + i) (j0 + j)
    return (acc.1 ++ [(i, j, e)], sc)) acc) ([], sc)

/-! ## Ranges (R179, R283) -/

/-- The least and the greatest first byte of the elements of a shape: they lie at its corners. -/
def Shape.corners (sh : Shape) : List Int :=
  [(sh.place 0 0).1, (sh.place (sh.rows - 1) 0).1, (sh.place 0 (sh.cols - 1)).1, (sh.place (sh.rows - 1) (sh.cols - 1)).1]

/-- The bounding byte range of a shape's elements, from its low byte up to but not including its high one. -/
def Shape.range (sh : Shape) : Int × Int :=
  let lo := sh.corners.foldl min (sh.corners.headD 0)
  let hi := sh.corners.foldl max (sh.corners.headD 0)
  (lo, hi + sh.elemBytes)

/-- The owner of the ranges that a reader registers in a space (R284).  A weight-store range belongs to owner 17: no thread
access meets it. -/
def Reader.lockOwner (r : Reader) (space : Nat) : Nat :=
  if space = 1 then r.carve.key else if space = 2 then 17 else if r.physical then 16 else r.tenant

/-- A registered range of a shape (R283). -/
def Reader.lock (r : Reader) (sh : Shape) (cmd kind : Nat) : RangeLock :=
  { cmd := cmd, kind := kind, scratch := sh.space == 1, owner := r.lockOwner sh.space
    low := sh.range.1.toNat, high := sh.range.2.toNat }

/-- Entries of the range-lock table (R283). -/
def lockEntries : Nat := 64

end Sys2Proof.Machine
end

