-- ==== Sys2Proof/Machine/Matrix.lean ====
section
/-! DEFINITION. The matrix queue (07_matrix_engine.md): MMA, the MTXLD and ACC forms, and the steps by which their
operations start, stage, run their planes, add and complete. -/

namespace Sys2Proof.Machine

/-! ## Entering the queue (R177, R181, R365) -/

/-- Entries of a slot list or table: descriptors of the leading valid entries, or none where a valid entry follows an
invalid one or none is valid (R182, R200). -/
def slotList (x n : Nat) : Option (List Nat) :=
  let es := (List.range n).map (fun j => field x (8 * j) 8)
  let lead := es.takeWhile (fun e => bitOf e 7)
  if lead.isEmpty || (es.drop lead.length).any (fun e => bitOf e 7) then none else some (lead.map (fun e => e % 128))

/-- The key of a B slot in `Core.slots`. -/
def slotKey (desc : Nat) : Nat := 8 * (desc % 8) + desc / 8 % 8

/-- The macro of a descriptor. -/
def macroOf (desc : Nat) : Nat := desc % 8

/-- Whether an operation multiplies. -/
def MatOp.multiplies (o : MatOp) : Bool :=
  match o.kind with
  | .mma _ _ _ => true
  | .dmma _ => true
  | _ => false

/-- Whether an operation is a DMMA or DREFRESH. -/
def MatOp.isDelta (o : MatOp) : Bool :=
  match o.kind with
  | .dmma _ => true
  | _ => false

/-- The accumulator tile that an operation names. -/
def MatOp.tile (o : MatOp) : Option (Nat × Nat) :=
  match o.kind with
  | .wload _ => none
  | .wclr => none
  | .mcomp _ => none
  | _ => some (o.block, o.target)

/-- The B slot that an operation writes. -/
def MatOp.writesSlot (o : MatOp) : Option Nat := if o.tile.isNone then some (slotKey o.target) else none

/-- The descriptors of the slots that an operation reads, where they are known. -/
def MatOp.slotsRead (o : MatOp) : Option (List Nat) :=
  if !o.multiplies then some []
  else if o.started then some (o.steps.map KStep.desc)
  else match o.kind with
    | .mma _ _ _ => some ((slotList o.list 8).getD [])
    | _ => none

/-- The worst-case cost of an operation on a macro (R365); before it starts its format counts as the widest, and a
DMMA as 32 K-steps on every macro (log entry 30). -/
def MatOp.costOn (o : MatOp) (m : Nat) : Nat :=
  if !o.multiplies then 0
  else
    let pm := if o.started then ((o.shape.bind (fun sh => planesOf sh.fmt)).getD 13) else 13
    let n := match o.slotsRead with
      | some l => (l.filter (fun d => macroOf d == m)).length
      | none => 32
    if n = 0 then 0 else n * (16 * (pm + 2)) + 12

/-- Whether the queue of a core takes one more operation now: 32 at most, and the bound of R365 on every macro. -/
def Core.admits (c : Core) (o : MatOp) : Bool :=
  decide (c.mq.length < 32) &&
    (List.range 8).all (fun m => decide ((c.mq ++ [o]).foldl (fun n p => n + p.costOn m) 0 ≤ 24576))

/-- A new operation of the gang on the pipe. -/
def State.newMatOp (s : State) (kind : MatKind) (target record list : Nat) (flag : Option Nat) : MatOp :=
  let g := s.here
  { id := s.nextId, slot := g.slot, block := g.block, gangId := g.gangId, kind := kind, target := target, record := record
    list := list, layer := g.layer.toNat, narrow := g.narrow, seed := g.seed, mode := g.firstMode, flag := flag
    pts := g.ptsNow, pc := g.wordPc, word := s.wordHere, index := g.wordIndex, slice := g.members.headD 0 }

/-- A matrix word: its R81 causes; a full flag or queue holds it; then its own precise causes, given by `check`, and it
enters the queue. -/
def State.matrixWord (s : State) (dem : Demand) (kind : MatKind) (check : State → Option (Cause × Nat)) (target record list : Nat) : Result :=
  s.issue dem (fun s =>
    let g := s.here
    let o := s.newMatOp kind target record list (flagOf dem.flag)
    let c := s.core g.core
    match check s with
    | some (cause, addr) => s.precise cause addr
    | none =>
      if g.flagFull dem.flag || !c.admits o then s.stall
      else
        let s := s.setCore g.core { c with mq := c.mq ++ [o] }
        ({ s with nextId := s.nextId + 1 }.onHere (fun g => g.raiseFlag o.flag)).done)

/-- The precise causes of a tile number: SHAPE from ACCS on (R169). -/
def State.tileFault (s : State) (n : Nat) : Option (Cause × Nat) :=
  if (s.block s.here.block).accCount ≤ n then some (.shape, 0) else none

/-- The precise causes of a record address (R164). -/
def State.recordFaultAt (s : State) (v : Nat) : Option (Cause × Nat) :=
  (s.recordFault s.here v).map (fun c => (c, if c = .misalign then v else 0))

/-- MMA (R182). -/
def execMma (c : BitVec 5) (a b : BitVec 6) (n t sp : BitVec 1) (f : BitVec 4) (s : State) : Result :=
  let va := (s.here.uniformS a.toNat).toNat
  let vb := (s.here.uniformS b.toNat).toNat
  s.matrixWord { s.here.uniformDemand [a, b] with flag := f } (.mma (n == 1) (t == 1) (sp == 1))
    (fun s =>
      if (slotList vb 8).isNone then some (.shape, 0)
      else (s.tileFault c.toNat).orElse (fun _ => s.recordFaultAt va))
    c.toNat va vb

/-- A form that loads a B slot.  The descriptor's [63:7] are zero (R183); the spec names no cause for another value, and
here it raises SHAPE precisely, before the tests of the record address (DESIGN CHOICE, log entry 66). -/
def State.slotWord (s : State) (kind : MatKind) (d a : BitVec 6) (f : BitVec 4) : Result :=
  let vd := (s.here.uniformS d.toNat).toNat
  let va := (s.here.uniformS a.toNat).toNat
  s.matrixWord { s.here.uniformDemand [d, a] with flag := f } kind
    (fun s => if 128 ≤ vd then some (.shape, 0) else s.recordFaultAt va) vd va 0

/-- WLOAD (R183). -/
def execWload (d a : BitVec 6) (f : BitVec 4) (s : State) : Result := s.slotWord (.wload false) d a f
/-- WLOADW (R183). -/
def execWloadw (d a : BitVec 6) (f : BitVec 4) (s : State) : Result := s.slotWord (.wload true) d a f
/-- MCOMP.S24 (R185). -/
def execMcompS24 (d a : BitVec 6) (f : BitVec 4) (s : State) : Result := s.slotWord (.mcomp 1) d a f
/-- MCOMP.S48 (R185). -/
def execMcompS48 (d a : BitVec 6) (f : BitVec 4) (s : State) : Result := s.slotWord (.mcomp 2) d a f

/-- WCLR (R184); a descriptor with a bit of [63:7] raises SHAPE precisely (DESIGN CHOICE, log entry 66). -/
def execWclr (d : BitVec 6) (s : State) : Result :=
  let vd := (s.here.uniformS d.toNat).toNat
  s.matrixWord (s.here.uniformDemand [d]) .wclr (fun _ => if 128 ≤ vd then some (.shape, 0) else none) vd 0 0

/-- ACCZ (R186). -/
def execAccz (d : BitVec 5) (s : State) : Result := s.matrixWord {} .accz (fun s => s.tileFault d.toNat) d.toNat 0 0

/-- The precise causes of ACCRD and ACCWR (R186). -/
def State.accFault (s : State) (d va vb : Nat) : Option (Cause × Nat) :=
  ((s.tileFault d).orElse (fun _ => s.recordFaultAt va)).orElse (fun _ => if 2048 ≤ vb then some (.shape, 0) else none)

/-- ACCRD: MODE.RND is a uniform operand (R187). -/
def execAccrd (d : BitVec 5) (a b : BitVec 6) (f : BitVec 4) (s : State) : Result :=
  let va := (s.here.uniformS a.toNat).toNat
  let vb := (s.here.uniformS b.toNat).toNat
  let dem := s.here.uniformDemand [a, b]
  s.matrixWord { dem with flag := f, differs := dem.differs || !s.here.uniformMode modeRnd } .accrd
    (fun s => s.accFault d.toNat va vb) d.toNat va vb

/-- ACCWR (R188). -/
def execAccwr (d : BitVec 5) (a b : BitVec 6) (f : BitVec 4) (s : State) : Result :=
  let va := (s.here.uniformS a.toNat).toNat
  let vb := (s.here.uniformS b.toNat).toNat
  s.matrixWord { s.here.uniformDemand [a, b] with flag := f } .accwr (fun s => s.accFault d.toNat va vb) d.toNat va vb

/-- A tile of a block. -/
def State.accTile (s : State) (block n : Nat) : AccTile := Table.get {} (s.block block).accs n

/-- A tile of a block written. -/
def State.setAccTile (s : State) (block n : Nat) (t : AccTile) : State :=
  s.onBlock block (fun b => { b with accs := Table.set {} b.accs n t })

/-! ## Operations and their gangs -/

/-- The gang that issued an operation of a core, while it is in its slot. -/
def State.gangBehind (s : State) (core slot block gangId : Nat) : Option Gang :=
  (s.gang core slot).filter (fun g => g.block == block && g.gangId == gangId)

/-- The gang of an operation changed. -/
def State.onGangBehind (s : State) (core slot block gangId : Nat) (f : Gang → Gang) : State :=
  match s.gangBehind core slot block gangId with
  | some g => s.setGang (f g)
  | none => s

/-- An operation of a core's matrix queue replaced. -/
def State.setMat (s : State) (core : Nat) (o : MatOp) : State :=
  let c := s.core core
  s.setCore core { c with mq := c.mq.map (fun p => if p.id = o.id then o else p) }

/-- An operation leaves the queue: its range is released and its flag falls (R68, R176, R179). -/
def State.dropMat (s : State) (core : Nat) (o : MatOp) : State :=
  let c := (s.core core).unlock o.id
  let s := { s with peerData := s.peerData.filter (fun d => d.op != o.id) }
  (s.setCore core { c with mq := c.mq.filter (fun p => p.id != o.id) }).onGangBehind core o.slot o.block o.gangId
    (fun g => g.lowerFlag o.flag)

/-- A deferred matrix fault (R178): the operation takes no effect, but that a slot it would have loaded is left invalid
(R183); its flag falls and the gang will take the fault. -/
def State.deferMat (s : State) (core : Nat) (o : MatOp) (c : Cause) (addr code : Nat) : State :=
  let s := match o.writesSlot with
    | some k => let q := s.core core; s.setCore core { q with slots := q.slots.erase k }
    | none => s
  (s.dropMat core o).onGangBehind core o.slot o.block o.gangId (fun g => { g with
    deferred := g.deferred ++ [{ op := o.id, engine := false, cause := c, pc := o.pc, word := o.word, index := o.index
                                 addr := BitVec.ofNat 64 addr, code := code, slice := o.slice }] })

/-- Whether a gang has a deferred matrix fault of an earlier operation, to be taken or not returned from, which discards this one
(R178). -/
def State.matDiscarded (s : State) (core : Nat) (o : MatOp) : Bool :=
  match s.gangBehind core o.slot o.block o.gangId with
  | some g => (g.deferred ++ g.taken.toList).any (fun d => !d.engine && decide (d.op < o.id))
  | none => true

/-- ACCCHK in its place of the queue: it stalls until the operations before it have started and those on its tile are
complete; one that follows a faulting operation of its gang is discarded (R178); else ACCSUM for the first failing row, or
SCC (R189). -/
def State.checkTile (s : State) (o : MatOp) : State :=
  let g := s.here
  if ((s.core g.core).mq.takeWhile (fun e => e.id != o.id)).any (fun e => e.tile == o.tile || !(e.started || e.kind == .accchk)) then s.stall
  else if s.matDiscarded g.core o then (s.dropMat g.core o).done
  else
    let t := s.accTile g.block o.target
    let rows := List.range 32
    let s := s.dropMat g.core o
    match t.failing rows with
    | some m => s.precise .accsum 0 m
    | none => (s.onHere (fun g => g.writeScc g.members (fun _ => rows.all (fun m => t.judge m == 0)))).done

/-- ACCCHK: it enters the matrix queue the first time that it is tried (R70, R181), as a full one allows, and takes its turn
there (R189). -/
def execAccchk (d : BitVec 5) (s : State) : Result :=
  s.issue {} (fun s =>
    let g := s.here
    match s.tileFault d.toNat with
    | some (c, _) => s.precise c
    | none =>
      match g.grp.since.bind (fun id => (s.core g.core).mq.find? (fun o => o.id == id)) with
      | some o => s.checkTile o
      | none =>
        let o := s.newMatOp .accchk d.toNat 0 0 none
        let c := s.core g.core
        if !c.admits o then s.stall
        else
          let s := s.setCore g.core { c with mq := c.mq ++ [o] }
          ({ s with nextId := s.nextId + 1 }.onHere (fun g => { g with grp := { g.grp with since := some o.id } })).checkTile o)

/-- Poison that an operation consumes kills its gang with KIND 1 (R399, R400). -/
def State.killMat (s : State) (core : Nat) (o : MatOp) (c : Cause) : State :=
  let there := (s.gangBehind core o.slot o.block o.gangId).isSome
  let s := s.dropMat core o
  if there then s.kill core o.slot { cause := c, kind := 1, pc := o.pc, word := o.word, index := o.index, slice := some o.slice } else s

/-- The reader of an operation: relaxed loads of its gang (R179). -/
def State.matReader (s : State) (core : Nat) (o : MatOp) : Reader :=
  let g := s.gangBehind core o.slot o.block o.gangId
  { core := core, tenant := (s.block o.block).tenant, carve := if o.slot = 48 then .supervisor core else .block o.block
    physical := o.slot == 48, ats := (g.map Gang.atsNow).getD 0, floors := (g.map Gang.floors).getD [], id := o.id
    gang := g.map (fun g => gangKey g.core g.slot) }

/-! ## Checks of records (R161, R163, R172, R182, R183) -/

/-- BASE and SBASE of a SPACE 1 shape: offsets in the block's own carve-out (R163). -/
def Shape.ownOffsets (sh : Shape) : Bool := sh.space != 1 || (decide (sh.base < 2 ^ 20) && decide (sh.sbase < 2 ^ 20))

/-- K positions of a K-step: twice the dense ones under sparsity. -/
def Shape.stepDepth (sh : Shape) (sp : Bool) : Nat := depthOf sh.fmt * (if sp then 2 else 1)

/-- Length of an A K-group (R166). -/
def groupLen (sp : Bool) : Nat := if sp then 32 else 16

/-- Whether an A shape keeps the rules of MMA with `n` K-steps. -/
def Shape.aOk (sh : Shape) (n : Nat) (sp : Bool) : Bool :=
  sh.space == 1 && (planesOf sh.fmt).isSome && sh.geomOk && sh.ownOffsets && decide (sh.rows ≤ 32) &&
    decide (sh.cols ≤ n * sh.stepDepth sp) &&
    (!sh.scaled || (sh.col0 % groupLen sp == 0 && (!sp || sh.geom == 32)))

/-- The places of the first bytes that a shape's elements and records take, as addresses with their sizes. -/
def Shape.touches (sh : Shape) : List (Int × Nat) :=
  (List.range sh.rows).flatMap (fun i => (List.range sh.cols).flatMap (fun j =>
    ((sh.place i j).1, sh.elemBytes) :: (if sh.scaled then [((sh.recordPlace (sh.blockOf i j) : Nat), 8)] else [])))

/-- Whether a weight-store shape keeps to one 64 MiB region (R183). -/
def Shape.oneRegion (sh : Shape) : Bool :=
  let region := (sh.place 0 0).1 / (2 ^ 26 : Nat)
  sh.touches.all (fun t => t.1 / (2 ^ 26 : Nat) == region && (t.1 + t.2 - 1) / (2 ^ 26 : Nat) == region)

/-- Whether a B shape keeps the rules of WLOAD, WLOADW or MCOMP. -/
def Shape.bOk (sh : Shape) (kind : MatKind) : Bool :=
  let space : Bool := match kind with
    | .wload weights => (sh.space == 2) == weights
    | _ => true
  let sparse : Bool := match kind with
    | .mcomp _ => true
    | _ => false
  space && (planesOf sh.fmt).isSome && sh.geomOk && sh.ownOffsets && decide (sh.rows ≤ sh.stepDepth sparse) && decide (sh.cols ≤ 64) &&
    (!sh.scaled || (sh.row0 % groupLen sparse == 0 && (!sparse || sh.geom == 32))) && (sh.space != 2 || sh.oneRegion)

/-- What is wrong with a slot that a multiplication names: SHAPE, then DSRC for the delta forms (R178, R182, R201). -/
def State.slotFault (s : State) (core desc : Nat) (sh : Shape) (sp delta : Bool) : Option Cause :=
  match (s.core core).slots.find (slotKey desc) with
  | none => some .shape
  | some b =>
    if (b.kind != 0) != sp || codeWidth b.fmt != sh.width then some .shape
    else if delta && (b.src == 0 || Table.get 0 s.wsGen b.region != b.gen) then some .dsrc
    else none

/-! ## Aligning what was read (R166, R172) -/

/-- A's K-step aligned: rows are lines (R166). -/
def alignA (sh : Shape) (sp : Bool) (els : List (Nat × Nat × Elem)) : Aligned :=
  let len := groupLen sp
  (List.range sh.rows).foldl (fun al i =>
    let row := els.filter (fun e => e.1 == i)
    (List.range (sh.stepDepth sp / len)).foldl (fun (al : Aligned) q =>
      match row.filter (fun e => e.2.1 / len == q) with
      | [] => al
      | e :: rest => al.addGroup sh.fmt i q ((e :: rest).map (fun p => (p.2.1, unitValue sh.fmt p.2.2.bits p.2.2.rec_))) (scaleOf sh.fmt e.2.2.rec_)) al) {}

/-- The checksum column: the exact sum of the aligned values at each logical K position (R160). -/
def BSlot.checksum (b : BSlot) : Table Dy :=
  b.data.mags.foldl (fun t e =>
    let c := e.1 / 4096
    let k := e.1 % 4096
    let l := b.logical c k
    Table.set ⟨0, 0⟩ t l ((Table.get ⟨0, 0⟩ t l).add ((⟨e.2, 0⟩ : Dy).mul (b.data.scale c (k / 16))))) []

/-- A dense B: columns are lines (R166). -/
def denseB (sh : Shape) (els : List (Nat × Nat × Elem)) : Aligned :=
  (List.range sh.cols).foldl (fun al c =>
    let col := els.filter (fun e => e.2.1 == c)
    (List.range (depthOf sh.fmt / 16)).foldl (fun (al : Aligned) q =>
      match col.filter (fun e => e.1 / 16 == q) with
      | [] => al
      | e :: rest => al.addGroup sh.fmt c q ((e :: rest).map (fun p => (p.1, unitValue sh.fmt p.2.2.bits p.2.2.rec_))) (scaleOf sh.fmt e.2.2.rec_)) al) {}

/-- A compressed B: each group of a column keeps its elements by R173, and the kept ones are aligned by 16 (R172). -/
def sparseB (kind : Nat) (sh : Shape) (els : List (Nat × Nat × Elem)) : Aligned × Table Nat :=
  let span := groupSpan kind
  (List.range sh.cols).foldl (fun (acc : Aligned × Table Nat) c =>
    let col := els.filter (fun e => e.2.1 == c)
    let value := fun (l : Nat) => ((col.find? (fun e => e.1 == l)).map (fun e => unitValue sh.fmt e.2.2.bits e.2.2.rec_)).getD (.fin false 0 1)
    let kept := (List.range (2 * depthOf sh.fmt / span)).flatMap (fun g =>
      (keptOf (span / 2) ((List.range span).map (fun i => value (span * g + i)))).map (fun i => span * g + i))
    let al := (List.range (depthOf sh.fmt / 16)).foldl (fun (al : Aligned) q =>
      match col.filter (fun e => e.1 / 32 == q) with
      | [] => al
      | e :: _ => al.addGroup sh.fmt c q ((List.range 16).map (fun i => (16 * q + i, value (kept.getD (16 * q + i) 0)))) (scaleOf sh.fmt e.2.2.rec_)) acc.1
    (al, (List.range kept.length).foldl (fun t k =>
      if kept.getD k 0 = firstKept kind k then t else Table.insert t (4096 * c + k) (kept.getD k 0)) acc.2)) ({}, [])

/-- The slot that WLOAD, WLOADW or MCOMP writes (R183, R185). -/
def State.newSlot (s : State) (kind : MatKind) (sh : Shape) (els : List (Nat × Nat × Elem)) : BSlot :=
  let sparse := match kind with
    | .mcomp k => k
    | _ => 0
  let region := if sh.space = 2 then ((sh.place 0 0).1 / (2 ^ 26 : Nat)).toNat else 0
  let (data, pos) := if sparse = 0 then (denseB sh els, []) else sparseB sparse sh els
  let b : BSlot :=
    { kind := sparse, src := if sh.space = 2 then 1 else 0, fmt := sh.fmt, gen := if sh.space = 2 then Table.get 0 s.wsGen region else 0
      region := region, data := data, pos := pos, cs := [] }
  { b with cs := b.checksum }

/-- The slot as WCLR leaves it (R184). -/
def clearedSlot : BSlot := { kind := 0, src := 0, fmt := 12, gen := 0, region := 0, data := {}, pos := [], cs := [] }

/-! ## Starting an operation (R176, R178, R179) -/

/-- A staging time: half the 256-byte segments that hold an element, or a part of one, of the step's rows, rounded up
(R175). -/
def Shape.stagingCycles (sh : Shape) (sp : Bool) (j : Nat) : Nat :=
  let k := sh.stepDepth sp
  let seg := fun (i : Nat) => ((List.range (min k (sh.cols - j * k))).flatMap (fun c =>
    let a := (sh.place i (j * k + c)).1
    [a / 256, (a + (sh.elemBytes : Int) - 1) / 256])).eraseDups.length
  ((List.range sh.rows).foldl (fun n i => n + seg i) 0 + 1) / 2

/-- The K-steps of a multiplication: every element and block record read and checked, in order (R178 step 4). -/
def Reader.kSteps (r : Reader) (sc : Scan) (sh : Shape) (sp : Bool) (descs : List Nat) : Except ReadStop (List KStep × Scan) :=
  let k := sh.stepDepth sp
  (List.range descs.length).foldlM (fun (acc : List KStep × Scan) j => do
    let (els, sc) ← r.elems acc.2 sh true 0 sh.rows (j * k) (min k (sh.cols - j * k))
    let tile := alignA sh sp els
    return (acc.1 ++ [{ desc := descs.getD j 0, tile := tile, staging := sh.stagingCycles sp j
                        cost := planeCycles tile ((planesOf sh.fmt).getD 0) }], sc)) ([], sc)

/-- SHAPE where a check fails. -/
def need (ok : Bool) (sc : Scan) : Except ReadStop (Unit × Scan) := if ok then .ok ((), sc) else .error .shape

/-- A multiplication's slots checked in order (R178 step 3). -/
def checkSlots (core : Nat) (sh : Shape) (sp delta : Bool) (descs : List Nat) (sc : Scan) : Except ReadStop (Unit × Scan) :=
  match descs.findSome? (fun d => sc.s.slotFault core d sh sp delta) with
  | some c => .error (.fault c 0)
  | none => .ok ((), sc)

/-- MMA as it starts: its shape, and its K-steps. -/
def Reader.startMma (r : Reader) (s : State) (o : MatOp) (sp : Bool) : Except ReadStop (MatOp × Scan) := do
  let descs := (slotList o.list 8).getD []
  let (sh, sc) ← r.shape { s := s } o.record
  let (_, sc) ← need (sh.aOk descs.length sp) sc
  let (_, sc) ← checkSlots r.core sh sp false descs sc
  let version := sc.wts
  let (steps, sc) ← r.kSteps sc sh sp descs
  return ({ o with started := true, shape := some sh, steps := steps, version := version }, sc)

/-- A WLOAD, WLOADW or MCOMP as it starts: the slot that it will write. -/
def Reader.startLoad (r : Reader) (s : State) (o : MatOp) : Except ReadStop (MatOp × Scan) := do
  let (sh, sc) ← r.shape { s := s } o.record
  let (_, sc) ← need (sh.bOk o.kind) sc
  let (els, sc) ← r.elems sc sh true 0 sh.rows 0 sh.cols
  return ({ o with started := true, shape := some sh, loaded := some (sc.s.newSlot o.kind sh els) }, sc)

/-- The first row and column that a tile origin names (R186). -/
def originOf (list : Nat) : Nat × Nat := (field list 0 5, field list 5 6)

/-- Whether a shape keeps the rules of ACCRD and ACCWR (R187, R188). -/
def Shape.accOk (sh : Shape) (origin : Nat × Nat) : Bool :=
  decide (sh.space ≤ 1) && sh.geomOk && sh.ownOffsets && decide (origin.1 + sh.rows ≤ 32) && decide (origin.2 + sh.cols ≤ 64)

/-- ACCWR as it starts: the elements that it will write, rounded to binary32 (R188). -/
def Reader.startAccwr (r : Reader) (s : State) (o : MatOp) : Except ReadStop (MatOp × Scan) := do
  let (sh, sc) ← r.shape { s := s } o.record
  let org := originOf o.list
  let (_, sc) ← need (sh.accOk org) sc
  let (els, sc) ← r.elems sc sh false 0 sh.rows 0 sh.cols
  let value := fun (e : Elem) => toF32 .rne (((storage sh.fmt).map (fun st => st.decode e.rec_ e.bits)).getD .nan)
  return ({ o with started := true, shape := some sh
                   values := els.foldl (fun t e => Table.insert t (64 * (org.1 + e.1) + org.2 + e.2.1) (value e.2.2)) [] }, sc)

/-- An accumulator element converted to a storage format (R187). -/
def convertAcc (fmt : Nat) (w : Word) (rnd : Rnd) (narrow : Word64) (rec_ : Word64) (key : Nat) (seed : Word64) : Nat :=
  match fmt with
  | 0 => w.toNat
  | 16 => Fmt.f64.round .rne false (f32Num w)
  | 8 => (f32Num w).toIntSat rnd true 32
  | 9 => (f32Num w).toIntSat rnd false 32
  | 17 => (f32Num w).toIntSat rnd true 64
  | _ => narrowTo fmt narrow rec_ key seed (f32Num w)

/-- The bytes of a destination element: its physical addresses or carve-out offsets, with the block record of a scaled
element (R178 step 4, R187). -/
def Reader.destElem (r : Reader) (sc : Scan) (sh : Shape) (i j : Nat) : Except ReadStop ((List Nat × Word64) × Scan) := do
  let (a, _) := sh.place i j
  let (places, sc) ← (List.range sh.elemBytes).foldlM (fun (acc : List Nat × Scan) (n : Nat) =>
    if sh.space = 1 then
      (if acc.2.s.inCarve r.carve (a + (n : Int)) 1 then .ok (acc.1 ++ [(a + (n : Int)).toNat], acc.2) else .error .shape : Except ReadStop (List Nat × Scan))
    else
      let va := wrapTo 64 (a + (n : Int))
      if r.walkWaits acc.2.s va then .error .waits
      else
      let s := r.fill acc.2.s va
      match r.translate s va .store with
      | .error c => .error (.of c va)
      | .ok pa => .ok (acc.1 ++ [pa], { acc.2 with s := s })) (([] : List Nat), sc)
  if sh.scaled then
    let (tag, sc) ← (if sh.space = 0 then do
        let (d, sc) ← r.line sc (places.headD 0 / 64)
        return (d.tag, sc)
      else .ok (none, sc) : Except ReadStop (Option Tag × Scan))
    let (rec_, sc) ← r.blockRecord sc sh i j tag false
    return ((places, rec_), sc)
  else return ((places, unitRecord), sc)

/-- The bytes that an element's bits give. -/
def elemWrites (sh : Shape) (lo : Nat) (places : List Nat) (x : Nat) : List ByteWrite :=
  if sh.width = 4 then places.map (fun a => ⟨a, BitVec.ofNat 8 (15 * 2 ^ lo), BitVec.ofNat 8 (x % 16 * 2 ^ lo)⟩)
  else places.mapIdx (fun n a => ⟨a, 255, BitVec.ofNat 8 (x / 2 ^ (8 * n))⟩)

/-- ACCRD as it starts: its destination checked, then its rows, and the bytes that it will write (R187). -/
def Reader.startAccrd (r : Reader) (s : State) (o : MatOp) : Except ReadStop (MatOp × Scan) := do
  let (sh, sc) ← r.shape { s := s } o.record
  let org := originOf o.list
  let (_, sc) ← need (sh.accOk org) sc
  let t := s.accTile o.block o.target
  let (bytes, sc) ← (List.range sh.rows).foldlM (fun acc i => (List.range sh.cols).foldlM (fun (acc : List ByteWrite × Scan) j => do
    let ((places, rec_), sc) ← r.destElem acc.2 sh i j
    let (a, lo) := sh.place i j
    let at_ := wrapTo 64 a
    let key := if sh.width = 4 then 2 * at_ + lo / 4 else at_
    let x := convertAcc sh.fmt (t.el (org.1 + i) (org.2 + j)) (.ofCode (modeRnd o.mode)) o.narrow rec_ key o.seed
    return (acc.1 ++ elemWrites sh lo places x, sc)) acc) (([] : List ByteWrite), sc)
  match t.failing ((List.range sh.rows).map (fun i => org.1 + i)) with
  | some m => .error (.fault .accsum m)
  | none => return ({ o with started := true, shape := some sh, bytes := bytes, global := sh.space == 0 }, sc)

/-- Whether an operation must wait for an earlier one that is not complete: they meet in a tile, unless both multiply, or
in a slot that one of them writes. -/
def MatOp.conflicts (o e : MatOp) : Bool :=
  (o.tile.isSome && o.tile == e.tile && !(o.multiplies && e.multiplies)) ||
  (match o.writesSlot with
    | some k => e.writesSlot == some k || (e.slotsRead.getD []).any (fun d => slotKey d == k)
    | none => false) ||
  (match e.writesSlot with
    | some k => (match o.slotsRead with
      | some l => l.any (fun d => slotKey d == k)
      | none => true)
    | none => false)

/-- Whether the gang's earlier acquires, fences or stores hold back the reads of an operation (R179, R232, R236). -/
def State.matHeld (s : State) (core : Nat) (o : MatOp) : Bool :=
  s.heldFrom (gangKey core o.slot) o.id ||
    (s.unperformed (gangKey core o.slot)).any (fun p => decide (p.id < o.id))

/-- The range that an operation registers when it begins (R179, R283): that of MCOMP in the weight store too, where no
thread access meets it. -/
def State.matLock (s : State) (core : Nat) (o : MatOp) : Option RangeLock :=
  let lock := fun (kind : Nat) => o.shape.map (fun sh => (s.matReader core o).lock sh o.id kind)
  match o.kind with
  | .accrd => lock 2
  | .accwr => lock 1
  | .wload false => lock 1
  | .mcomp _ => lock 1
  | _ => none

/-- Whether a slot load touches a bank of the weight store that is unavailable now (R199). -/
def State.banksClosed (s : State) (o : MatOp) : Bool :=
  match o.shape with
  | some sh => sh.space == 2 && sh.touches.any (fun t => s.bankClosed ((t.1 / (2 ^ 24 : Nat)).toNat % 64) || s.bankClosed (((t.1 + t.2 - 1) / (2 ^ 24 : Nat)).toNat % 64))
  | none => false

/-- An operation as it starts, where nothing but what it reads can stop it. -/
def State.startRead (s : State) (core : Nat) (o : MatOp) : Except ReadStop (MatOp × Scan) :=
  let r := s.matReader core o
  match o.kind with
  | .mma _ _ sp => r.startMma s o sp
  | .wload _ => r.startLoad s o
  | .mcomp _ => r.startLoad s o
  | .accwr => r.startAccwr s o
  | .accrd => r.startAccrd s o
  | .wclr => .ok ({ o with started := true, loaded := some clearedSlot }, { s := s })
  | .accz => .ok ({ o with started := true }, { s := s })
  | .accchk => .ok (o, { s := s })
  | .dmma _ => .ok (o, { s := s })

/-- What an operation's start comes to: `state` is the state in which its reads have been made. -/
def State.beginMat (s : State) (core : Nat) (o : MatOp) (read : Except ReadStop (MatOp × Scan)) : State :=
  match read with
  | .error .waits => s
  | .error .poison => s.killMat core o .uncorr
  | .error (.fault .accsum m) => s.deferMat core o .accsum 0 m
  | .error (.fault c a) => s.deferMat core o c a 0
  | .ok (o, sc) =>
    if s.banksClosed o then s
    else
      let s := sc.s
      match s.matLock core o with
      | some l =>
        let c := s.core core
        if lockEntries ≤ c.locks.length then s
        else ((s.setCore core { c with locks := c.locks ++ [l] }).setMat core o).onGangBehind core o.slot o.block o.gangId (fun g => g.scanned sc)
      | none => (s.setMat core o).onGangBehind core o.slot o.block o.gangId (fun g => g.scanned sc)

/-- Whether the next operation of the queue may start, and that operation: the first that has not started, once no
earlier one that it meets is incomplete. -/
def State.nextMat (s : State) (core : Nat) : Option MatOp :=
  let c := s.core core
  match c.mq.find? (fun o => !o.started && o.kind != .accchk) with
  | none => none
  | some o =>
    if (c.mq.takeWhile (fun e => e.id != o.id)).any o.conflicts || s.matHeld core o then none else some o

/-! ## Staging, planes and adds (R174 to R176) -/

/-- The K-steps of a queue in order, with their operations. -/
def Core.queueSteps (c : Core) : List (MatOp × Nat × KStep) := c.mq.flatMap (fun o => o.steps.mapIdx (fun j k => (o, j, k)))

/-- Whether an operation takes sparse tiles. -/
def MatOp.sparse (o : MatOp) : Bool :=
  match o.kind with
  | .mma _ _ sp => sp
  | _ => false

/-- A K-step of an operation replaced. -/
def MatOp.setStep (o : MatOp) (j : Nat) (k : KStep) : MatOp := { o with steps := o.steps.set j k }

/-- The K-steps that stand before one in the queue. -/
def Core.stepsBefore (c : Core) (op step : Nat) : List KStep :=
  (c.queueSteps.takeWhile (fun e => !(e.1.id == op && e.2.1 == step))).map (fun e => e.2.2)

/-- Whether a buffered tile is that of a K-step. -/
def Staged.isFor (t : Staged) (o : MatOp) (j : Nat) : Bool :=
  t.block == o.block && t.record == o.record && t.step == j && t.sp == o.sparse

/-- Halves of the row buffer that a tile takes. -/
def halves (sp : Bool) : Nat := if sp then 2 else 1

/-- The bytes of the carve-out that hold the elements of a K-step's tile, their block records and the shape record, as ranges
(R175). -/
def MatOp.stepSpans (o : MatOp) (j : Nat) : List (Nat × Nat) :=
  match o.shape with
  | none => []
  | some sh =>
    let k := sh.stepDepth o.sparse
    let cols := (List.range (min k (sh.cols - j * k))).map (fun c => j * k + c)
    let bytes := (List.range sh.rows).flatMap (fun i =>
      let places := cols.map (fun c => (sh.place i c).1)
      [((places.foldl min (places.headD 0)).toNat, (places.foldl max (places.headD 0)).toNat + sh.elemBytes)])
    let records := if sh.scaled then (List.range sh.rows).flatMap (fun i => cols.map (fun c =>
        (sh.recordPlace (sh.blockOf i c), sh.recordPlace (sh.blockOf i c) + if sh.hdrrec then 64 else 8))) else []
    bytes ++ records.eraseDups ++ (if bitOf o.record 63 then [(field o.record 0 20, field o.record 0 20 + 64)] else [])

/-- Whether a queued or running K-step uses a buffered tile: one that is staged, or, with `later`, one that is still to be
staged, of an operation that has started or not; a DMMA that has not started may have any of 32 K-steps (R175, R200). -/
def Core.tileUsed (c : Core) (later : Bool) (t : Staged) : Bool :=
  c.queueSteps.any (fun e => t.isFor e.1 e.2.1 && !e.2.2.added && (later || e.2.2.staged.isSome)) ||
    (later && c.mq.any (fun o => !o.started && o.multiplies && t.isFor o t.step &&
      decide (t.step < (match o.slotsRead with
        | some l => l.length
        | none => 32))))

/-- ROW_BUFFER_STAGE (R175): K-steps stage in queue order.  A tile that the buffer holds, in whose bytes and records no store has
landed, is used again; else staging begins once a half, or both, are free: no queued or running K-step uses a tile there.  Where only K-steps behind this
one use the tiles, no half would ever be free, and one of them gives way (DESIGN CHOICE, log entry 69). -/
def execRowBufferStage (core op step : Nat) (s : State) : Result :=
  let c := s.core core
  match c.mq.find? (fun o => o.id == op) with
  | none => .next s
  | some o =>
    match o.steps[step]? with
    | none => .next s
    | some k =>
      if k.staged.isSome || (c.stepsBefore op step).any (fun e => e.staged.isNone) then .next s
      else
        match c.rowBuffer.find? (fun t => t.isFor o step && !t.stale && t.version == o.version && t.tile == k.tile) with
        | some t => .next (s.setMat core (o.setStep step { k with staged := some (max t.ready s.cycle) }))
        | none =>
          let rest := (c.rowBuffer.map (fun t => { t with stale := t.stale || t.isFor o step })).filter (fun t => !t.isFor o step || c.tileUsed false t)
          let room := fun (l : List Staged) => l.foldl (fun n t => n + halves t.sp) 0
          let wanted := rest.filter (fun t => c.tileUsed (!t.stale) t)
          let fits := decide (room wanted + halves o.sparse ≤ 2)
          let used := if fits then wanted else (wanted.filter (fun t => decide (halves t.sp + halves o.sparse ≤ 2))).take 1
          let taken := room used
          if !fits && rest.any (c.tileUsed false) then .next s
          else
            let spare := (rest.filter (fun t => !used.contains t && decide (taken + halves o.sparse + halves t.sp ≤ 2))).take 1
            let ready := c.rowBuffer.foldl (fun n t => max n t.ready) s.cycle + k.staging
            let s := s.setCore core { c with rowBuffer := used ++ spare ++ 
              [{ block := o.block, record := o.record, step := step, sp := o.sparse, tile := k.tile, spans := o.stepSpans step
                 version := o.version, ready := ready }] }
            .next (s.setMat core (o.setStep step { k with staged := some ready }))

/-- KSTEP_PLANES: a K-step whose tile is staged starts its planes once its macro has finished those of the K-steps
before it (R174, R176). -/
def execKstepPlanes (core op step : Nat) (s : State) : Result :=
  let c := s.core core
  match c.mq.find? (fun o => o.id == op) with
  | none => .next s
  | some o =>
    match o.steps[step]? with
    | none => .next s
    | some k =>
      let ready : Bool := match k.staged with
        | some r => decide (r ≤ s.cycle)
        | none => false
      let free := (c.stepsBefore op step).all (fun e => macroOf e.desc != macroOf k.desc || (match e.planes with
        | some p => decide (p ≤ s.cycle)
        | none => false))
      if !ready || !(free || k.cost == 0) || k.planes.isSome then .next s
      else
        let full := 16 * ((o.shape.bind (fun sh => planesOf sh.fmt)).getD 0 + 1)
        let s := ((s.count core 5 1).count core 6 k.cost).count core 7 (full - k.cost)
        .next (s.setMat core (o.setStep step { k with planes := some (s.cycle + k.cost) }))

/-- Bytes written to a carve-out; a word all of whose bytes are written is poisoned no longer (R398), and staged tiles that they
meet are staged anew (R175). -/
def State.writeCarveBytes (s : State) (c : Carve) (l : List ByteWrite) : State :=
  let s := l.foldl (fun s w => s.setSbyte c w.addr ((s.sbyte c w.addr &&& ~~~w.mask) ||| (w.value &&& w.mask))) s
  let s := if (s.core (s.carveCore c)).rowBuffer.isEmpty then s else l.foldl (fun s w => s.touch c w.addr (w.addr + 1)) s
  let whole := (l.map (fun w => w.addr / 4)).eraseDups.filter (fun w =>
    (List.range 4).all (fun i => l.any (fun b => b.addr == 4 * w + i && b.mask == 255)))
  whole.foldl (fun s w => s.clearPoison c w) s

/-- The byte and data masks that writes put on one line; the bits of a byte that a write leaves alone keep the value
that the core reads (R187, R295). -/
def lineWrites (now : Line) (l : List ByteWrite) (line : Nat) : LaneMask × Line :=
  (l.filter (fun w => w.addr / 64 == line)).foldl (fun (acc : LaneMask × Line) w =>
    let off := w.addr % 64
    let mask : LaneMask := BitVec.ofNat 64 (2 ^ off)
    let old : Byte := BitVec.ofNat 8 (lineField (mergeLine now acc.2 acc.1) off 1)
    let b := (old &&& ~~~w.mask) ||| (w.value &&& w.mask)
    (acc.1 ||| mask, mergeLine acc.2 (BitVec.ofNat 512 (b.toNat * 2 ^ (8 * off))) mask)) (0, 0)

/-- Bytes of global memory written through the FIFO of a core as relaxed stores (R179, R229, R244): the other bytes of their
lines are filled, and `item` gives what an entry carries.  Lines of other devices are answered for, not entered.  None while
the host owns a line that is not written whole: its other bytes are filled first (R187, R229, R247, R295).  A byte that is
written in part keeps its poison (R398). -/
def State.writeGlobalBytes (s : State) (r : Reader) (l : List ByteWrite) (item : Nat → LaneMask → Line → FifoItem) :
    Option (State × List Nat) :=
  let lines := (l.map (fun w => w.addr / 64)).eraseDups
  let away := lines.filter (fun n => regionOf (64 * n) == .peer)
  let near := lines.filter (fun n => !away.contains n)
  let partial_ := fun n => l.any (fun w => w.addr / 64 == n && w.mask != 255)
  let whole := fun n => (lineWrites 0 l n).1 == BitVec.allOnes 64 && !partial_ n
  if near.any (fun n => !whole n && s.hostOwns n) then none
  else some (near.foldl (fun s n =>
    let (now, bad, s) : Line × Bool × State :=
      if whole n then (0, false, s)
      else
        let (d, s) := s.loadLine r.core n r.ats r.floors
        (d.data, d.poison && partial_ n, s)
    let (mask, data) := lineWrites now l n
    s.pushStore r.core { item n mask data with poison := bad }) s, away)

/-- An operation takes its effect and completes: a slot, a tile or bytes are written (R183 to R188). -/
def State.finishMat (s : State) (core : Nat) (o : MatOp) : State :=
  let c := s.core core
  match o.kind with
  | .wclr => (s.setCore core { c with slots := c.slots.insert (slotKey o.target) (o.loaded.getD clearedSlot) }).dropMat core o
  | .wload _ => (s.setCore core { c with slots := c.slots.insert (slotKey o.target) (o.loaded.getD clearedSlot) }).dropMat core o
  | .mcomp _ => (s.setCore core { c with slots := c.slots.insert (slotKey o.target) (o.loaded.getD clearedSlot) }).dropMat core o
  | .accz => (s.setAccTile o.block o.target {}).dropMat core o
  | .accwr =>
    let old := s.accTile o.block o.target
    let t := o.values.foldl (fun (t : AccTile) e => t.setEl (e.1 / 64) (e.1 % 64) e.2) old
    let t := ((o.values.map (fun e => e.1 / 64)).eraseDups).foldl old.freshRow t
    (s.setAccTile o.block o.target t).dropMat core o
  | .accrd =>
    let r := s.matReader core o
    if !o.global then (s.writeCarveBytes r.carve o.bytes).dropMat core o
    else if !o.bytes.isEmpty then
      let g := s.gangBehind core o.slot o.block o.gangId
      let keys := if g.isSome then [gangKey core o.slot] else []
      match s.writeGlobalBytes r o.bytes (fun n mask data =>
        { id := 0, line := n, mask := mask, shown := mask, view := data, data := data, pts := (g.map Gang.ptsNow).getD o.pts, gangs := keys
          writers := keys, launches := [(s.block o.block).launch] }) with
      | none => s
      | some (s, away) => if away.isEmpty then s.dropMat core o else s.setMat core { o with bytes := [], peerAcks := away }
    else s
  | .accchk => s
  | .mma _ _ _ => s
  | .dmma _ => s

/-- MATRIX_OP_START for the forms of this chapter (R178): the reads and checks of the operation that is next in the
queue; WCLR and ACCZ, which read nothing, take effect at once. -/
def State.startMat (s : State) (core : Nat) (o : MatOp) : State :=
  if s.matDiscarded core o then s.dropMat core o
  else match o.kind with
    | .wclr => s.finishMat core { o with loaded := some clearedSlot }
    | .accz => s.finishMat core o
    | _ => s.beginMat core o (s.startRead core o)

/-- The B slot that a K-step uses. -/
def State.slotOf (s : State) (core desc : Nat) : BSlot := ((s.core core).slots.find (slotKey desc)).getD clearedSlot

/-- WEIGHT_STORE_WINDOW_CLOSE: time passes to the end of the window of the bank that is unavailable now, and the reads
that waited for it may proceed (R199). -/
def execWeightStoreWindowClose (s : State) : Result := .next (s.elapse (1024 - s.cycle % 1024))

end Sys2Proof.Machine
end

