-- ==== Sys2Proof/Machine/CopyEngine.lean ====
section
/-! DEFINITION. The copy engine (12_async_engines.md): the COPY forms and the steps by which their commands start and
land granules. -/

namespace Sys2Proof.Machine

/-! ## The control word (R294) -/

/-- CHAN. -/
def CopyCmd.chan (k : CopyCmd) : Nat := field k.ctl 0 3
/-- BAREN. -/
def CopyCmd.counts (k : CopyCmd) : Bool := bitOf k.ctl 3
/-- ARRIVE. -/
def CopyCmd.arrives (k : CopyCmd) : Bool := bitOf k.ctl 4
/-- The offset of the barrier object. -/
def CopyCmd.barrier (k : CopyCmd) : Nat := 16 * field k.ctl 8 16
/-- IDXOFF. -/
def CopyCmd.index_ (k : CopyCmd) : Nat := field k.ctl 24 20
/-- Whether the command is AGATH. -/
def CopyCmd.gathers (k : CopyCmd) : Bool := k.kind == 1
/-- Whether the command is ASCAT. -/
def CopyCmd.scatters (k : CopyCmd) : Bool := k.kind == 2
/-- Whether the command is AFILL, which has no source. -/
def CopyCmd.fills (k : CopyCmd) : Bool := k.kind == 3
/-- Whether the command reads an index list. -/
def CopyCmd.indexed (k : CopyCmd) : Bool := k.gathers || k.scatters

/-! ## Reading and registering (R244, R283, R289) -/

/-- The reader of a command: relaxed loads with the issuing ATS (R244). -/
def State.copyReader (s : State) (core : Nat) (k : CopyCmd) : Reader :=
  { core := core, tenant := (s.block k.block).tenant, carve := if k.slot = 48 then .supervisor core else .block k.block
    physical := k.slot == 48, ats := k.ats, floors := ((s.gangBehind core k.slot k.block k.gangId).map Gang.floors).getD [], id := k.id }

/-- The reader of a command's records and index list: relaxed loads of the gang (R289). -/
def State.recordReader (s : State) (core : Nat) (k : CopyCmd) : Reader :=
  let g := s.gangBehind core k.slot k.block k.gangId
  { s.copyReader core k with ats := (g.map Gang.atsNow).getD k.ats, gang := g.map Gang.key }

/-- One side of a command: its shape with BASE as an offset of the carve-out that it names, if it is a scratchpad. -/
structure Side where
  sh : Shape
  carve : Option Carve
  /-- its carve-out belongs to an ended block (R290) -/
  gone : Bool := false
  deriving DecidableEq, Repr

/-- The side that a shape names (R217, R288, R295). -/
def State.sideOf (s : State) (core : Nat) (k : CopyCmd) (sh : Shape) : Option Side :=
  if sh.space = 0 then some ⟨sh, none, false⟩
  else if sh.space ≠ 1 ∨ sh.base / 2 ^ 23 ≠ 0 then none
  else
    let own := if k.slot = 48 then Carve.supervisor core else .block k.block
    let sh' := { sh with base := sh.base % 2 ^ 20 }
    let rank := field sh.base 20 2
    if bitOf sh.base 22 then
      let b := s.block k.block
      if b.ranks ≤ rank then none
      else match b.peers.find rank with
        | some key => some ⟨sh', some (.block key), s.carveEnded (.block key)⟩
        | none => some ⟨sh', some own, true⟩
    else if rank ≠ 0 then none
    else some ⟨sh', some own, false⟩

/-- The record that the registration read finds at an address, if it can be read (R283); no answer while the read must wait
for another device or for the host (R247, R249). -/
def State.registered (s : State) (core : Nat) (k : CopyCmd) (v : Nat) : Option (Option Shape) :=
  match (s.recordReader core k).shape { s := s } v with
  | .ok (sh, _) => some (some sh)
  | .error .waits => none
  | .error _ => some none

/-- The range that a side registers: none in the scratchpad of a peer, or where its shape names no side (R283). -/
def State.sideLock (s : State) (core : Nat) (k : CopyCmd) (sh : Option Shape) (kind : Nat) : List RangeLock :=
  let r := s.copyReader core k
  match sh.bind (s.sideOf core k) with
  | none => []
  | some side => if side.carve.isNone || side.carve == some r.carve then [r.lock side.sh k.id kind] else []

/-- The ranges that a command registers, once its records are read (R283). -/
def State.copyLocks (s : State) (core : Nat) (k : CopyCmd) : Option (List RangeLock) := do
  let d ← s.registered core k k.drec
  let src ← if k.fills then some none else s.registered core k k.srec
  let listed := if k.gathers then d else if k.scatters then src else none
  return (if k.scatters then [] else s.sideLock core k d 2) ++ (if k.gathers || k.fills then [] else s.sideLock core k src 1) ++
    (match listed with
      | some x => [{ cmd := k.id, kind := 3, scratch := true, owner := (s.copyReader core k).lockOwner 1
                     low := k.index_, high := k.index_ + 4 * x.rows }]
      | none => [])

/-! ## Issue (R277, R283, R287, R293) -/

/-- The precise causes of a command, in the order of R287. -/
def State.copyFault (s : State) (k : CopyCmd) : Option (Cause × Nat) :=
  let size := s.carveSize s.here.carve
  let used := k.counts || k.arrives
  if field k.ctl 5 3 ≠ 0 ∨ field k.ctl 44 20 ≠ 0 then some (.shape, 0)
  else if !used && k.barrier != 0 then some (.shape, 0)
  else if !k.indexed && k.index_ != 0 then some (.shape, 0)
  else if used && decide (size < k.barrier + 16) then some (.shape, 0)
  else if k.indexed && (k.index_ % 4 != 0 || decide (size < k.index_ + 4)) then some (.shape, 0)
  else (s.recordFaultAt k.drec).orElse (fun _ => if k.fills then none else s.recordFaultAt k.srec)

/-- A COPY form (R293): its R81 causes, those of R287, then it waits for the answers to its registration read, for a free
command and for room in the range-lock table; it registers its ranges and counts into its flag.  The registration read
follows the gang's earlier acquires, stores and scratchpad accesses (R232, R236, R289). -/
def State.copyWord (s : State) (kind : Nat) (d a b : BitVec 6) (f : BitVec 4) : Result :=
  s.issue { s.here.uniformDemand [d, a, b] with flag := f } (fun s =>
    let g := s.here
    let id := g.grp.since.getD s.nextId
    let k : CopyCmd :=
      { id := id, slot := g.slot, block := g.block, gangId := g.gangId, kind := kind, ctl := (g.uniformS b.toNat).toNat
        drec := (g.uniformS d.toNat).toNat, srec := (g.uniformS a.toNat).toNat, flag := flagOf f, ats := g.atsNow, pts := g.ptsNow
        pc := g.wordPc, word := s.wordHere, index := g.wordIndex, slice := g.members.headD 0 }
    match s.copyFault k with
    | some (c, addr) => s.precise c addr
    | none =>
      let s := s.flushScratch g.key
      if s.wordHeld || !(s.unperformed g.key).isEmpty || !(s.scratchOps g.key).isEmpty then (s.noteSince false).stall
      else match s.copyLocks g.core k with
      | none => (s.noteSince false).stall
      | some locks =>
        let c := s.core g.core
        if s.here.flagFull f || decide (64 ≤ c.cmds.length) || decide (lockEntries < c.locks.length + locks.length) then s.stall
        else
          let s := s.setCore g.core { c with cmds := c.cmds ++ [k], locks := c.locks ++ locks }
          let gone := s.peerData.any (fun d => d.op == id && d.refused)
          let s := { s with nextId := max s.nextId (id + 1), peerData := s.peerData.filter (fun d => d.op != id) }
          (s.onHere (fun g => (if gone then g.peerEvent else g).raiseFlag k.flag)).done)

/-- ACOPY (R295). -/
def execAcopy (d a b : BitVec 6) (f : BitVec 4) (s : State) : Result := s.copyWord 0 d a b f
/-- AGATH (R295). -/
def execAgath (d a b : BitVec 6) (f : BitVec 4) (s : State) : Result := s.copyWord 1 d a b f
/-- ASCAT (R295). -/
def execAscat (d a b : BitVec 6) (f : BitVec 4) (s : State) : Result := s.copyWord 2 d a b f
/-- AFILL (R295). -/
def execAfill (d a b : BitVec 6) (f : BitVec 4) (s : State) : Result := s.copyWord 3 d a b f

/-! ## The elements of a command (R278, R295) -/

/-- Elements that a command visits: those of its destination, or of its source for ASCAT. -/
def CopyCmd.total (k : CopyCmd) : Nat :=
  let sh := if k.scatters then k.src else k.dst
  (sh.map (fun sh => sh.rows * sh.cols)).getD 0

/-- Bits of an element. -/
def CopyCmd.width (k : CopyCmd) : Nat := (k.dst.map Shape.width).getD 8

/-- Elements of a whole granule: payload 128 bytes (R278). -/
def CopyCmd.perGranule (k : CopyCmd) : Nat := 1024 / k.width

/-- The destination and the source of the `n`-th element visited; none for a row passed over, or written as zero. -/
def CopyCmd.item (k : CopyCmd) (n : Nat) : Option (Nat × Nat) × Option (Nat × Nat) :=
  let x := fun (i : Nat) => k.list.getD i (-1)
  let within := fun (v : Int) (sh : Option Shape) => decide (0 ≤ v) && decide (v < ((sh.map Shape.rows).getD 0 : Nat))
  if k.scatters then
    let cols := (k.src.map Shape.cols).getD 1
    let i := n / cols
    let j := n % cols
    (if within (x i) k.dst then some ((x i).toNat, j) else none, some (i, j))
  else
    let cols := (k.dst.map Shape.cols).getD 1
    let i := n / cols
    let j := n % cols
    (some (i, j), if k.fills then none else if k.gathers then (if within (x i) k.src then some ((x i).toNat, j) else none) else some (i, j))

/-- The elements of a granule, by place in the order of visits. -/
def CopyCmd.granule (k : CopyCmd) (g : Nat) : List Nat := List.range' (g * k.perGranule) (min k.perGranule (k.total - g * k.perGranule))

/-- The payload of `n` elements (R278). -/
def CopyCmd.payload (k : CopyCmd) (n : Nat) : Nat := (n * k.width + 7) / 8

/-! ## Starting a command (R285, R288) -/

/-- Whether the extent of a scratchpad side lies in its carve-out: all its elements, whichever of them the command visits
(R288). -/
def State.within (s : State) (side : Side) : Bool :=
  match side.carve with
  | none => true
  | some c => side.gone || s.inCarve c side.sh.range.1 (side.sh.range.2 - side.sh.range.1).toNat

/-- The pages of an element's bytes of a global side added to the translations of a command (R288, R358). -/
def Reader.addPages (r : Reader) (side : Side) (kind : AccessKind) (p : Nat × Nat) (acc : Table Nat × Scan) :
    Except ReadStop (Table Nat × Scan) :=
  if side.carve.isSome then .ok acc
  else
    let a := (side.sh.place p.1 p.2).1
    [a, a + (side.sh.elemBytes : Int) - 1].foldlM (fun (acc : Table Nat × Scan) (x : Int) =>
      let va := wrapTo 64 x
      if r.walkWaits acc.2.s va then .error .waits
      else
      let s := r.fill acc.2.s va
      match r.translate s va kind with
      | .error c => .error (.of c va)
      | .ok pa => .ok (acc.1.insert (va / 2 ^ 19) (pa - va % 2 ^ 19), { acc.2 with s := s })) acc

/-- The physical address of a global byte under the translations that a command took at its start (R358). -/
def CopyCmd.physical (k : CopyCmd) (a : Int) : Nat :=
  let va := wrapTo 64 a
  Table.get 0 k.pages (va / 2 ^ 19) + va % 2 ^ 19

/-- The tag of the line of a source element, if its side is global (R117, R285). -/
def Reader.tagAt (r : Reader) (k : CopyCmd) (side : Side) (p : Nat × Nat) (sc : Scan) : Except ReadStop (Option Tag × Scan) :=
  if side.carve.isSome then .ok (none, sc)
  else
    let pa := k.physical (side.sh.place p.1 p.2).1
    if regionOf pa = .peer then .ok (none, sc)
    else match r.line sc (pa / 64) with
      | .ok (d, sc) => .ok (d.tag, sc)
      | .error e => .error e

/-- The 64 bytes of a tile header (R117, R285). -/
def headerBits (t : Option Tag) : Nat :=
  match t with
  | none => 0
  | some t => t.record.toNat + (t.fmt % 32 + t.geom % 2 * 32 + 64) * 2 ^ 64 + (t.bi % 2 ^ 32) * 2 ^ 128 + (t.bj % 2 ^ 32) * 2 ^ 160

/-- The tags of the source lines of a command, with the destination block of each element (R285). -/
def Reader.tags (r : Reader) (k : CopyCmd) (src : Option Side) (sc : Scan) : Except ReadStop (List ((Nat × Nat) × Option Tag) × Scan) :=
  (List.range k.total).foldlM (fun (acc : List ((Nat × Nat) × Option Tag) × Scan) n =>
    match k.item n, k.dst with
    | (some d, from_), some sh => do
      let (tag, sc) ← (match from_, src with
        | some p, some side => r.tagAt k side p acc.2
        | _, _ => .ok (none, acc.2) : Except ReadStop (Option Tag × Scan))
      return (acc.1 ++ [(if sh.geom = 0 then (0, 0) else sh.blockOf d.1 d.2, tag)], sc)
    | _, _ => .ok acc) ([], sc)

/-- The offsets of the blocks that a shape touches (R163). -/
def Shape.blocks (sh : Shape) : List (Nat × Nat) :=
  let last := sh.blockOf (sh.rows - 1) (sh.cols - 1)
  (List.range (last.1 + 1)).flatMap (fun i => (List.range (last.2 + 1)).map (fun j => (i, j)))

/-- The headers that a command writes, one for each block of its destination: its place, and its bytes, all zero for a block
that no source line with a tag goes to (R285). -/
def headersOf (sh : Shape) (tags : List ((Nat × Nat) × Option Tag)) : List (Nat × Nat) :=
  if sh.hdrrec then
    sh.blocks.map (fun b => (sh.recordPlace b, headerBits ((tags.filter (fun e => e.1 == b)).findSome? Prod.snd)))
  else []

/-- The index list of a command (R289, R294). -/
def Reader.indexList (r : Reader) (sc : Scan) (off : Nat) (n : Nat) : Except ReadStop (List Int × Scan) :=
  (List.range n).foldlM (fun (acc : List Int × Scan) i => do
    let ((x, _), sc) ← r.bytes acc.2 1 ((off + 4 * i : Nat) : Int) 4
    return (acc.1 ++ [signedOf 32 x], sc)) ([], sc)

/-- A command as it starts: its records, its index list and every check of R288; with the headers to write. -/
def Reader.startCopy (r : Reader) (data : Reader) (s : State) (k : CopyCmd) : Except ReadStop ((CopyCmd × List (Nat × Nat)) × Scan) := do
  let (d, sc) ← r.shape { s := s } k.drec
  let (src, sc) ← (if k.fills then .ok (none, sc) else do
    let (x, sc) ← r.shape sc k.srec
    return (some x, sc) : Except ReadStop (Option Shape × Scan))
  let (_, sc) ← need (!d.hdrrec || (d.space == 1 && d.geom != 0)) sc
  let (_, sc) ← need (match src with
    | none => true
    | some x => x.width == d.width && x.cols == d.cols && (k.indexed || x.rows == d.rows)) sc
  let n := if k.gathers then d.rows else if k.scatters then (src.map Shape.rows).getD 0 else 0
  let (list, sc) ← r.indexList sc k.index_ n
  let k := { k with started := true, dst := some d, src := src, list := list }
  match s.sideOf r.core k d, (match src with
    | none => some none
    | some x => (s.sideOf r.core k x).map some) with
  | some ds, some ss => do
    let items := (List.range k.total).map k.item
    let dests := items.filterMap Prod.fst
    let froms := items.filterMap Prod.snd
    let (_, sc) ← need (s.within ds) sc
    let (_, sc) ← need (match ss with
      | some side => s.within side
      | none => true) sc
    let own := r.carve
    let places := if d.hdrrec then d.blocks.map d.recordPlace else []
    let (_, sc) ← need (places.all (fun a => s.inCarve own a 64)) sc
    let (pages, sc) ← dests.foldlM (fun acc p => r.addPages ds .store p acc) (([] : Table Nat), sc)
    let (pages, sc) ← (match ss with
      | some side => froms.foldlM (fun acc p => r.addPages side .load p acc) (pages, sc)
      | none => .ok (pages, sc) : Except ReadStop (Table Nat × Scan))
    let k := { k with pages := pages }
    let (tags, sc) ← data.tags k ss sc
    let found := tags.filterMap Prod.snd
    let (_, sc) ← need (d.hdrrec || ds.carve.isNone || found.isEmpty) sc
    if found.any (fun t => (if t.geom = 1 then 32 else 16) != d.geom) then .error (.fault .format 0)
    else return ((k, headersOf d tags), sc)
  | _, _ => .error .shape

/-- A command leaves the engine: its ranges are released and its flag falls (R288, R293). -/
def State.dropCmd (s : State) (core : Nat) (k : CopyCmd) : State :=
  let c := (s.core core).unlock k.id
  let s := { s with peerData := s.peerData.filter (fun d => d.op != k.id) }
  (s.setCore core { c with cmds := c.cmds.filter (fun p => p.id != k.id) }).onGangBehind core k.slot k.block k.gangId
    (fun g => g.lowerFlag k.flag)

/-- A command of a core replaced. -/
def State.setCmd (s : State) (core : Nat) (k : CopyCmd) : State :=
  let c := s.core core
  s.setCore core { c with cmds := c.cmds.map (fun p => if p.id = k.id then k else p) }

/-- A deferred engine fault (R288). -/
def State.deferCmd (s : State) (core : Nat) (k : CopyCmd) (c : Cause) (addr : Nat) : State :=
  (s.dropCmd core k).onGangBehind core k.slot k.block k.gangId (fun g => { g with
    deferred := g.deferred ++ [{ op := k.id, engine := true, cause := c, pc := k.pc, word := k.word, index := k.index
                                 addr := BitVec.ofNat 64 addr, code := 0, slice := k.slice }] })

/-- Poison that a command consumes kills its gang with KIND 1 (R399, R400). -/
def State.killCmd (s : State) (core : Nat) (k : CopyCmd) : State :=
  let there := (s.gangBehind core k.slot k.block k.gangId).isSome
  let s := s.dropCmd core k
  if there then s.kill core k.slot { cause := .uncorr, kind := 1, pc := k.pc, word := k.word, index := k.index, slice := some k.slice } else s

/-- Whether a block's engine commands stop at their granule boundaries: it is being saved, or its tenant torn down, and every
group that this stops has stopped (R291, R355, R364). -/
def State.enginesHeld (s : State) (block : Nat) : Bool :=
  let stands := fun (p : Nat × Block → Bool) => s.blocks.all (fun e => e.2.ended || !p e || (s.gangsOf e.1).all Gang.stands)
  (s.inSet block && stands (fun e => s.inSet e.1)) ||
    (s.tenantState (s.block block).tenant == 3 && stands (fun e => e.2.tenant == (s.block block).tenant))

/-- Whether a command must wait to start: for the command before it on its channel (R277), and for its gang's earlier
acquires, fences, stores and scratchpad accesses, after which it reads its records and its index list (R232, R236, R289). -/
def State.cmdHeld (s : State) (core : Nat) (k : CopyCmd) : Bool :=
  let key := gangKey core k.slot
  ((s.core core).cmds.takeWhile (fun p => p.id != k.id)).any (fun p => p.block == k.block && p.chan == k.chan) ||
    s.heldFrom key k.id || (s.unperformed key ++ s.scratchOps key).any (fun p => decide (p.id < k.id)) || s.enginesHeld k.block

/-- ENGINE_COMMAND_START (R277, R288). -/
def execEngineCommandStart (core cmd : Nat) (s : State) : Result :=
  match (s.core core).cmds.find? (fun k => k.id == cmd) with
  | none => .next s
  | some k =>
    if k.started || k.stopping || s.cmdHeld core k then .next s
    else
      let discarded := k.next == 0 && (match s.gangBehind core k.slot k.block k.gangId with
        | some g => (g.deferred ++ g.taken.toList).any (fun d => d.engine && decide (d.op < k.id))
        | none => false)
      if discarded then .next (s.dropCmd core k)
      else
        match (s.recordReader core k).startCopy { s.copyReader core k with weak := k.gathers } s k with
        | .error .waits => .next s
        | .error .poison => .next (s.killCmd core k)
        | .error (.fault c a) => .next (s.deferCmd core k c a)
        | .ok ((k', headers), sc) =>
          let own := (s.copyReader core k).carve
          let s := if k.next = 0 then headers.foldl (fun s h =>
              s.writeCarveBytes own ((List.range 64).map (fun i => ⟨h.1 + i, 255, BitVec.ofNat 8 (h.2 / 2 ^ (8 * i))⟩))) sc.s else sc.s
          .next ((s.setCmd core k').onGangBehind core k.slot k.block k.gangId (fun g => g.scanned sc))

/-! ## Landing granules (R278, R279, R282, R284, R290) -/

/-- One byte of a source element of a command. -/
def Reader.sourceByte (r : Reader) (k : CopyCmd) (side : Side) (sc : Scan) (a : Int) : Except ReadStop (Nat × Scan) :=
  if side.gone then .ok (0, { sc with gone := true })
  else match side.carve with
    | some c =>
      match carveByte c sc a with
      | .ok ((b, _), sc) => .ok (b, sc)
      | .error e => .error e
    | none =>
      let pa := k.physical a
      if regionOf pa = .peer then
        match sc.s.peerData.find? (fun d => d.op == k.id && d.line == pa / 64) with
        | none => .error .waits
        | some d =>
          if d.poison then .error .poison
          else .ok (if d.refused then 0 else lineField d.data (pa % 64) 1, { sc with gone := sc.gone || d.refused })
      else match r.line sc (pa / 64) with
        | .error e => .error e
        | .ok (d, sc) => if d.poison then .error .poison else .ok (lineField d.data (pa % 64) 1, sc)

/-- The bits of a source element. -/
def Reader.sourceBits (r : Reader) (k : CopyCmd) (side : Side) (sc : Scan) (p : Nat × Nat) : Except ReadStop (Nat × Scan) := do
  let (a, lo) := side.sh.place p.1 p.2
  let (x, sc) ← (List.range side.sh.elemBytes).foldlM (fun (acc : Nat × Scan) (n : Nat) => do
    let (b, sc) ← r.sourceByte k side acc.2 (a + (n : Int))
    return (acc.1 + b * 2 ^ (8 * n), sc)) (0, sc)
  return (field x lo side.sh.width, sc)

/-- The writes of a granule: every element read, and the bytes that its destination takes, a later one in its place
(R278). -/
def Reader.granuleWrites (r : Reader) (k : CopyCmd) (ds : Side) (ss : Option Side) (sc : Scan) (g : Nat) :
    Except ReadStop (List ByteWrite × Scan) :=
  (k.granule g).foldlM (fun (acc : List ByteWrite × Scan) n => do
    let (dest_, from_) := k.item n
    let (x, sc) ← (match from_, ss with
      | some p, some side => r.sourceBits k side acc.2 p
      | _, _ => .ok (if k.fills then field k.srec 0 k.width else 0, acc.2) : Except ReadStop (Nat × Scan))
    match dest_ with
    | none => return (acc.1, sc)
    | some p =>
      let (a, lo) := ds.sh.place p.1 p.2
      let places := (List.range ds.sh.elemBytes).map (fun (i : Nat) => if ds.carve.isSome then (a + (i : Int)).toNat else k.physical (a + (i : Int)))
      return (acc.1 ++ elemWrites ds.sh lo places x, sc)) ([], sc)

/-- A peer of a command's granule has ended, or another device has not answered: ERR in CWPn, and PEERGONE with ENGGONE
for the report of the block (R290, R395). -/
def State.noteEngGone (s : State) (core : Nat) (k : CopyCmd) : State :=
  let s := s.onBlock k.block (fun b => { b with cwp := Table.set 0 b.cwp k.chan (Table.get 0 b.cwp k.chan ||| BitVec.ofNat 64 (2 ^ 56)) })
  match s.gangBehind core k.slot k.block k.gangId with
  | some g => s.setGang ({ g with lcause := laneEvent g.lcause .peergone }.stickyCause 18)
  | none => s.onBlock k.block (fun b =>
      let l := laneEvent (BitVec.ofNat 64 (Table.get 0 b.causes k.gangId)) .peergone ||| BitVec.ofNat 64 (2 ^ 18)
      { b with causes := Table.set 0 b.causes k.gangId l.toNat })

/-- CWPn after `n` more payload bytes and `done` more commands (R279). -/
def cwpAfter (v : Word64) (n done : Nat) : Word64 :=
  BitVec.ofNat 64 ((v.toNat + n) % 2 ^ 48 + (field v.toNat 48 8 + done) % 256 * 2 ^ 48 + v.toNat / 2 ^ 56 * 2 ^ 56)

/-- CWPn of a command's block changed.  A command of the supervisor gang, which belongs to no block, acts on the supervisor
scratchpad and counts nowhere: that gang's CWP registers read 0 (DESIGN CHOICE, log entry 83). -/
def State.bumpCwp (s : State) (k : CopyCmd) (n done : Nat) : State :=
  s.onBlock k.block (fun b => { b with cwp := Table.set 0 b.cwp k.chan (cwpAfter (Table.get 0 b.cwp k.chan) n done) })

/-- The destination lock of a command after the granules before `next` have landed (R284). -/
def Core.shrinkLock (c : Core) (k : CopyCmd) : Core :=
  match k.dst with
  | none => c
  | some sh =>
    if sh.rstride < 0 then c
    else
      { c with locks := c.locks.map (fun l =>
          if l.cmd = k.id ∧ l.kind = 2 then
            match (k.item (k.next * k.perGranule)).1 with
            | some p => { l with low := if k.next * k.perGranule < k.total then (({ sh with base := if sh.space = 1 then sh.base % 2 ^ 20 else sh.base } : Shape).place p.1 p.2).1.toNat else l.high }
            | none => l
          else l) }

/-- The granule in flight has landed: CWPn, the lock and the barrier object advance; the last one completes the command
(R278, R279, R282, R293).  A command of a killed gang ends here without counts (R400). -/
def State.landGranule (s : State) (core : Nat) (k : CopyCmd) : State :=
  let n := k.payload (k.granule k.next).length
  let s := (s.bumpCwp k n 0).count core 13 n
  let k := { k with next := k.next + 1, sent := false, peerAcks := [] }
  if k.stopping then s.dropCmd core k
  else
    let s := s.setCore core ((s.core core).shrinkLock k)
    let own := (s.copyReader core k).carve
    let s := if k.counts then (s.raisePhaseTs own k.barrier k.wts).updateBarrier own k.barrier 2 (fun b => b.land n) else s
    if k.next * k.perGranule < k.total then
      { s.setCmd core k with peerData := s.peerData.filter (fun d => d.op != k.id) }
    else
      let s := if k.arrives then s.arriveAt own k.barrier 1 k.wts 2 else s
      (s.bumpCwp k 0 1).dropCmd core k

/-- The next granule of a command is read and written: scratchpad bytes land at once; global ones enter the FIFO, to land
when they are acknowledged (R244, R278). -/
def State.sendGranule (s : State) (core : Nat) (k : CopyCmd) (ds : Side) (ss : Option Side) : State :=
  let r := { s.copyReader core k with weak := k.gathers }
  match r.granuleWrites k ds ss { s := s } k.next with
  | .error .waits => s
  | .error .poison => s.killCmd core k
  | .error (.fault _ _) => s
  | .ok (writes, sc) =>
    let s := if sc.gone || ds.gone then sc.s.noteEngGone core k else sc.s
    if ds.gone then s.landGranule core k
    else match ds.carve with
      | some c => (s.writeCarveBytes c writes).landGranule core k
      | none =>
        let there := (s.gangBehind core k.slot k.block k.gangId).isSome
        match s.writeGlobalBytes { r with weak := false } writes (fun n mask data =>
          { id := 0, line := n, mask := mask, shown := mask, view := data, data := data, pts := k.pts, gangs := []
            writers := if there then [gangKey core k.slot] else [], engines := [k.id], launches := [(s.block k.block).launch] }) with
        | none => s
        | some (s, away) => s.setCmd core { k with sent := true, peerAcks := away }

/-- GRANULE_LAND: the next granule of a started command is made, or the one in flight lands once its bytes are
acknowledged (R278). -/
def execGranuleLand (core cmd : Nat) (s : State) : Result :=
  match (s.core core).cmds.find? (fun k => k.id == cmd) with
  | none => .next s
  | some k =>
    if !k.started then .next s
    else if k.sent then
      if (s.core core).fifo.any (fun e => e.engines.contains k.id) || !k.peerAcks.isEmpty then .next s
      else .next (s.landGranule core k)
    else if s.enginesHeld k.block then .next s
    else
      match k.dst.bind (s.sideOf core k), (match k.src with
        | none => some none
        | some x => (s.sideOf core k x).map some) with
      | some ds, some ss => .next (s.sendGranule core k ds ss)
      | _, _ => .next s

end Sys2Proof.Machine
end

