-- ==== Sys2Proof/Machine/CrossLane.lean ====
section
/-! DEFINITION. Cross-lane forms (R152 to R155) and the lane-value forms of major 0x1F (R156, R157). -/

namespace Sys2Proof.Machine

/-! ## Members (R152) -/

/-- Whether a lane is live: its slice has not exited (R152). -/
def Gang.isLive (g : Gang) (lane : Nat) : Bool := !g.exited.getLsbD (lane / 4)

/-- The lanes of the member mask. -/
def Gang.memberLanes (g : Gang) (m : BitVec 4) : List Nat := (List.range 64).filter (fun l => (g.mask m.toNat).getLsbD l)

/-- Whether some active lane is not a member: the form raises MEMBER (R152). -/
def Gang.outsider (g : Gang) (m : BitVec 4) : Bool := g.active.any (fun l => !(g.mask m.toNat).getLsbD l)

/-- Whether the uniform operands of a cross-lane form differ: ETYPE, and RND and FTZ where the form computes (`computes`) and the
type is floating; a form that moves, compares or folds bits is no floating operation (R152). -/
def Gang.crossDiffers (g : Gang) (computes : Bool) : Bool :=
  !g.uniformMode modeEtype ||
    (computes && (etype (modeEtype g.firstMode)).fmt != none &&
      !g.uniformMode (fun m => modeRnd m + 8 * (if modeFtz m then 1 else 0)))

/-- A cross-lane form: its demand with the uniform operands, the MEMBER check, then its effect. -/
def State.crossLane (s : State) (m : BitVec 4) (computes : Bool) (dem : Demand) (f : Gang → Gang) : Result :=
  s.issue { dem with differs := dem.differs || s.here.crossDiffers computes } (fun s =>
    if s.here.outsider m then s.precise .member
    else (s.onHere f).done dem.writes)

/-! ## Movement and step forms (R153) -/

/-- The value that lane `i` takes from partner `p` in a movement form (R153). -/
def Gang.partnerValue (g : Gang) (m : BitVec 4) (a : BitVec 8) (i p : Nat) : Nat :=
  if !(g.mask m.toNat).getLsbD p then g.src a i
  else if g.isLive p then g.operand (g.wideLane i) a.toNat p
  else 0

/-- Whether lane `i` reads an exited member. -/
def Gang.readsExited (g : Gang) (m : BitVec 4) (p : Nat) : Bool := (g.mask m.toNat).getLsbD p && !g.isLive p

/-- A movement form with its partner function. -/
def State.movement (s : State) (d a : BitVec 8) (m k : BitVec 4) (reads : List (BitVec 8))
    (partner : Gang → Nat → Nat → Nat) : Result :=
  let dem := s.here.vectorDemand .any reads [d]
  s.crossLane m false { dem with illegal := dem.illegal || decide (6 < k.toNat) } (fun g =>
    let w := 64 / 2 ^ k.toNat
    let h := g.writeLanes g.active d.toNat (fun i => g.partnerValue m a i (partner g w i))
    if g.active.any (fun i => g.readsExited m (partner g w i)) then h.stickyCause 16 else h)

/-- VXORL (R153). -/
def execVxorl (d a : BitVec 8) (m k : BitVec 4) (s : State) : Result :=
  s.movement d a m k [a] (fun _ w i => (i ^^^ w) % 64)
/-- VROTL (R153). -/
def execVrotl (d a : BitVec 8) (m k : BitVec 4) (s : State) : Result :=
  s.movement d a m k [a] (fun _ w i => (i + w) % 64)
/-- VBCL: the partner index is read from Vd before the write (R153). -/
def execVbcl (d a : BitVec 8) (m k : BitVec 4) (s : State) : Result :=
  s.movement d a m k [a, d] (fun g w i => i - i % w + g.src d i % w)

/-- The identity of ADD for an element: 0, or −0 under FLT (R153, R154). -/
def EType.addIdentity (t : EType) : Nat := if t.fmt = none then 0 else 2 ^ (t.width - 1)

/-- VLSTEP: the sum of the lower-indexed and the higher-indexed value (R153). -/
def execVlstep (d a : BitVec 8) (m k : BitVec 4) (s : State) : Result :=
  let dem := s.here.vectorDemand .any [a] [d]
  s.crossLane m true { dem with illegal := dem.illegal || decide (6 < k.toNat) } (fun g =>
    let w := 64 / 2 ^ k.toNat
    let t := etype (modeEtype g.firstMode)
    let fm := floatMode g.firstMode
    let partner := fun i => (i ^^^ w) % 64
    let value := fun i p e =>
      if (g.mask m.toNat).getLsbD p && g.isLive p then t.elem (g.operand (g.wideLane i) a.toNat p) e else t.addIdentity
    let h := g.writeLanes g.active d.toNat (fun i =>
      let p := partner i
      t.build (fun e =>
        let own := t.elem (g.src a i) e
        if p < i then t.add fm (value i p e) own else t.add fm own (value i p e)))
    if g.active.any (fun i => g.readsExited m (partner i)) then h.stickyCause 16 else h)

/-! ## Scans, reductions, votes and matches (R154, R155) -/

/-- The identity of an operation for an element type (R154). -/
def EType.identity (t : EType) (op : Nat) : Nat :=
  match op with
  | 0 => t.addIdentity
  | 1 => match t.fmt with
    | none => wrapTo t.width (intMax t.signed t.width)
    | some f => f.infCode.getD f.nan
  | 2 => match t.fmt with
    | none => wrapTo t.width (intMin t.signed t.width)
    | some f => match f.infCode with
      | some c => f.pack true c
      | none => f.nan
  | 3 => 2 ^ t.width - 1
  | _ => 0

/-- One step of the fold (R154). -/
def EType.foldStep (t : EType) (fm : FloatMode) (op acc x : Nat) : Nat :=
  match op with
  | 0 => t.add fm acc x
  | 1 => t.pick false fm acc x
  | 2 => t.pick true fm acc x
  | 3 => acc &&& x
  | 4 => acc ||| x
  | _ => acc ^^^ x

/-- The fold of element `e` over member lanes in increasing index, exited members supplying the identity (R154). -/
def Gang.foldMembers (g : Gang) (a : BitVec 8) (op e : Nat) (lanes : List Nat) : Nat :=
  let t := etype (modeEtype g.firstMode)
  lanes.foldl (fun acc l =>
    t.foldStep (floatMode g.firstMode) op acc
      (if g.isLive l then t.elem (g.operand g.anyWide a.toNat l) e else t.identity op)) (t.identity op)

/-- VSCAN (R154).  The form sets the exited-member status where an exited member lies at or below an active lane, whose prefix
alone reads it (log entry 65). -/
def execVscan (d a : BitVec 8) (m o : BitVec 4) (s : State) : Result :=
  let dem := s.here.vectorDemand .any [a] [d]
  s.crossLane m (decide (o.toNat ≤ 2)) { dem with illegal := dem.illegal || decide (5 < o.toNat) } (fun g =>
    let t := etype (modeEtype g.firstMode)
    let ms := g.memberLanes m
    let h := g.writeLanes g.active d.toNat (fun i =>
      t.build (fun e => g.foldMembers a o.toNat e (ms.filter (fun l => decide (l ≤ i)))))
    if ms.any (fun l => !g.isLive l && g.active.any (fun i => decide (l ≤ i))) then h.stickyCause 16 else h)

/-- VREDS: the fold over all member lanes, to Sd in every slice of the group (R154).  It reads every member, so that an exited one
sets the exited-member status whatever EXEC holds (log entry 65). -/
def execVreds (d : BitVec 6) (a : BitVec 8) (m o : BitVec 4) (s : State) : Result :=
  let dem := s.here.vectorDemand .any [a] []
  s.crossLane m (decide (o.toNat ≤ 2)) { dem with illegal := dem.illegal || decide (5 < o.toNat) } (fun g =>
    let et := modeEtype g.firstMode
    let t := etype et
    let ms := g.memberLanes m
    let x := t.build (fun e => g.foldMembers a o.toNat e ms)
    let v : Word64 := if et = 0 then sext64 (BitVec.ofNat 32 x) else BitVec.ofNat 64 x
    let h := g.writeS g.members d.toNat (fun _ => v)
    if ms.any (fun l => !g.isLive l) then h.stickyCause 16 else h)

/-- VVOTE: ALL, ANY, BALLOT or UNI of a mask over the live members (R155).  SCC tells whether the value is not zero, also where Sd
is S0; an exited member sets the exited-member status whatever EXEC holds (log entry 65). -/
def execVvote (d : BitVec 6) (a m o : BitVec 4) (s : State) : Result :=
  s.crossLane m false { illegal := decide (3 < o.toNat) } (fun g =>
    let ms := g.memberLanes m
    let live := ms.filter g.isLive
    let bit := fun l => (g.mask a.toNat).getLsbD l
    let v : Word64 := match o.toNat with
      | 0 => if live.all bit then 1 else 0
      | 1 => if live.any bit then 1 else 0
      | 2 => BitVec.ofNat 64 (maskOf (live.filter bit))
      | _ => if live.all bit || live.all (fun l => !bit l) then 1 else 0
    let h := (g.writeS g.members d.toNat (fun _ => v)).writeScc g.members (fun _ => v != 0)
    if ms.any (fun l => !g.isLive l) then h.stickyCause 16 else h)

/-- VMATCH: DUP or LEAD among the live members (R155).  An exited member sets the exited-member status whatever EXEC holds (log
entry 65). -/
def execVmatch (d : BitVec 4) (a : BitVec 8) (m o : BitVec 4) (s : State) : Result :=
  let dem := s.here.vectorDemand .any [a] []
  s.crossLane m false { dem with illegal := dem.illegal || decide (1 < o.toNat) } (fun g =>
    let ms := g.memberLanes m
    let live := ms.filter g.isLive
    let same := fun i l => g.operand g.anyWide a.toNat l == g.src a i
    let p := fun i => if o = 0 then live.any (fun l => l != i && same i l)
      else !(live.any (fun l => decide (l < i) && same i l))
    let h := g.writeMask d.toNat g.active (BitVec.ofNat 64 (maskOf (g.active.filter p)))
    if ms.any (fun l => !g.isLive l) then h.stickyCause 16 else h)

/-! ## Lane values (R156, R157) -/

/-- hash(key, SEED)[63:32] with the key of VRNG (R157). -/
def Gang.laneHash (g : Gang) (a b : BitVec 8) (lane : Nat) : Nat :=
  field (hash64 (BitVec.ofNat 64 ((g.vword a.toNat lane).toNat + 2 ^ 32 * (g.vword b.toNat lane).toNat)) g.seed).toNat 32 32

/-- The element types that VRNG and VDROP accept: none of 64 bits (R157). -/
def narrowTypes : Accepts := .only [0, 1, 2, 3, 4, 5, 6, 7, 8, 12, 13]

/-- VRNG (R157). -/
def execVrng (d a b : BitVec 8) (s : State) : Result := s.vectorOp narrowTypes [a, b] d (fun g _ l => g.laneHash a b l)
/-- VDROP (R157). -/
def execVdrop (d a b : BitVec 8) (s : State) : Result :=
  s.vectorOp narrowTypes [a, b, d] d (fun g _ l => if g.laneHash a b l < (g.vword d.toNat l).toNat then 2 ^ 32 - 1 else 0)
/-- VBCST (R157). -/
def execVbcst (d : BitVec 8) (a : BitVec 6) (s : State) : Result :=
  s.vectorOp .any [] d (fun g _ l => (g.sreg (l / 4) a.toNat).toNat)
/-- VLANE (R157). -/
def execVlane (d : BitVec 8) (s : State) : Result := s.vectorOp .any [] d (fun _ _ l => l)

end Sys2Proof.Machine
end

