-- ==== Sys2Proof/Machine/Delta.lean ====
section
/-! DEFINITION. The delta engine and Umbra state (08_delta_engine.md), and the steps of the matrix queue that it shares:
start and add. -/

namespace Sys2Proof.Machine

/-! ## Umbra entries (R191 to R195) -/

/-- Whether an entry has a key (R191). -/
def UmbraEntry.has (e : UmbraEntry) (tenant layer key : Nat) : Bool := e.tenant == tenant && e.layer == layer && e.key == key

/-- The entry with a key. -/
def State.umbraAt (s : State) (tenant layer key : Nat) : Option UmbraEntry := s.umbra.find? (fun e => e.has tenant layer key)

/-- The bytes of the Umbra region that an entry of `n` K-steps takes (R192). -/
def umbraBytes (n : Nat) : Nat := 9216 + 12288 * n

/-- The bytes of a tenant's Umbra region (R192). -/
def State.umbraSize (s : State) (tenant : Nat) : Nat := 65536 * field (s.tenantReg tenant 8) 0 32

/-- Entries dropped, oldest first, until the rest take at most `room` bytes. -/
def dropUntil (room : Nat) : List UmbraEntry → List UmbraEntry
  | [] => []
  | e :: rest => if (e :: rest).foldl (fun n x => n + umbraBytes x.slots.length) 0 ≤ room then e :: rest else dropUntil room rest

/-- A place in a region of `size` bytes for `need` more, beside the entries that stand there. -/
def gapFor (there : List UmbraEntry) (size need : Nat) : Option Nat :=
  (0 :: there.map (fun e => e.place + umbraBytes e.slots.length)).find? (fun p =>
    decide (p + need ≤ size) && there.all (fun e => decide (p + need ≤ e.place) || decide (e.place + umbraBytes e.slots.length ≤ p)))

/-- An entry written (R192).  The spec leaves open where its bytes stand in the region: here at the first place that holds them,
their contents in `State.umbra`, apart from `State.mem`, so no store to the region's bytes meets them (DESIGN CHOICE, log
entry 67).  Where no place holds them, other entries of the tenant are evicted: a choice that nothing fixes, or all of them
where that leaves no place.  An entry larger than the region is not written, and any held for its key goes. -/
def State.umbraWrite (s : State) (e : UmbraEntry) : State :=
  let others := s.umbra.filter (fun x => !x.has e.tenant e.layer e.key)
  let mine := others.filter (fun x => x.tenant == e.tenant)
  let foreign := others.filter (fun x => x.tenant != e.tenant)
  let size := s.umbraSize e.tenant
  let need := umbraBytes e.slots.length
  if size < need then { s with umbra := others }
  else match gapFor mine size need with
    | some p => { s with umbra := others ++ [{ e with place := p }] }
    | none =>
      let choice := (Config.freeValue s.tick).toNat
      let kept := ((List.range mine.length).zip mine).filterMap (fun p => if bitOf choice p.1 then none else some p.2)
      { s with
        umbra := match gapFor kept size need with
          | some p => foreign ++ kept ++ [{ e with place := p }]
          | none => foreign ++ [{ e with place := 0 }]
        tick := s.tick + 1 }

/-- The bytes of a core's Umbra cache (R193). -/
def umbraCacheBytes : Nat := 131072

/-- The Umbra cache of a core takes in the pieces of an entry.  Where it has no room for them, it gives up other entries: a
choice that nothing fixes, and then as many as it takes (R193).  An entry larger than the cache has pieces there by itself. -/
def State.holdEntry (s : State) (core tenant layer key : Nat) : State :=
  match s.umbraAt tenant layer key with
  | none => s
  | some e =>
    let mine := s.umbra.filter (fun x => x.cachedBy == some core && !x.has tenant layer key)
    let need := min (umbraBytes e.slots.length) umbraCacheBytes
    let fits := decide (mine.foldl (fun n x => n + umbraBytes x.slots.length) 0 + need ≤ umbraCacheBytes)
    let choice := (Config.freeValue s.tick).toNat
    let kept := if fits then mine else dropUntil (umbraCacheBytes - need)
      (((List.range mine.length).zip mine).filterMap (fun p => if bitOf choice p.1 then none else some p.2))
    { s with
      umbra := s.umbra.map (fun x =>
        if x.has tenant layer key then { x with cachedBy := some core }
        else if x.cachedBy == some core && !kept.contains x then { x with cachedBy := none } else x)
      tick := if fits then s.tick else s.tick + 1 }

/-! ## The LAYER register (R196) -/

/-- LAYER.EN. -/
def layerEn (l : Nat) : Bool := bitOf l 32
/-- LAYER.ID. -/
def layerId (l : Nat) : Nat := field l 0 16
/-- LAYER.THETA. -/
def layerTheta (l : Nat) : Nat := field l 16 8
/-- LAYER.REFRESH. -/
def layerRefresh (l : Nat) : Nat := field l 24 8

/-- LAYER (R206): LAYER := Sa under R196, whose checks every participating slice's Sa meets, as by SWR. -/
def execLayer (a : BitVec 6) (s : State) : Result :=
  let v := s.here.uniformS a.toNat
  s.issueGang { s.here.uniformDemand [a] with illegal := s.here.members.any (fun sl => !layerOk (s.here.sreg sl a.toNat).toNat) } (fun g => { g with layer := v })

/-! ## DMMA and DREFRESH (R200 to R203) -/

/-- A delta form enters the queue (R206). -/
def State.deltaWord (s : State) (force : Bool) (d : BitVec 5) (a b : BitVec 6) (f : BitVec 4) : Result :=
  let va := (s.here.uniformS a.toNat).toNat
  let vb := (s.here.uniformS b.toNat).toNat
  s.matrixWord { s.here.uniformDemand [a, b] with flag := f } (.dmma force)
    (fun s => ((s.tileFault d.toNat).orElse (fun _ => s.recordFaultAt va)).orElse (fun _ => s.recordFaultAt vb)) d.toNat va vb

/-- DMMA (R203). -/
def execDmma (d : BitVec 5) (a b : BitVec 6) (f : BitVec 4) (s : State) : Result := s.deltaWord false d a b f
/-- DREFRESH (R203). -/
def execDrefresh (d : BitVec 5) (a b : BitVec 6) (f : BitVec 4) (s : State) : Result := s.deltaWord true d a b f

/-- A slot table: its leading valid entries; the bytes from +0x20 on are zero (R200). -/
def slotTable (x : Nat) : Option (List Nat) := if field x 256 256 = 0 then slotList x 32 else none

/-- A delta operation as it starts: its shape, its slots, and its K-steps (R178, R201). -/
def Reader.startDelta (r : Reader) (s : State) (o : MatOp) : Except ReadStop (MatOp × Scan) := do
  let (x, sc) ← r.record { s := s } o.record
  let (t, sc) ← r.record sc o.list
  match parseShape x, slotTable t with
  | some sh, some descs => do
    let (_, sc) ← need (sh.aOk descs.length false) sc
    let (_, sc) ← checkSlots r.core sh false true descs sc
    let version := sc.wts
    let (steps, sc) ← r.kSteps sc sh false descs
    return ({ o with started := true, shape := some sh, steps := steps, key := sh.key, version := version }, sc)
  | _, _ => .error .shape

/-- REGION and GEN of the slot of each K-step. -/
def State.sourcesOf (s : State) (core : Nat) (o : MatOp) : List (Nat × Nat) :=
  o.steps.map (fun k => ((s.slotOf core k.desc).region, (s.slotOf core k.desc).gen))

/-- Whether an entry is fresh for an operation (R202). -/
def State.isFresh (s : State) (e : UmbraEntry) (o : MatOp) (sh : Shape) : Bool :=
  e.slots == o.steps.map (fun k => k.desc % 64) && e.fmt == sh.fmt && e.geom == sh.geom && e.rows == sh.rows && e.cols == sh.cols &&
    e.sources.all (fun p => Table.get 0 s.wsGen p.1 == p.2) &&
    o.steps.map (fun k => k.tile.scales) == e.astar.map Aligned.scales &&
    e.ystar.all (fun p => f32Fin p.2) && o.steps.all (fun k => k.tile.finite) && decide (e.count < layerRefresh o.layer)

/-- The delta path: each K-step's difference and its plane cycles (R203, R205). -/
def MatOp.onEntry (o : MatOp) (e : UmbraEntry) (pm : Nat) : MatOp :=
  { o with
    entry := some e
    steps := (o.steps.zip e.astar).map (fun p =>
      let d := difference p.1.tile p.2 (layerTheta o.layer)
      { p.1 with diff := some d, cost := deltaCycles d pm }) }

/-- The delta operations of a tenant on one key that have started and are not complete (R194). -/
def State.deltaRunning (s : State) (p : Nat → MatOp → Bool) : Bool :=
  s.cores.any (fun e => e.2.mq.any (fun o => o.isDelta && o.started && layerEn o.layer && p (s.block o.block).tenant o))

/-- A delta operation starts (R194, R203): with EN it waits for the operation that has its entry, and for the Umbra cache
of another core that holds it; then it takes the delta path where the entry is fresh. -/
def State.startDelta (s : State) (core : Nat) (o : MatOp) : State :=
  if s.matDiscarded core o then s.dropMat core o
  else
    match (s.matReader core o).startDelta s o with
    | .error e => s.beginMat core o (.error e)
    | .ok (q, sc) =>
      let tenant := (s.block o.block).tenant
      let id := layerId o.layer
      if layerEn o.layer = false then s.beginMat core o (.ok (q, sc))
      else if s.deltaRunning (fun t p => t == tenant && layerId p.layer == id && p.key == q.key) then s
      else
        let entry := s.umbraAt tenant id q.key
        let holder := entry.bind UmbraEntry.cachedBy
        if holder.isSome && holder != some core then s
        else
          let force : Bool := match o.kind with
            | .dmma f => f
            | _ => false
          let pm := (q.shape.bind (fun sh => planesOf sh.fmt)).getD 0
          let q' := match entry, q.shape with
            | some e, some sh => if !force && s.isFresh e q sh then q.onEntry e pm else q
            | _, _ => q
          let s := s.beginMat core o (.ok (q', sc))
          let s := if holder.isNone then s.count core 9 1 else s
          let s := if q'.entry.isSome then s.count core 8 q'.steps.length else s
          s.holdEntry core tenant id q.key

/-- Whether a core's next operation is a delta operation that needs an entry, and may have it once no Umbra cache of another core
holds it (R194). -/
def State.needsEntry (s : State) (core tenant layer key : Nat) : Bool :=
  match s.nextMat core with
  | none => false
  | some o =>
    o.isDelta && layerEn o.layer && layerId o.layer == layer && (s.block o.block).tenant == tenant && !s.matDiscarded core o &&
      !s.deltaRunning (fun t p => t == tenant && layerId p.layer == layer && p.key == key) &&
      (match (s.matReader core o).startDelta s o with
       | .ok (q, _) => q.key == key
       | .error _ => false)

/-- UMBRA_ENTRY_TRANSFER: the operation of another core needs an entry: the Umbra cache that holds it writes it back to the
region and holds it no longer (R193, R194). -/
def execUmbraEntryTransfer (tenant layer key : Nat) (s : State) : Result :=
  match (s.umbraAt tenant layer key).bind UmbraEntry.cachedBy with
  | none => .next s
  | some holder =>
    if s.cores.keys.any (fun c => c != holder && s.needsEntry c tenant layer key) then
      .next { s with umbra := s.umbra.map (fun e => if e.has tenant layer key then { e with cachedBy := none } else e) }
    else .next s

/-- MATRIX_OP_START: the next operation of a core's queue begins: it reads its records and checks everything before its
first add (R176, R178). -/
def execMatrixOpStart (core op : Nat) (s : State) : Result :=
  match s.nextMat core with
  | none => .next s
  | some o =>
    if o.id ≠ op then .next s
    else if o.isDelta then .next (s.startDelta core o)
    else .next (s.startMat core o)

/-! ## Adds and completion (R167, R170, R176, R203) -/

/-- Y* after the add of a K-step's difference; no add where the difference is all zero (R203). -/
def addDelta (y : Table Word) (d : Aligned) (b : BSlot) : Table Word :=
  if d.mags.isEmpty then y
  else (List.range 2048).foldl (fun t k => Table.set 0 t k (accumulate (Table.get 0 y k) (kstepTotal d b (k / 64) (k % 64)))) y

/-- Plane cycles of an operation: Σ P, or Σ Pd (R208). -/
def MatOp.cycles (o : MatOp) : Nat := o.steps.foldl (fun n k => n + k.cost) 0

/-- The entry that a full path with EN writes (R203). -/
def State.freshEntry (s : State) (core : Nat) (o : MatOp) (sh : Shape) : UmbraEntry :=
  { tenant := (s.block o.block).tenant, layer := layerId o.layer, key := o.key, astar := o.steps.map KStep.tile
    ystar := (s.accTile o.block o.target).c, slots := o.steps.map (fun k => k.desc % 64), sources := s.sourcesOf core o
    fmt := sh.fmt, geom := sh.geom, rows := sh.rows, cols := sh.cols, count := 1, lastCyc := o.cycles, cachedBy := some core }

/-- A multiplication whose adds are all made completes: a delta operation writes its entry, and on the delta path its
tile (R176, R203). -/
def State.completeMat (s : State) (core : Nat) (o : MatOp) : State :=
  let s := match o.entry, o.shape with
    | some e, _ =>
      let old := s.accTile o.block o.target
      let t : AccTile := (List.range 32).foldl old.freshRow { old with c := e.ystar }
      let s := s.setAccTile o.block o.target t
      let e := { e with count := e.count + 1, lastCyc := o.cycles, cachedBy := some core }
      if (s.umbraAt e.tenant e.layer e.key).isSome then (s.umbraWrite e).holdEntry core e.tenant e.layer e.key else s
    | none, some sh =>
      if o.isDelta && layerEn o.layer then
        let e := s.freshEntry core o sh
        (s.umbraWrite e).holdEntry core e.tenant e.layer e.key
      else s
    | none, none => s
  s.dropMat core o

/-- One K-step of an operation is added, in order (R167, R170, R203). -/
def State.addKStep (s : State) (core : Nat) (o : MatOp) (j : Nat) (k : KStep) : State :=
  let b := s.slotOf core k.desc
  let s := match o.entry, k.diff with
    | some e, some d =>
      s.setMat core { o.setStep j { k with added := true } with
        entry := some { e with ystar := addDelta e.ystar d b, astar := e.astar.set j ((e.astar.getD j {}).plus d) } }
    | _, _ =>
      let (neg, first) := match o.kind with
        | .mma n ad _ => (n, ad && j == 0)
        | _ => (false, j == 0)
      (s.setAccTile o.block o.target ((s.accTile o.block o.target).addStep k.tile b neg first (bitOf k.desc 6))).setMat core
        (o.setStep j { k with added := true })
  match (s.core core).mq.find? (fun p => p.id == o.id) with
  | some q => if q.steps.all KStep.added then s.completeMat core q else s
  | none => s

/-- Whether a K-step's add may be made now: 12 cycles after its planes, or, where the delta path adds nothing, 4 cycles
after its difference is formed (R174, R176, R205). -/
def State.drained (s : State) (k : KStep) : Bool :=
  match k.diff, k.staged, k.planes with
  | some d, some r, _ => if d.mags.isEmpty then decide (r + 4 ≤ s.cycle) else (match k.planes with
    | some p => decide (p + 12 ≤ s.cycle)
    | none => false)
  | _, _, some p => decide (p + 12 ≤ s.cycle)
  | _, _, none => false

/-- A tile of a core takes one add in a cycle (R176, R419): this cycle's is made. -/
def State.noteAdd (s : State) (core : Nat) (o : MatOp) : State :=
  let c := s.core core
  s.setCore core { c with adds := (s.cycle, o.block, o.target) :: c.adds.filter (fun a => a.1 == s.cycle) }

/-- ACCUMULATOR_ADD: a started operation takes its next effect: the add of its next K-step, in queue order on its tile,
or, for a form without K-steps, its whole effect; it completes after the last (R176).  A K-step that fails its check is
done again, and a second failure kills the gang (R403). -/
def execAccumulatorAdd (core op : Nat) (s : State) : Result :=
  let c := s.core core
  match c.mq.find? (fun o => o.id == op) with
  | none => .next s
  | some o =>
    if !o.started then .next s
    else if !o.multiplies then .next (s.finishMat core o)
    else
      match (List.range o.steps.length).find? (fun j => ((o.steps[j]?).map (fun k => !k.added)).getD false) with
      | none => .next s
      | some j =>
        match o.steps[j]? with
        | none => .next s
        | some k =>
          if !s.drained k || (c.mq.takeWhile (fun e => e.id != op)).any (fun e => e.tile == o.tile) ||
              c.adds.contains (s.cycle, o.block, o.target) then .next s
          else if 2 ≤ o.mismatch then .next (s.killMat core o .pipeerr)
          else
            let s := if o.mismatch = 1 then
                let s := s.count core 14 1
                { s with mgmt := { s.mgmt with retry := s.mgmt.retry + 1 } }
              else s
            .next ((s.addKStep core { o with mismatch := 0 } j k).noteAdd core o)

/-! ## DINVAL and DSTAT (R207, R208) -/

/-- Whether an entry is among those that DINVAL names. -/
def dinvalNames (mode tenant layer key : Nat) (t l k : Nat) : Bool :=
  t == tenant && (mode == 2 || (l == layer && (mode == 1 || k == key)))

/-- Whether a delta operation that the core issued before the word on the pipe is not complete (R207 step 1, R208). -/
def State.deltaBefore (s : State) : Bool :=
  (s.core s.here.core).mq.any (fun o => o.isDelta && decide (o.id < s.here.grp.since.getD s.nextId))

/-- The bytes of the region at which an entry stands overwritten with zero (R207 step 3, log entry 67). -/
def State.zeroEntry (s : State) (e : UmbraEntry) : State :=
  let low := field (s.tenantReg e.tenant 7) 16 36 * 65536 + e.place
  { s with mem := s.mem.filter (fun c => decide (c.1 < low) || decide (low + umbraBytes e.slots.length ≤ c.1)) }

/-- DINVAL (R207). -/
def execDinval (a b : BitVec 6) (s : State) : Result :=
  s.issue (s.here.uniformDemand [a, b]) (fun s =>
    let g := s.here
    let v := (g.uniformS a.toNat).toNat
    let mode := field v 16 2
    if field v 18 46 ≠ 0 ∨ mode = 3 then s.precise .shape
    else
      let named := dinvalNames mode (s.tenantOf g) (field v 0 16) (g.uniformS b.toNat).toNat
      let s := s.noteSince false
      if s.deltaBefore || s.deltaRunning (fun t o => named t (layerId o.layer) o.key) then s.stall
      else
        let s := (s.umbra.filter (fun e => named e.tenant e.layer e.key)).foldl State.zeroEntry s
        { s with umbra := s.umbra.filter (fun e => !named e.tenant e.layer e.key) }.done)

/-- The result of DSTAT (R208). -/
def State.dstat (s : State) (core : Nat) (layer : Nat) (e : UmbraEntry) : Nat :=
  let stale := e.sources.any (fun p => Table.get 0 s.wsGen p.1 != p.2) || decide (layerRefresh layer ≤ e.count)
  1 + (if stale then 2 else 0) + (if e.cachedBy = some core then 4 else 0) + e.count % 256 * 2 ^ 8 + e.slots.length % 64 * 2 ^ 16 +
    e.lastCyc % 2 ^ 32 * 2 ^ 32

/-- DSTAT (R208).  It uses LAYER.ID and LAYER.REFRESH whatever LAYER.EN holds, and a form of the supervisor gang, which belongs to
no tenant, takes the tenant of the default block (`State.tenantOf`): DESIGN CHOICE, log entry 81. -/
def execDstat (d a : BitVec 6) (s : State) : Result :=
  s.issue (s.here.uniformDemand [a]) (fun s =>
    let g := s.here
    let s := s.noteSince false
    if s.deltaBefore then s.stall
    else
      match s.umbraAt (s.tenantOf g) (layerId g.layer.toNat) (g.uniformS a.toNat).toNat with
      | none => (s.onHere (fun g => g.answer (some d) 0 false)).done
      | some e => (s.onHere (fun h => h.answer (some d) (BitVec.ofNat 64 (s.dstat g.core g.layer.toNat e)) true)).done)

end Sys2Proof.Machine
end

