-- ==== Sys2Proof/Machine/HostFabric.lean ====
section
/-! DEFINITION. The host bridge, BAR0, bias flips, the weight-store command and accesses between devices
(16_host_fabric.md, R247 to R249). -/

namespace Sys2Proof.Machine

/-! ## Bias (R379 to R381) -/

/-- The 4 KiB page of a line. -/
def pageOfLine (line : Nat) : Nat := line / 64

/-- Whether a line's page has device bias (R379). -/
def State.deviceBiased (s : State) (line : Nat) : Bool := s.deviceBias.contains (pageOfLine line)

/-- A flip begins (R381 step 1). -/
def State.startFlip (s : State) (page : Nat) (host auto : Bool) : State :=
  { s with flip := some ⟨page, host, auto, s.nextId⟩, nextId := s.nextId + 1 }

/-- BIAS_FLIP: a write of `v` to BFLIP: ignored while a flip runs, or with a reserved bit or a page outside HBM; a page
that already has the bias needs none (R380).  Before step 3 of a reset BAR0 takes no such write (R414). -/
def execBiasFlip (v : Nat) (s : State) : Result :=
  let page := field v 12 40
  let host := bitOf v 0
  if field v 1 11 ≠ 0 ∨ field v 52 12 ≠ 0 ∨ regionOf (4096 * page) ≠ .hbm ∨ s.flip.isSome = true ∨
      s.mgmt.recovery = true then .next s
  else
    let s := s.setBar 0x12008 v
    if s.deviceBias.contains page = !host then .next s else .next (s.startFlip page host false)

/-- Whether a flip to host bias has drained: no core holds an entry for the page that its FIFO held when the drain began
(R381). -/
def State.flipDrained (s : State) (f : Flip) : Bool :=
  s.cores.all (fun c => c.2.fifo.all (fun e => pageOfLine e.line != f.page || decide (f.marker ≤ e.id)))

/-- The bias bit of a page in the table at BIASBASE, 1 for host bias: bit `p` of the table for page `p` of HBM (R379, log
entry 59). -/
def State.writeBias (s : State) (page : Nat) (host : Bool) : State :=
  let p := page - 2 ^ 26
  let a := field (s.barReg 0x12000) 23 29 * 2 ^ 23 + p / 8
  if regionOf a ≠ .hbm then s
  else
    let old := (s.byte a).toNat
    s.setByte a (BitVec.ofNat 8 (old / 2 ^ (p % 8 + 1) * 2 ^ (p % 8 + 1) + (if host then 2 ^ (p % 8) else 0) + old % 2 ^ (p % 8)))

/-- The bytes of the bias table (R379). -/
def biasTableBytes : Nat := 8388608

/-- A byte of the bias table, by the bias that its eight pages have. -/
def State.biasByte (s : State) (i : Nat) : Byte :=
  BitVec.ofNat 8 ((List.range 8).foldl (fun n j => n + (if s.deviceBias.contains (2 ^ 26 + 8 * i + j) then 0 else 2 ^ j)) 0)

/-- The whole bias table written at BIASBASE (R379, R380, log entry 59). -/
def State.writeBiasTable (s : State) : State :=
  let low := field (s.barReg 0x12000) 23 29 * 2 ^ 23
  let set := fun (m : Table Byte) (a : Nat) (b : Byte) => Table.set Memory.blank m a b
  let above := s.mem.filter (fun c => decide (low + biasTableBytes ≤ c.1))
  let table := (List.range biasTableBytes).foldr (fun i m => set m (low + i) (s.biasByte i)) above
  { s with mem := (s.mem.filter (fun c => decide (c.1 < low))).foldr (fun c m => set m c.1 c.2) table }

/-! ## The bridge (R247, R248) -/

/-- Whether a line is one that the host reaches: device memory, second-tier memory that an enabled window maps, or its
own (R382). -/
def State.hostReach (s : State) (line : Nat) : Bool :=
  match regionOf (64 * line) with
  | .hbm => true
  | .host => true
  | .tier => (s.tierPort (64 * line)).isSome
  | _ => false

/-- Entries of a line that stand dirty in a FIFO are pulled out ahead of those before them and written (R248). -/
def State.pullDirty (s : State) (line : Nat) : State :=
  (s.cores.flatMap (fun c => (c.2.fifo.filter (fun e => e.line == line && !e.direct && e.reach != 2)).map (fun e => (c.1, e)))).foldl
    (fun s e =>
      let s := s.homeStore line e.2.pts e.2.mask e.2.data (e.2.poison || e.2.bad)
      let s := if e.2.bad then s.countPoison line else s
      let h := s.home line
      s.setItem e.1 { e.2 with reach := 2, wts := h.wts, snapshot := s.lineBytes line, tag := h.tag, poison := h.poison }) s

/-- The bridge renews the lease that it holds of a line for the host, before it ends (R247): a renewal by a level that holds
the line (R231). -/
def State.renewHost (s : State) (line : Nat) : State :=
  let s := s.grant line s.hts (some (s.home line).wts)
  s.setHome line { s.home line with hostRts := (s.home line).rts }

/-- HTS raised to at least `w` (R248), and the leases of the host that would end renewed. -/
def State.raiseHts (s : State) (w : Nat) : State :=
  let s := { s with hts := max s.hts w }
  s.homes.foldl (fun s e => if e.2.host = .shared ∧ e.2.hostRts < s.hts then s.renewHost e.1 else s) s

/-- What a host read, a mailbox read or an answer to another device has returned (log entry 8). -/
def State.note (s : State) (key value : Nat) : State := { s with seen := (key, value) :: s.seen }

/-- A host read is performed: an acquire load at HTS; `own` asks for ownership, and the home then sets wts_h := rts_h + 1
(R247, R248).  The answer is the line's bytes, with a bit above them for CXL poison (R398).  A line that the host owns
it reads in its own cache, with the poison that it came with. -/
def State.hostRead (s : State) (line : Nat) (own : Bool) : State :=
  if s.hostOwns line then s.note line ((s.lineBytes line).toNat + (if (s.home line).poison then 2 ^ 512 else 0))
  else
    let s := if regionOf (64 * line) = .host then s.pullDirty line else s
    let s := s.grant line s.hts (if (s.home line).host = .shared then some (s.home line).wts else none)
    let h := s.home line
    let s := s.note line ((s.lineBytes line).toNat + (if h.poison then 2 ^ 512 else 0))
    (s.setHome line { h with
      host := if own then .owned else .shared
      hostRts := h.rts
      wts := if own then h.rts + 1 else h.wts
      rts := if own then h.rts + 1 else h.rts }).raiseHts h.wts

/-- A host write presented to the home: a release store at HTS + 1; HTS rises to its wts (R248). -/
def State.hostStore (s : State) (line : Nat) (mask : LaneMask) (data : Line) (poison : Bool) : State :=
  let s := s.homeStore line (s.hts + 1) mask data poison
  s.raiseHts (s.home line).wts

/-- A host request that need not wait is performed. -/
def State.hostPerform (s : State) (r : HostRequest) : State :=
  if r.write then s.hostStore r.line r.mask r.data r.poison else s.hostRead r.line r.own

/-- Whether a host request must be held: its page has device bias, or is flipping (R379, R381). -/
def State.hostHeld (s : State) (line : Nat) : Bool :=
  s.deviceBiased line || (s.flip.map (fun f => f.page == pageOfLine line)).getD false

/-- The host requests held for pages that have host bias now are performed, oldest first, and for the first that is still
held an automatic flip begins (R379, R381 step 3). -/
def State.releaseHost (s : State) : State :=
  let ready := s.heldHost.filter (fun r => !s.hostHeld r.line)
  let left := s.heldHost.filter (fun r => s.hostHeld r.line)
  let s := ready.foldl State.hostPerform { s with heldHost := left }
  match s.flip, left with
  | none, r :: _ => s.startFlip (pageOfLine r.line) true true
  | _, _ => s

/-- A host request arrives: it is performed, or held, by an automatic flip to host bias where the page has device bias and
no flip is running (R379, R381). -/
def State.hostRequest (s : State) (r : HostRequest) : State :=
  if s.hostHeld r.line then
    let s := { s with heldHost := s.heldHost ++ [r] }
    if s.flip.isNone then s.startFlip (pageOfLine r.line) true true else s
  else s.hostPerform r

/-- BIAS_FLIP_COMPLETE: the drain, or the recall of every host copy, is over, and the page takes its new bias; held host
requests go on (R381). -/
def execBiasFlipComplete (s : State) : Result :=
  match s.flip with
  | none => .next s
  | some f =>
    if f.host then
      if s.flipDrained f then
        .next (({ s with flip := none, deviceBias := s.deviceBias.filter (fun p => p != f.page) } : State).writeBias f.page true).releaseHost
      else .next s
    else if s.homes.any (fun h => pageOfLine h.1 == f.page && h.2.host != .invalid) then .next s
    else .next (({ s with flip := none, deviceBias := s.deviceBias ++ [f.page] } : State).writeBias f.page false).releaseHost

/-- HOST_READ (R247, R248). -/
def execHostRead (line : Nat) (own : Bool) (s : State) : Result :=
  if s.hostReach line = false ∨ s.mgmt.recovery = true then .next s
  else .next (s.hostRequest { line := line, write := false, own := own })

/-- A host write, with the poison that the host may give with its data (R248, R392). -/
def State.hostWrites (s : State) (line : Nat) (mask : LaneMask) (data : Line) (poison : Bool) : State :=
  if s.hostReach line = false ∨ mask = 0 ∨ s.mgmt.recovery = true then s
  else s.hostRequest { line := line, write := true, mask := mask, data := data, poison := poison }

/-- HOST_WRITE (R248). -/
def execHostWrite (line : Nat) (mask : LaneMask) (data : Line) (s : State) : Result := .next (s.hostWrites line mask data false)

/-- The bridge takes the host's copy of a line back; the bytes that the host has modified, under their mask, are written as a
host write, with the poison that the host may give with them (R247, R381, R392). -/
def State.takeBack (s : State) (line : Nat) (mask : LaneMask) (data : Line) (poison : Bool) : State :=
  match (s.home line).host with
  | .invalid => s
  | .shared => s.recall line
  | .owned => (if mask = 0 then s else s.hostStore line mask data poison).recall line

/-- BACK_INVALIDATE (R247, R381). -/
def execBackInvalidate (line : Nat) (mask : LaneMask) (data : Line) (s : State) : Result := .next (s.takeBack line mask data false)

/-! ## BAR0 (R376) -/

/-- HREQ: a write of `v` to the request doorbell register (R376). -/
def execHreq (v : Nat) (s : State) : Result :=
  if v / 256 ≠ 0 ∨ s.mgmt.recovery = true then .next s else .next (s.ringDoorbell v)

/-- The bits that a BAR0 register of plain storage may hold: peer windows and exports, the weight-store command, BIASBASE
and FABID (R376, R378, R380, R383). -/
def barMask (off : Nat) : Nat :=
  let span := fun (lo len : Nat) => (2 ^ len - 1) * 2 ^ lo
  if off = 0x10000 then span 0 52
  else if off = 0x10008 then span 0 31
  else if off = 0x10010 then span 0 32
  else if off = 0x12000 then span 23 29
  else if off = 0x14000 then span 0 16
  else if 0x18000 ≤ off ∧ off < 0x18800 then
    match off % 32 with
    | 0 => 1 + span 30 22
    | 8 => span 30 22
    | 16 => span 12 40
    | 24 => span 0 22
    | _ => 0
  else if 0x18800 ≤ off ∧ off < 0x19000 then
    match off % 32 with
    | 0 => 1 + span 12 40
    | 8 => span 12 40
    | 16 => span 0 17
    | _ => 0
  else 0

/-- Whether a BAR0 register takes a value: no reserved bit, and the values of its fields. -/
def barOk (off v : Nat) : Bool :=
  decide (v < 2 ^ 64) && (List.range 64).all (fun i => !bitOf v i || bitOf (barMask off) i) && barMask off != 0 &&
    (off != 0x14000 || v != 0xFFFF) && (off != 0x12000 || regionOf v == .hbm) &&
    (!(decide (0x18000 ≤ off) && decide (off < 0x18800) && off % 32 == 0 && bitOf v 0) || regionOf (field v 30 22 * 2 ^ 30) == .peer) &&
    (!(decide (0x18000 ≤ off) && decide (off < 0x18800) && off % 32 == 24) ||
      (field v 0 16 != 0xFFFF && (!bitOf v 17 || (decide (2 ≤ field v 18 4) && decide (field v 18 4 ≤ 11)))))

/-- The window of port `p` and its size in bytes, were the register pair to hold these values; none where not enabled
(R382). -/
def tierRange (base size : Nat) : Option (Nat × Nat) :=
  if bitOf base 0 then some (field base 30 22 * 2 ^ 30, (field base 30 22 + field size 0 22) * 2 ^ 30) else none

/-- Whether two ranges share an address. -/
def rangesMeet (a b : Option (Nat × Nat)) : Bool :=
  match a, b with
  | some x, some y => decide (max x.1 y.1 < min x.2 y.2)
  | _, _ => false

/-- Whether a window lies within the second-tier range (R382, R213). -/
def inTier (r : Option (Nat × Nat)) : Bool :=
  match r with
  | none => true
  | some (lo, hi) => regionOf lo == .tier && (decide (hi ≤ lo) || regionOf (hi - 1) == .tier)

/-- TIER_WINDOW_WRITE: TIERBASE, or TIERSIZE where `size`, of a port from 2 to 11 (R382). -/
def execTierWindowWrite (port : Nat) (size : Bool) (v : Nat) (s : State) : Result :=
  let off := fun (p : Nat) => 0x13000 + 16 * (p - 2)
  let legal := if size then decide (v < 2 ^ 22) else field v 1 29 == 0 && decide (v < 2 ^ 52)
  let range := fun (p : Nat) =>
    if p = port then tierRange (if size then s.barReg (off p) else v) (if size then v else s.barReg (off p + 8))
    else tierRange (s.barReg (off p)) (s.barReg (off p + 8))
  if port < 2 ∨ 11 < port ∨ legal = false ∨ s.mgmt.recovery = true ∨ inTier (range port) = false ∨
      (List.range' 2 10).any (fun p => p != port && rangesMeet (range p) (range port)) = true then .next s
  else .next (s.setBar (off port + (if size then 8 else 0)) v)

/-! ## The weight-store command (R198, R378) -/

/-- The result register of the weight-store command: BUSY and CAUSE. -/
def wsStatus : Nat := 0x10020

/-- Whether a block of a tenant has started and not ended (R198). -/
def State.blockStarted (s : State) (t : Nat) : Bool :=
  s.blocks.any (fun e => e.2.tenant == t && !e.2.ended) || s.saved.any (fun b => b.block.tenant == t) ||
    s.launches.any (fun e => e.2.tenant == t && e.2.stage == .running &&
      (if e.2.phase = 0 then decide (e.2.endedIds.length < e.2.started) else decide (e.2.endedIds.length < e.2.blocks)))

/-- The cause with which a weight-store command is refused, by the checks of R378 in their order. -/
def State.wsFault (s : State) (t : Nat) : Option Cause :=
  let src := s.barReg 0x10000
  let dst := s.barReg 0x10008
  let len := s.barReg 0x10010
  let region := regionOf src
  if src % 64 ≠ 0 ∨ dst % 64 ≠ 0 ∨ len % 64 ≠ 0 ∨ len = 0 then some .misalign
  else if (region ≠ .hbm ∧ region ≠ .host) ∨ regionOf (src + len - 1) ≠ region then some .xlate
  else if s.inPartition t dst = false ∨ s.inPartition t ((dst + len - 1 : Nat) : Int) = false then some .perm
  else if s.blockStarted t then some .wswrite
  else none

/-- WEIGHT_STORE_COMMAND: a GO write of `v`, ignored while BUSY or with a reserved bit (R378). -/
def execWeightStoreCommand (v : Nat) (s : State) : Result :=
  if 16 ≤ v ∨ s.wsBusy.isSome = true ∨ s.mgmt.recovery = true then .next s
  else
    match s.wsFault v with
    | some c =>
      let s := s.setBar wsStatus (c.code * 256)
      .next (if c = .wswrite then s.deviceEvent v c 0 0 0 0 else s)
    | none => .next { s.setBar wsStatus 1 with wsBusy := some ⟨v, s.barReg 0x10000, s.barReg 0x10008, s.barReg 0x10010⟩ }

/-- 64 bytes of the weight store written from a line, which is read as an acquire at .system (R378); poison is carried
over (R397). -/
def State.writeWeights (s : State) (line unit : Nat) : State :=
  let s := s.grant line s.hts none
  let data := s.lineBytes line
  { s with
    ws := (List.range 64).foldl (fun t i => Table.set 0 t (64 * unit + i) (BitVec.ofNat 8 (lineField data i 1))) s.ws
    wsPoison := (s.wsPoison.filter (fun u => u != unit)) ++ (if (s.home line).poison then [unit] else []) }

/-- The generation of a region raised by 1; where it would wrap, the Umbra entries that name the region go first
(R198). -/
def State.raiseGeneration (s : State) (region : Nat) : State :=
  let gen := Table.get 0 s.wsGen region
  let s := if gen = 0xFFFF then { s with umbra := s.umbra.filter (fun e => !e.sources.any (fun p => p.1 == region)) } else s
  { s with wsGen := Table.set 0 s.wsGen region ((gen + 1) % 65536) }

/-- WEIGHT_STORE_WRITE_DONE: the last byte is written; the generations of the touched regions rise, and BUSY falls with
CAUSE 0 (R198, R378).  The source waits while the host owns a line of it (R247). -/
def execWeightStoreWriteDone (s : State) : Result :=
  match s.wsBusy with
  | none => .next s
  | some w =>
    if s.hostOwnsRange w.src w.len then .next s
    else
    let s := (List.range (w.len / 64)).foldl (fun s i => s.writeWeights (w.src / 64 + i) (w.dst / 64 + i)) s
    let first := w.dst / 2 ^ 26
    let last := (w.dst + w.len - 1) / 2 ^ 26
    let s := (List.range' first (last + 1 - first)).foldl State.raiseGeneration s
    .next { s.setBar wsStatus 0 with wsBusy := none }

/-! ## Accesses between devices (R249, R383 to R385, R389) -/

/-- Whether an export entry accepts an access of another device (R383). -/
def State.exported (s : State) (source addr size : Nat) (writes : Bool) : Bool :=
  (List.range 64).any (fun e =>
    let base := s.barReg (0x18800 + 32 * e)
    let lim := s.barReg (0x18800 + 32 * e + 8)
    let ctl := s.barReg (0x18800 + 32 * e + 16)
    bitOf base 0 && decide (field base 12 40 * 4096 ≤ addr) && decide (addr + size ≤ field lim 12 40 * 4096) &&
      (field ctl 0 16 == source || field ctl 0 16 == 0xFFFF) && (!writes || bitOf ctl 16))

/-- The operation of an atomic that another device asks for, by number. -/
def peerAtomic (n : Nat) : Option AtomOp :=
  [AtomOp.add, .min, .max, .minn, .maxn, .xchg, .and, .or, .xor, .cas, .fadd, .fmin, .fmax, .inc][n]?

/-- What another device is answered: refused, poison, or the bytes read. -/
def peerAnswerCode (refused poison : Bool) (value : Nat) : Nat := (if refused then 1 else 0) + (if poison then 2 else 0) + 4 * value

/-- PEER_REQUEST_RECEIVE: a load (`kind` 0), a store (1) or an atomic (2 on, by `peerAtomic`, with the MODE of the lane
that made it) of `size` bytes within a line arrives from a device: it is performed at the home when an export entry
accepts it, and refused otherwise (R249, R383); it waits while the host owns the line (R247). -/
def execPeerRequestReceive (source addr size kind mode data cmp : Nat) (s : State) : Result :=
  let line := addr / 64
  let key := 2 ^ 64 + addr
  if size = 0 ∨ 64 < addr % 64 + size ∨ s.mgmt.recovery = true then .next s
  else if !s.exported source addr size (kind != 0) then .next (s.note key (peerAnswerCode true false 0))
  else if s.hostOwns line then .next s
  else
    let s := if kind = 0 then s else s.recall line
    let old := s.read addr size
    let bad := (s.home line).poison
    let mask : LaneMask := BitVec.ofNat 64 ((2 ^ size - 1) * 2 ^ (addr % 64))
    let put := fun (s : State) (v : Nat) => s.homeStore line 0 mask (BitVec.ofNat 512 (v % 2 ^ (8 * size) * 2 ^ (8 * (addr % 64)))) false
    if kind = 0 then .next (s.note key (peerAnswerCode false bad old))
    else if kind = 1 then .next ((put s data).note key (peerAnswerCode false false 0))
    else
      match peerAtomic (kind - 2) with
      | none => .next (s.note key (peerAnswerCode true false 0))
      | some op =>
        if bad then .next (s.note key (peerAnswerCode false true 0))
        else
          let a : LaneAcc := { lane := 0, addr := addr, size := size, data := data, cmp := cmp, mode := BitVec.ofNat 32 mode }
          .next ((put s (op.applyLane a old)).note key (peerAnswerCode false false old))

/-- The answer of another device to an engine command or a matrix operation: data of a line that it reads, or the
acknowledgement of one that it wrote (R249, R385; log entry 31). -/
def State.engineAnswer (s : State) (id line : Nat) (refused poison : Bool) (data : Line) : State :=
  match s.cores.find? (fun c => c.2.cmds.any (fun k => k.id == id) || c.2.mq.any (fun o => o.id == id)) with
  | none => s
  | some (core, c) =>
    match c.cmds.find? (fun k => k.id == id), c.mq.find? (fun o => o.id == id) with
    | some k, _ =>
      let s := s.sendPeer id line (if k.peerAcks.contains line then 1 else 0) 0 0
      if k.peerAcks.contains line then
        (if refused then s.noteEngGone core k else s).setCmd core { k with peerAcks := k.peerAcks.filter (fun l => l != line) }
      else if s.peerData.any (fun d => d.op == id && d.line == line) then s
      else { s with peerData := s.peerData ++ [⟨id, line, data, poison, refused⟩] }
    | none, some o =>
      let s := s.sendPeer id line (if o.peerAcks.contains line then 1 else 0) 0 0
      if o.peerAcks.contains line then
        let s := if refused then s.onGangBehind core o.slot o.block o.gangId Gang.peerEvent else s
        let o := { o with peerAcks := o.peerAcks.filter (fun l => l != line) }
        if o.peerAcks.isEmpty then s.dropMat core o else s.setMat core o
      else if s.peerData.any (fun d => d.op == id && d.line == line) then s
      else { s with peerData := s.peerData ++ [⟨id, line, data, poison, refused⟩] }
    | none, none => s

/-- Whether an identifier is that of an engine command or a matrix operation. -/
def State.isEngine (s : State) (id : Nat) : Bool :=
  s.cores.any (fun c => c.2.cmds.any (fun k => k.id == id) || c.2.mq.any (fun o => o.id == id))

/-- The answer to the fetch agents for a line of peer memory (R221): the weak read leaves a copy, poisoned or not, in the
cluster caches of the gangs that fetch it (R249, R398).  After a refusal the agents ask again (log entry 31). -/
def State.agentAnswer (s : State) (line : Nat) (refused poison : Bool) (data : Line) : State :=
  let s := { s with sent := s.sent.filter (fun r =>
    !(r.op == 0 && r.kind == 0 && s.peerTarget (64 * line) == some (r.device, r.cxl, r.port, r.addr))) }
  if refused then s else
  ((s.allGangs.filter (fun g => match s.translate g g.wordPc.toNat .fetch with
    | .ok a => a / 64 == line && regionOf (64 * line) == .peer
    | .error _ => false)).map Gang.core).eraseDups.foldl (fun s n => s.installCluster n line ⟨0, 0, data, none, poison⟩) s

/-- Whether a word that waits for an answer, for its registration read (R283) or for a line that it reads or changes, has an
identifier. -/
def State.registers (s : State) (id : Nat) : Bool :=
  s.allGangs.any (fun g => g.groups.any (fun p => (p.wait == .stalled || p.wait == .ready) && p.since == some id))

/-- The answer of another device to a word that waits for it (R249, R385). -/
def State.wordAnswered (s : State) (id line : Nat) (refused poison : Bool) (data : Line) : State :=
  if regionOf (64 * line) ≠ .peer ∨ s.peerData.any (fun d => d.op == id && d.line == line) = true then s
  else
    let s := if s.sent.any (fun r => r.op == id && s.peerTarget (64 * line) == some (r.device, r.cxl, r.port, r.addr)) then s
      else s.sendPeer id line 0 0 0
    { s with peerData := s.peerData ++ [⟨id, line, data, poison, refused⟩] }

/-- PEER_ACCESS_ANSWER (R385): `op` is a memory operation and one of its lines, an engine command or matrix operation,
a fire-and-forget store, a word that waits, or 0 for the fetch agents. -/
def execPeerAccessAnswer (op line : Nat) (refused poison : Bool) (data : Line) (s : State) : Result :=
  match s.opAt op with
  | some o => .next (s.peerAnswer o line refused poison data)
  | none =>
    if op = 0 then .next (s.agentAnswer line refused poison data)
    else if s.isEngine op then .next (s.engineAnswer op line refused poison data)
    else if s.registers op then .next (s.wordAnswered op line refused poison data)
    else .next (s.answerFf op refused)

/-- FABRIC_TIMEOUT: a message has gone 2 ms without an acknowledgement: a peer access becomes PEERGONE, a
fire-and-forget store a counted failure, an active message UNREACHABLE (R346, R384, R385). -/
def execFabricTimeout (op line : Nat) (s : State) : Result :=
  match s.opAt op with
  | some o =>
    match o.kind with
    | .message _ _ _ => .next (s.answerMessage o 3)
    | _ => .next (s.peerAnswer o line true false 0)
  | none =>
    if op = 0 then .next (s.agentAnswer line true false 0)
    else if s.isEngine op then .next (s.engineAnswer op line true false 0)
    else if s.registers op then .next (s.wordAnswered op line true false 0)
    else .next (s.answerFf op true)

end Sys2Proof.Machine
end

