-- ==== Sys2Proof/Machine/Recovery.lean ====
section
/-! DEFINITION. Errors and recovery (17_recovery.md): errors that strike stored structures, links and pipes, module
errors, the restart of a supervisor, and the watchdog. -/

namespace Sys2Proof.Machine

/-! ## Module errors and links (R397, R408) -/

/-- A module error: the first one is kept, with its time; nothing is dispatched after it (R408, R416). -/
def State.moduleError (s : State) (kind die unit : Nat) : State :=
  match s.mgmt.error with
  | some _ => s
  | none => { s with mgmt := { s.mgmt with error := some (kind, die % 2, unit % 128, s.counts) } }

/-- LINK_RESEND: one flit at a network stop of a die fails its CRC `times` times and is resent each time; 64 failed
resends are a module error (R397, R408). -/
def execLinkResend (die stop times : Nat) (s : State) : Result :=
  let n := min times 64
  let s := { s with mgmt := { s.mgmt with resend := s.mgmt.resend + n } }
  let s := s.countDie (die % 2) 11 n
  .next (if 64 ≤ times then s.moduleError 2 die stop else s)

/-- ROOT_OF_TRUST_FAILURE: a failure of the root of trust after boot (R408). -/
def execRootOfTrustFailure (s : State) : Result := .next (s.moduleError 3 0 0)

/-! ## The measurement log (R407, R409, R410) -/

/-- Entries that the measurement log holds from reset (R410). -/
def logLimit : Nat := 1024

/-- A measurement-log entry of a kind, verdict, version and digest, at the next place (R410). -/
def Management.newEntry (m : Management) (kind verdict version : Nat) (digest : BitVec 512) : BitVec 1024 :=
  BitVec.ofNat 1024 (logHeader m.log.length kind verdict version + digest.toNat * 2 ^ 128)

/-- An entry appended, with RUN (R410). -/
def Management.append (m : Management) (e : BitVec 1024) : Management := { m with log := m.log ++ [e], run := runAfter m.run e }

/-- Whether an entry is that of a supervisor image that was accepted. -/
def acceptedImage (e : BitVec 1024) : Bool := field e.toNat 16 8 == 1 && field e.toNat 24 8 == 0

/-- The version and digest of the resident supervisor image: those of the last one accepted. -/
def Management.resident (m : Management) : Nat × BitVec 512 :=
  match m.log.reverse.find? acceptedImage with
  | some e => (field e.toNat 64 64, BitVec.ofNat 512 (field e.toNat 128 512))
  | none => (0, 0)

/-! ## The supervisor and the watchdog (R407, R408) -/

/-- The counts of the window in which a third restart closes a core to dispatch (R407, R413). -/
def restartWindow : Nat := 2400000000

/-- The supervisor gang of a core as it starts the resident image: one loaded by LOADSUP begins at its first byte (log
entry 4). -/
def State.supervisorGang (s : State) (core : Nat) : Gang :=
  let g := Gang.supervisor core
  if s.mgmt.image.2 = 0 then g else { g with grp := { g.grp with pc := BitVec.ofNat 64 s.mgmt.image.1 } }

/-- The supervisor gang of a core starts again, with its scratchpad above the doorbell zero (R407 step 3). -/
def State.freshSupervisor (s : State) (core : Nat) : State :=
  let above := fun (off : Nat) => decide (0x1810 ≤ off)
  let s := { s with ops := s.ops.filter (fun o => o.gang != gangKey core 48)
                    watches := s.watches.filter (fun w => w.block != 2 ^ 32 + core) }
  let c := (s.core core).stopCmds (fun k => k.slot == 48)
  let c := { c with
    mq := c.mq.filter (fun o => o.started || o.slot != 48)
    supScratch := c.supScratch.filter (fun e => !above e.1)
    supPoison := c.supPoison.filter (fun w => !above (4 * w))
    phaseTs := c.phaseTs.filter (fun e => !above e.1)
    reason := c.reason.filter (fun e => !above e.1) }
  (((s.setCore core c).forgetGang (gangKey core 48)).setGang (s.supervisorGang core)).ungate core

/-- One doorbell arrival for each pending entry of a core (R407 step 4). -/
def State.ringPending (s : State) (core : Nat) : State :=
  (List.range 48).foldl (fun s n => if s.isPending core n then s.ringDoorbell core else s) s

/-- A restart is logged, or counted as unlogged when the log is full; the third within the window closes the core to
dispatch (R407). -/
def State.noteRestart (s : State) (core : Nat) : State :=
  let m := s.mgmt
  let (version, digest) := m.resident
  let m := { m with restart := m.restart + 1 }
  let m := if m.log.length < logLimit then m.append (m.newEntry 2 0 version digest) else { m with unlogged := m.unlogged + 1 }
  let c := s.core core
  let times := s.counts :: c.restarts.filter (fun t => decide (s.counts ≤ t + restartWindow))
  { s with mgmt := m }.setCore core { c with restarts := times, noDispatch := c.noDispatch || decide (3 ≤ times.length) }

/-- The supervisor of a core is restarted (R407). -/
def State.restart (s : State) (core : Nat) : State := ((s.noteRestart core).freshSupervisor core).ringPending core

/-- SUPERVISOR_RESTART: the supervisor gang of a core has stopped at a fault or a kill cause (R407). -/
def execSupervisorRestart (core : Nat) (s : State) : Result :=
  match s.gang core 48 with
  | none => .next s
  | some g => if 256 ≤ core ∨ g.stop = .none ∨ s.mgmt.started = false then .next s else .next (s.restart core)

/-- The slots of a core whose entry has been pending longer than the watchdog period (R408). -/
def State.overdue (s : State) (core : Nat) : List Nat :=
  (List.range 48).filter (fun n => s.isPending core n &&
    decide (Table.get s.mgmt.time (s.core core).pendingSince n + 21 * s.mgmt.watchdog < s.mgmt.time))

/-- The tenants that have a pending entry on a core, by the TENANT field of their records. -/
def State.pendingTenants (s : State) (core : Nat) : List Nat :=
  (((List.range 48).filter (s.isPending core)).map (fun n => s.sread (.supervisor core) (128 * n + 1) 1 % 16)).eraseDups

/-- WATCHDOG_EXPIRY: an entry of a core has been pending too long: each tenant with a pending entry there gets a WATCHDOG
record, and the supervisor is restarted (R408).  The period of the entries still pending begins anew. -/
def execWatchdogExpiry (core : Nat) (s : State) : Result :=
  if s.mgmt.watchdog = 0 ∨ 256 ≤ core ∨ s.mgmt.started = false ∨ s.overdue core = [] then .next s
  else
    let s := (s.pendingTenants core).foldl (fun s t => s.deviceEvent t .watchdog core 0 0 0) s
    let s := s.restart core
    let c := s.core core
    .next (s.setCore core { c with pendingSince := c.pendingSince.map (fun e => (e.1, s.mgmt.time)) })

/-! ## Errors where they strike (R397, R403 to R405) -/

/-- A line poisoned at its home, or in DRAM; a clean line of the memory-side cache is fetched from DRAM again (R397, R417). -/
def State.poisonLine (s : State) (line : Nat) : State :=
  match s.homes.find line with
  | some h =>
    if !h.dirty && (regionOf (64 * line) == .hbm || regionOf (64 * line) == .tier) then s
    else { s with homes := s.homes.insert line { h with poison := true } }.countPoison line
  | none => { s with dramPoison := (s.dramPoison ++ [line]).eraseDups }.countPoison line

/-- A block's saved context changed. -/
def State.onSaved (s : State) (key : Nat) (f : SavedBlock → SavedBlock) : State :=
  { s with saved := s.saved.map (fun b => if b.key = key then f b else b) }

/-- What a stored register of a gang holds. -/
def StoredReg.value (g : Gang) : StoredReg → Nat
  | .vector code lane => (g.vword code lane).toNat
  | .scalar slice reg => (g.sreg slice reg).toNat
  | .mask reg => (g.mask reg).toNat
  | .flag n => g.flag n
  | .mode slice => (g.modeOf slice).toNat
  | .narrow => g.narrow.toNat
  | .seed => g.seed.toNat
  | .layer => g.layer.toNat
  | .lfault => g.lfault.toNat
  | .lcause => g.lcause.toNat
  | .wakewhy => g.wakewhy.toNat

/-- A gang with another value in a stored register. -/
def StoredReg.put (g : Gang) (v : Nat) : StoredReg → Gang
  | .vector code lane => if code < 256 ∧ lane < 64 then g.setV code lane (BitVec.ofNat 32 v) else g
  | .scalar slice reg => if slice < 16 ∧ reg < 64 then g.setS slice reg (BitVec.ofNat 64 v) else g
  | .mask reg => if reg < 16 then g.setMask reg (BitVec.ofNat 64 v) else g
  | .flag n => if n < 12 then g.setFlag n (v % 64) else g
  | .mode slice => if slice < 16 then g.setMode slice (BitVec.ofNat 32 v) else g
  | .narrow => { g with narrow := BitVec.ofNat 64 v }
  | .seed => { g with seed := BitVec.ofNat 64 v }
  | .layer => { g with layer := BitVec.ofNat 64 v }
  | .lfault => { g with lfault := BitVec.ofNat 64 v }
  | .lcause => { g with lcause := BitVec.ofNat 64 v }
  | .wakewhy => { g with wakewhy := BitVec.ofNat 64 v }

/-- Whether the checks of a pipe may miss that it gives one number for another: they differ by a multiple of 3, of which a
multiple of 15 is one, or in an even number of bits (R392, R402). -/
def undetectable (a b : Nat) : Bool :=
  ((a : Int) - b) % 3 == 0 || ((List.range 64).filter (fun i => bitOf a i != bitOf b i)).length % 2 == 0

/-- What a lane of a peer-scratchpad operation sends or is sent arrives with poison (R398, R406): a load consumes it (R399), and
a store leaves its words poisoned. -/
def State.flitFails (s : State) (op lane : Nat) : State :=
  match s.opAt op with
  | none => s
  | some o =>
    match o.lanes.find? (fun a => a.lane == lane && decide (a.rank < 4)) with
    | none => s
    | some a =>
      if o.wordDone a false then s
      else match o.kind with
        | .scratchLoad _ _ => s.killOp o 0
        | .scratchStore =>
          let bit : LaneMask := BitVec.ofNat 64 (2 ^ lane)
          let t := (s.scratchTurn op bit bit).1
          let done := ((t.opAt op).map (fun o => o.wordDone a false)).getD true
          match s.laneCarve o true a with
          | .block k =>
            if done && !s.peerEnded (.block k) then
              t.onBlock k (fun b => { b with poison := (b.poison ++ a.word false :: (if a.hasHigh then [a.word true] else [])).eraseDups })
            else t
          | .supervisor _ => t
        | _ => s

/-- An error strikes (R397, R401, R403 to R406). -/
def State.upset (s : State) (u : Upset) : State :=
  match u with
  | .line line => s.poisonLine line
  | .corrected die => { s with mgmt := { s.mgmt with corr := s.mgmt.corr + 1 } }.countDie (die % 2) 9 1
  | .homeTag channel => s.moduleError 1 (channel / 64) channel
  | .cleanL1 core line => let c := s.core core; s.setCore core { c with l1 := c.l1.erase line }
  | .cleanCluster cluster line => let c := s.cluster cluster; s.setCluster cluster { c with copies := c.copies.erase line }
  | .icache core line => let c := s.core core; s.setCore core { c with icache := c.icache.erase line }
  | .tlb core key => let c := s.core core; s.setCore core { c with tlb := c.tlb.erase key }
  | .clusterTlb cluster key => let c := s.cluster cluster; s.setCluster cluster { c with tlb := c.tlb.erase key }
  | .weights unit => { s with wsPoison := (s.wsPoison ++ [unit]).eraseDups }
  | .arriving op line => { s with ops := s.ops.map (fun o =>
      if o.id = op then { o with fills := o.fills.adjust line (fun d => { d with poison := true }) } else o) }
  | .dirty core item =>
    let c := s.core core
    s.setCore core { c with fifo := c.fifo.map (fun e => if e.id = item then { e with bad := true } else e) }
  | .scratch block word => s.onBlock block (fun b => { b with poison := (b.poison ++ [word]).eraseDups })
  | .supScratch core word => let c := s.core core; s.setCore core { c with supPoison := (c.supPoison ++ [word]).eraseDups }
  | .arrivingCopy core line t =>
    if s.hostOwns line ∨ regionOf (64 * line) = .peer then s
    else
      let (c, s) := s.fetchCopy core line t []
      s.installL1 core line { c with poison := true }
  | .arrivingCode core line =>
    match s.agentLine core line with
    | some (l, _) => s.cacheCode core line l true
    | none => s
  | .flit op lane => s.flitFails op lane
  | .register core slot reg mirror silent => s.onGang core slot (fun g => { g with
      badRegs := g.badRegs ++ [⟨reg, mirror, silent, reg.value g⟩] })
  | .undetected core slot reg value => s.onGang core slot (fun g => if undetectable (reg.value g) value then reg.put g value else g)
  | .strayed op lane addr => { s with ops := s.ops.map (fun o =>
      if o.id = op ∧ !o.performed ∧ o.served = [] ∧ o.fills = [] ∧ o.acked = [] ∧ o.doneLo = 0 ∧ o.doneHi = 0 then
        { o with lanes := o.lanes.map (fun a => if a.lane = lane ∧ undetectable a.addr addr then { a with addr := addr } else a) } else o) }
  | .pipe core slot times => s.onGang core slot (fun g => { g with mismatch := times })
  | .matrix core op times =>
    let c := s.core core
    s.setCore core { c with mq := c.mq.map (fun o => if o.id = op then { o with mismatch := times } else o) }
  | .umbra core tenant layer key =>
    let hit := fun (e : UmbraEntry) => e.tenant == tenant && e.layer == layer && e.key == key
    if s.umbra.any hit then { s with umbra := s.umbra.filter (fun e => !hit e) }.count core 16 1 else s
  | .accumulator block tile index value => s.onBlock block (fun b => { b with
      accs := b.accs.adjust tile (fun a => { a with c := Table.set 0 a.c index value }) })
  | .bslot core key index value =>
    let c := s.core core
    s.setCore core { c with slots := c.slots.adjust key (fun b => { b with data := { b.data with mags := Table.set 0 b.data.mags index value } }) }
  | .slotSum core key pos value =>
    let c := s.core core
    s.setCore core { c with slots := c.slots.adjust key (fun b => { b with cs := b.cs.insert pos value }) }
  | .tileSum block tile row cs mg => s.onBlock block (fun b => { b with
      accs := b.accs.adjust tile (fun a => { a with cs := Table.set 0 a.cs row cs, mg := Table.set 0 a.mg row mg }) })
  | .savedGang block gangId => s.onSaved block (fun b => { b with lost := (b.lost ++ [gangId]).eraseDups })
  | .savedScratch block word => s.onSaved block (fun b => { b with
      block := { b.block with poison := (b.block.poison ++ [word]).eraseDups } })

end Sys2Proof.Machine
end

