-- ==== Sys2Proof/Machine/Management.lean ====
section
/-! DEFINITION. Power, clocks, reset and the management mailbox (18_management.md, R409 to R411).  A mailbox command is one
step: it reads its arguments, takes its effect, and leaves its result and its response. -/

namespace Sys2Proof.Machine

/-! ## The mailbox (R415, R416) -/

/-- `n` bytes of the argument area from an offset, as a number. -/
def Management.arg (m : Management) (off n : Nat) : Nat := ofBytes ((List.range n).map (fun i => Table.get 0 m.args (off + i)))

/-- A command ends with a result and a response. -/
def State.reply (s : State) (result : Nat) (resp : List Byte) : State :=
  { s with mgmt := { s.mgmt with
    result := result, rlen := resp.length
    resp := (resp.mapIdx (fun i b => (i, b))).foldl (fun t e => Table.set 0 t e.1 e.2) s.mgmt.resp } }

/-- RESULT values of the mailbox (R415). -/
def resultOk : Nat := 0
@[inherit_doc resultOk] def resultBadCmd : Nat := 1
@[inherit_doc resultOk] def resultBadArg : Nat := 2
@[inherit_doc resultOk] def resultRefused : Nat := 3

/-- A CMD write: while a command is in progress it is ignored, and sets LOST (R415). -/
def State.mailbox (s : State) (f : State → State) : Result :=
  .next (if s.mgmt.busy.isSome then { s with mgmt := { s.mgmt with lost := true } } else f s)

/-- A command that the module answers only once it has passed step 2 of reset (R414). -/
def State.command (s : State) (f : State → State) : Result :=
  s.mailbox (fun s => if s.mgmt.recovery then s.reply resultBadCmd [] else f s)

/-- STATE of GETINFO (R416). -/
def Power.code : Power → Nat
  | .active => 0
  | .idle => 1
  | .standby => 2
  | .off => 0

/-- GETINFO (R416). -/
def execGetinfo (s : State) : Result :=
  s.command (fun s =>
    let live := maskOf ((List.range 16).filter (fun t => s.tenantState t != 0))
    s.reply resultOk (bytesOf 16 (s.fabid + 256 * 2 ^ 16 + 64 * 2 ^ 32 + Config.lanes * 2 ^ 48 + s.mgmt.step % 8 * 2 ^ 56 +
      s.mgmt.power.code * 2 ^ 59 + live * 2 ^ 64)))

/-- SETCAP (R415, R416). -/
def execSetcap (s : State) : Result :=
  s.command (fun s =>
    let v := s.mgmt.arg 0 8
    if v < 300 ∨ 1800 < v then s.reply resultBadArg [] else { s with mgmt := { s.mgmt with cap := v } }.reply resultOk [])

/-- GETPOWER: the average power is a free value that never exceeds the cap (R412, R416). -/
def execGetpower (s : State) : Result :=
  s.command (fun s =>
    let avg := (Config.freeValue s.tick).toNat % (s.mgmt.cap + 1)
    { s with tick := s.tick + 1 }.reply resultOk (bytesOf 8 (avg + s.mgmt.cap * 2 ^ 16 + s.mgmt.step * 2 ^ 32)))

/-- SETWDOG (R408, R416). -/
def execSetwdog (s : State) : Result :=
  s.command (fun s =>
    let v := s.mgmt.arg 0 8
    if v ≠ 0 ∧ v < 2400000 then s.reply resultBadArg []
    else { s with mgmt := { s.mgmt with watchdog := v } }.reply resultOk [])

/-- Whether the arguments of LOADSUP are legal (R416). -/
def loadArgsOk (pa len : Nat) : Bool :=
  pa % 4096 == 0 && decide (pa < 2 ^ 52) && (regionOf pa == .hbm || regionOf pa == .host) &&
    decide (4096 ≤ len) && decide (len ≤ 2 ^ 26) && len % 4096 == 0 && regionOf (pa + len - 1) == regionOf pa

/-- The image of a LOADSUP is measured, checked and logged; an accepted one becomes resident (R409, R410, R415). -/
def State.measure (s : State) (pa len : Nat) : State :=
  let image := s.bytes pa len
  let verdict := Config.imageVerdict image % 3
  let e := s.mgmt.newEntry 1 verdict (Config.versionOf image) (sha512 image)
  let m := s.mgmt.append e
  let m := if verdict = 0 then { m with image := (pa, len) } else m
  { s with mgmt := m }.reply resultOk (bytesOf 128 e.toNat)

/-- LOADSUP.  While the host owns a line of the image it waits (R247), in progress until then (R415). -/
def execLoadsup (s : State) : Result :=
  s.mailbox (fun s =>
    let pa := s.mgmt.arg 0 8
    let len := s.mgmt.arg 8 8
    if loadArgsOk pa len = false then s.reply resultBadArg []
    else if logLimit ≤ s.mgmt.log.length then s.reply resultRefused []
    else if s.hostOwnsRange pa len then { s with mgmt := { s.mgmt with busy := some (pa, len) } }
    else s.measure pa len)

/-- A LOADSUP in progress goes on once the host has given the lines of the image up; the log may have become full in the meantime
(R407, R410, R415). -/
def State.goOnLoading (s : State) : State :=
  match s.mgmt.busy with
  | none => s
  | some (pa, len) =>
    if s.hostOwnsRange pa len then s
    else
      let s := { s with mgmt := { s.mgmt with busy := none } }
      if logLimit ≤ s.mgmt.log.length then s.reply resultRefused [] else s.measure pa len

/-- GETLOG (R410, R416). -/
def execGetlog (s : State) : Result :=
  s.mailbox (fun s =>
    let v := s.mgmt.arg 0 8
    let first := field v 0 16
    let count := field v 16 9
    if 1023 < first ∨ count = 0 ∨ 256 < count ∨ v / 2 ^ 25 ≠ 0 then s.reply resultBadArg []
    else s.reply resultOk (((s.mgmt.log.drop first).take count).flatMap (fun e => bytesOf 128 e.toNat)))

/-- GETCERT (R411). -/
def execGetcert (s : State) : Result := s.mailbox (fun s => s.reply resultOk (Config.certificate.take 32768))

/-- The signed bytes of a quote (R411). -/
def State.quoteBody (s : State) : List Byte :=
  bytesOf 64 (s.mgmt.arg 0 64) ++ bytesOf 64 s.mgmt.run.toNat ++ bytesOf 64 (s.mgmt.log.length + s.fabid * 2 ^ 32)

/-- QUOTE (R411). -/
def execQuote (s : State) : Result :=
  s.mailbox (fun s => s.reply resultOk (s.quoteBody ++ bytesOf 512 (Config.signature s.quoteBody).toNat))

/-- GETERR (R408, R416). -/
def execGeterr (s : State) : Result :=
  s.command (fun s =>
    let m := s.mgmt
    let (head, when_) := match m.error with
      | none => (0, 0)
      | some (kind, die, unit, t) => (kind + die * 2 ^ 8 + unit * 2 ^ 9, t)
    s.reply resultOk (bytesOf 8 head ++ bytesOf 8 when_ ++ bytesOf 8 m.corr ++ bytesOf 8 m.pois ++ bytesOf 8 m.resend ++
      bytesOf 8 m.retry ++ bytesOf 4 m.restart ++ bytesOf 4 m.unlogged))

/-- DIECNT (R416, R417). -/
def execDiecnt (s : State) : Result :=
  s.command (fun s =>
    let v := s.mgmt.arg 0 8
    if field v 1 7 ≠ 0 ∨ field v 14 2 ≠ 0 ∨ 15 < field v 16 8 ∨ v / 2 ^ 25 ≠ 0 then s.reply resultBadArg []
    else
      let c := BitVec.ofNat 64 (field v 16 8 * 2 ^ 48 + field v 24 1 * 2 ^ 56)
      { s with mgmt := { s.mgmt with dies := Table.set 0 s.mgmt.dies (64 * field v 0 1 + field v 8 6) c } }.reply resultOk [])

/-- DIERD (R416, R417). -/
def execDierd (s : State) : Result :=
  s.command (fun s =>
    let v := s.mgmt.arg 0 8
    if 1 < v then s.reply resultBadArg []
    else s.reply resultOk ((List.range 64).flatMap (fun j => bytesOf 8 (Table.get 0 s.mgmt.dies (64 * v + j)).toNat)))

/-- MAILBOX_STATUS_WRITE: a 1 in LOST clears it (R415). -/
def execMailboxStatusWrite (v : Nat) (s : State) : Result :=
  .next (if bitOf v 1 then { s with mgmt := { s.mgmt with lost := false } } else s)

/-! ## Reads of BAR0 (R376, R377, R380, R382, R383, R415) -/

/-- Whether an offset of BAR0 holds a register that reads as it was written. -/
def barStored (off : Nat) : Bool :=
  barMask off != 0 || off == wsStatus || off == 0x12008 || (decide (0x13000 ≤ off) && decide (off < 0x130A0))

/-- What eight bytes of BAR0 read as at a register's offset; none where no register that can be read stands.  After a failure at
step 2 of reset all but the mailbox reads zero (R414). -/
def State.barValue (s : State) (off : Nat) : Option Nat :=
  let bytes := fun (t : Table Byte) (base : Nat) => ofBytes ((List.range 8).map (fun i => Table.get 0 t (off - base + i)))
  let m := s.mgmt
  if m.recovery = true ∧ 0x10000 ≤ off then some 0
  else if off % 8 ≠ 0 then none
  else if off = 8 then some ((if m.busy.isSome then 1 else 0) + (if m.lost then 2 else 0) + m.result % 256 * 2 ^ 8 + m.rlen % 2 ^ 16 * 2 ^ 16)
  else if 0x100 ≤ off ∧ off < 0x8000 then some (bytes m.args 0x100)
  else if 0x8000 ≤ off ∧ off < 0x10000 then some (bytes m.resp 0x8000)
  else if off = 0x12010 then some (match s.flip with
    | none => 0
    | some f => 1 + if f.auto then 2 else 0)
  else if barStored off then some (s.barReg off)
  else if 0x18800 ≤ off ∧ off < 0x19000 then some 0
  else if 0x100000 ≤ off ∧ off < 0x140000 ∧ off % 0x1000 = 8 then
    let n := (off - 0x100000) / 0x1000
    some (s.depth (n / 4) (n % 4) + s.barReg off)
  else none

/-- The host reads eight bytes of BAR0 (R376): what comes back is recorded.  At an offset where nothing can be read it is a
free value (log entry 2). -/
def State.barRead (s : State) (off : Nat) : State :=
  match s.barValue off with
  | some v => s.note (0x300000 + off) v
  | none => { s.note (0x300000 + off) (Config.freeValue s.tick).toNat with tick := s.tick + 1 }

/-! ## Reset and power states (R413, R414) -/

/-- Whether every tenant is OFF. -/
def State.allOff (s : State) : Bool := (List.range 16).all (fun t => s.tenantState t == 0)

/-- What outlives a reset: the memories, whose contents are not cleared (R414), with their poison, and the model's own
records. -/
def State.keep (s : State) (fresh : State) : State :=
  { fresh with
    mem := s.mem, ws := s.ws, wsPoison := s.wsPoison
    dramPoison := (s.dramPoison ++ (s.homes.filter (fun h => h.2.poison)).map Prod.fst).eraseDups
    seen := s.seen, tick := s.tick, agenda := s.agenda }

/-- The measurement log after the steps of a boot, with verdicts on the firmware and the supervisor image (R409, R414). -/
def bootEntries (fw sup : Nat) : List (BitVec 1024) :=
  let entry := fun (i verdict : Nat) => BitVec.ofNat 1024 (logHeader i i verdict (Config.imageVersion i) + (Config.imageDigest i).toNat * 2 ^ 128)
  if fw = 0 then [entry 0 0, entry 1 sup] else [entry 0 fw]

/-- A module reset whose firmware and supervisor image get these verdicts: 0 accepted, 1 bad signature, 2 below the
minimum version (R409, R414).  Firmware that fails leaves the module with the recovery commands alone; a supervisor image
that fails is never run. -/
def State.resetModule (s : State) (fw sup : Nat) : State :=
  let s := s.keep State.reset
  let log := bootEntries (fw % 3) (sup % 3)
  { s with mgmt := { s.mgmt with
    log := log, run := log.foldl runAfter 0, recovery := decide (fw % 3 ≠ 0)
    started := decide (fw % 3 = 0) && decide (sup % 3 = 0) } }

/-- RESET (R414, R415). -/
def execReset (fw sup : Nat) (s : State) : Result := s.command (fun s => s.resetModule fw sup)

/-- COLD_RESET (R414). -/
def execColdReset (fw sup : Nat) (s : State) : Result := .next (s.resetModule fw sup)

/-- STANDBY: refused unless every tenant is OFF; the cores lose their power (R413, R415). -/
def execStandby (s : State) : Result :=
  s.command (fun s =>
    if s.allOff = false then s.reply resultRefused []
    else { s with mgmt := { s.mgmt with power := .standby, started := false, refresh := true } }.reply resultOk [])

/-- Steps 4 to 6 of reset, without a measurement: the state of step 5, and the supervisor gangs start the resident image, if one
was ever accepted (R409, R413, R414).  A core closed to dispatch stays so until a module reset (R407). -/
def State.wake (s : State) : State :=
  let fresh := s.keep State.reset
  let gangs := (List.range 256).map (fun c => (gangKey c 48, s.supervisorGang c))
  { fresh with
    here := s.supervisorGang 0
    gangs := gangs.drop 1
    bar := s.bar
    cores := s.cores.filterMap (fun e =>
      if e.2.noDispatch || !e.2.restarts.isEmpty then some (e.1, { restarts := e.2.restarts, noDispatch := e.2.noDispatch }) else none)
    mgmt := { s.mgmt with
      power := .active, started := s.mgmt.log.any acceptedImage, refresh := false, cap := 1800, step := 0, watchdog := 2400000000
      dies := [], corr := 0, pois := 0, resend := 0, retry := 0, restart := 0, unlogged := 0, offSince := s.mgmt.time } }

/-- WAKE (R413, R415); outside STANDBY it changes nothing. -/
def execWake (s : State) : Result :=
  s.command (fun s => if s.mgmt.power = .standby then s.wake.reply resultOk [] else s.reply resultOk [])

/-- POWER_REMOVAL (R413). -/
def execPowerRemoval (s : State) : Result := .next { s with mgmt := { s.mgmt with power := .off, started := false } }

/-- Whether the supervisor gang of a core is parked in BARWAIT (R413). -/
def State.parked (s : State) (core : Nat) : Bool :=
  match s.gang core 48 with
  | none => false
  | some g => g.stop == .none && g.groups.all (fun p => match p.wait with
    | .barwait _ _ _ _ => true
    | _ => false)

/-- IDLE_ENTRY: every tenant has been OFF for 1 ms, and every supervisor gang is parked in BARWAIT: the cores gate their issue
clocks (R413, R318). -/
def execIdleEntry (s : State) : Result :=
  let m := s.mgmt
  if m.power = .active ∧ s.allOff = true ∧ m.offSince + 21 * 2400000 ≤ m.time ∧ (List.range 256).all s.parked = true then
    .next ((List.range 256).foldl State.tryGate { s with mgmt := { m with power := .idle, idleSince := m.time } })
  else .next s

/-- HBM_SELF_REFRESH: 10 ms in IDLE (R413). -/
def execHbmSelfRefresh (s : State) : Result :=
  let m := s.mgmt
  if m.power = .idle ∧ m.idleSince + 21 * 24000000 ≤ m.time then .next { s with mgmt := { m with refresh := true } } else .next s

/-! ## Clocks (R412) -/

/-- CLOCK_STEP_CHANGE: the clock moves to a neighbouring step, at most every 100 µs (R412). -/
def execClockStepChange (step : Nat) (s : State) : Result :=
  let m := s.mgmt
  if step ≤ 4 ∧ (step = m.step + 1 ∨ m.step = step + 1) ∧ m.stepAt + 21 * 240000 ≤ m.time ∧ (m.power = .active ∨ m.power = .idle) then
    .next { s with mgmt := { m with step := step, stepAt := m.time } }
  else .next s

/-- CURRENT_LIMIT: a surge lowers the clock to a slower step (R412). -/
def execCurrentLimit (step : Nat) (s : State) : Result :=
  let m := s.mgmt
  if step ≤ 4 ∧ m.step < step ∧ (m.power = .active ∨ m.power = .idle) then .next { s with mgmt := { m with step := step } } else .next s

/-! ## Writes of BAR0 (R376, R415) -/

/-- The command of an opcode; a reset's verdicts are free (R409, R415). -/
def State.mailboxCommand (s : State) (cmd : Nat) : Result :=
  match cmd with
  | 0x01 => execGetinfo s
  | 0x02 => execSetcap s
  | 0x03 => execGetpower s
  | 0x04 => execSetwdog s
  | 0x05 => execLoadsup s
  | 0x06 => execGetlog s
  | 0x07 => execGetcert s
  | 0x08 => execQuote s
  | 0x09 => execGeterr s
  | 0x0A => execDiecnt s
  | 0x0B => execDierd s
  | 0x0C => execStandby s
  | 0x0D => execWake s
  | 0x0E =>
    let v := (Config.freeValue s.tick).toNat
    execReset (v % 3) (v / 3 % 3) { s with tick := s.tick + 1 }
  | _ => s.mailbox (fun s => { s with mgmt := { s.mgmt with result := resultBadCmd, rlen := 0 } })

/-- BAR0_REGISTER_WRITE: eight bytes written by the host to a register that has no row of its own, or a command to CMD (R376,
R415).  A value with a reserved bit, or outside its field, is ignored; the argument area of the mailbox takes any bytes.  A new
BIASBASE has the device write its table there (R379). -/
def execBar0RegisterWrite (off v : Nat) (s : State) : Result :=
  if off = 0 then (if v < 256 then s.mailboxCommand v else .next s)
  else if 0x100 ≤ off ∧ off + 8 ≤ 0x8000 then
    .next { s with mgmt := { s.mgmt with
      args := (List.range 8).foldl (fun t i => Table.set 0 t (off - 0x100 + i) (BitVec.ofNat 8 (v / 2 ^ (8 * i)))) s.mgmt.args } }
  else if s.mgmt.recovery then .next s
  else if barOk off v then .next (if off = 0x12000 then (s.setBar off v).writeBiasTable else s.setBar off v)
  else .next s

end Sys2Proof.Machine
end

