-- ==== Sys2Proof/Machine/Dispatch.lean ====
section
/-! DEFINITION. One arm for each instruction: a direct call of its meaning, or a rejection by name. -/

namespace Sys2Proof.Machine

/-- What an instruction does to a state. -/
def exec (i : Instr) (s : State) : Host.Outcome State Fault Refusal :=
  match i with
  | .hdr l w p => Sys2Proof.Machine.execHdr l w p s
  | .setmode imm => Sys2Proof.Machine.execSetmode imm s
  | .br c d => Sys2Proof.Machine.execBr c d s
  | .brNever d => Sys2Proof.Machine.execBrNever d s
  | .call d => Sys2Proof.Machine.execCall d s
  | .jmp a => Sys2Proof.Machine.execJmp a s
  | .callr a => Sys2Proof.Machine.execCallr a s
  | .regang d => Sys2Proof.Machine.execRegang d s
  | .sadd d a b => Sys2Proof.Machine.execSadd d a b s
  | .ssub d a b => Sys2Proof.Machine.execSsub d a b s
  | .smul d a b => Sys2Proof.Machine.execSmul d a b s
  | .smulh d a b => Sys2Proof.Machine.execSmulh d a b s
  | .smulhn d a b => Sys2Proof.Machine.execSmulhn d a b s
  | .sdiv d a b => Sys2Proof.Machine.execSdiv d a b s
  | .sdivn d a b => Sys2Proof.Machine.execSdivn d a b s
  | .srem d a b => Sys2Proof.Machine.execSrem d a b s
  | .sremn d a b => Sys2Proof.Machine.execSremn d a b s
  | .sand d a b => Sys2Proof.Machine.execSand d a b s
  | .sor d a b => Sys2Proof.Machine.execSor d a b s
  | .sxor d a b => Sys2Proof.Machine.execSxor d a b s
  | .sandn d a b => Sys2Proof.Machine.execSandn d a b s
  | .sshl d a b => Sys2Proof.Machine.execSshl d a b s
  | .sshr d a b => Sys2Proof.Machine.execSshr d a b s
  | .ssra d a b => Sys2Proof.Machine.execSsra d a b s
  | .srol d a b => Sys2Proof.Machine.execSrol d a b s
  | .smin d a b => Sys2Proof.Machine.execSmin d a b s
  | .smax d a b => Sys2Proof.Machine.execSmax d a b s
  | .sminn d a b => Sys2Proof.Machine.execSminn d a b s
  | .smaxn d a b => Sys2Proof.Machine.execSmaxn d a b s
  | .sceq d a b => Sys2Proof.Machine.execSceq d a b s
  | .scne d a b => Sys2Proof.Machine.execScne d a b s
  | .sclt d a b => Sys2Proof.Machine.execSclt d a b s
  | .scle d a b => Sys2Proof.Machine.execScle d a b s
  | .scltn d a b => Sys2Proof.Machine.execScltn d a b s
  | .sclen d a b => Sys2Proof.Machine.execSclen d a b s
  | .ssel d a b => Sys2Proof.Machine.execSsel d a b s
  | .spopc d a => Sys2Proof.Machine.execSpopc d a s
  | .sclz d a => Sys2Proof.Machine.execSclz d a s
  | .sctz d a => Sys2Proof.Machine.execSctz d a s
  | .sbrev d a => Sys2Proof.Machine.execSbrev d a s
  | .sextb d a => Sys2Proof.Machine.execSextb d a s
  | .sexth d a => Sys2Proof.Machine.execSexth d a s
  | .sextw d a => Sys2Proof.Machine.execSextw d a s
  | .saddi d a imm => Sys2Proof.Machine.execSaddi d a imm s
  | .sandi d a imm => Sys2Proof.Machine.execSandi d a imm s
  | .sori d a imm => Sys2Proof.Machine.execSori d a imm s
  | .sxori d a imm => Sys2Proof.Machine.execSxori d a imm s
  | .sshli d a imm => Sys2Proof.Machine.execSshli d a imm s
  | .sshri d a imm => Sys2Proof.Machine.execSshri d a imm s
  | .ssrai d a imm => Sys2Proof.Machine.execSsrai d a imm s
  | .sceqi d a imm => Sys2Proof.Machine.execSceqi d a imm s
  | .sli d p imm => Sys2Proof.Machine.execSli d p imm s
  | .slik d p imm => Sys2Proof.Machine.execSlik d p imm s
  | .slis d p imm => Sys2Proof.Machine.execSlis d p imm s
  | .mand d a b => Sys2Proof.Machine.execMand d a b s
  | .mor d a b => Sys2Proof.Machine.execMor d a b s
  | .mxor d a b => Sys2Proof.Machine.execMxor d a b s
  | .mandn d a b => Sys2Proof.Machine.execMandn d a b s
  | .mnot d a => Sys2Proof.Machine.execMnot d a s
  | .mmov d a => Sys2Proof.Machine.execMmov d a s
  | .mtos d a => Sys2Proof.Machine.execMtos d a s
  | .stom d a => Sys2Proof.Machine.execStom d a s
  | .mpopc d a => Sys2Proof.Machine.execMpopc d a s
  | .mfirst d a => Sys2Proof.Machine.execMfirst d a s
  | .mslice d a => Sys2Proof.Machine.execMslice d a s
  | .srd d imm => Sys2Proof.Machine.execSrd d imm s
  | .swr a imm => Sys2Proof.Machine.execSwr a imm s
  | .sxch d a imm => Sys2Proof.Machine.execSxch d a imm s
  | .vadd d a b => Sys2Proof.Machine.execVadd d a b s
  | .vsub d a b => Sys2Proof.Machine.execVsub d a b s
  | .vmul d a b => Sys2Proof.Machine.execVmul d a b s
  | .vmulh d a b => Sys2Proof.Machine.execVmulh d a b s
  | .vfma d a b => Sys2Proof.Machine.execVfma d a b s
  | .vfms d a b => Sys2Proof.Machine.execVfms d a b s
  | .vfnma d a b => Sys2Proof.Machine.execVfnma d a b s
  | .vfnms d a b => Sys2Proof.Machine.execVfnms d a b s
  | .vmin d a b => Sys2Proof.Machine.execVmin d a b s
  | .vmax d a b => Sys2Proof.Machine.execVmax d a b s
  | .vadds d a b => Sys2Proof.Machine.execVadds d a b s
  | .vsubs d a b => Sys2Proof.Machine.execVsubs d a b s
  | .vand d a b => Sys2Proof.Machine.execVand d a b s
  | .vor d a b => Sys2Proof.Machine.execVor d a b s
  | .vxor d a b => Sys2Proof.Machine.execVxor d a b s
  | .vandn d a b => Sys2Proof.Machine.execVandn d a b s
  | .vshl d a b => Sys2Proof.Machine.execVshl d a b s
  | .vshr d a b => Sys2Proof.Machine.execVshr d a b s
  | .vsra d a b => Sys2Proof.Machine.execVsra d a b s
  | .vrol d a b => Sys2Proof.Machine.execVrol d a b s
  | .vcmp c m a b => Sys2Proof.Machine.execVcmp c m a b s
  | .vcmpn c m a b => Sys2Proof.Machine.execVcmpn c m a b s
  | .vclass n m a sf => Sys2Proof.Machine.execVclass n m a sf s
  | .vtest t m a b => Sys2Proof.Machine.execVtest t m a b s
  | .vsel d a b => Sys2Proof.Machine.execVsel d a b s
  | .vmov d a => Sys2Proof.Machine.execVmov d a s
  | .vneg d a => Sys2Proof.Machine.execVneg d a s
  | .vabs d a => Sys2Proof.Machine.execVabs d a s
  | .vnot d a => Sys2Proof.Machine.execVnot d a s
  | .vpopc d a => Sys2Proof.Machine.execVpopc d a s
  | .vclz d a => Sys2Proof.Machine.execVclz d a s
  | .vbrev d a => Sys2Proof.Machine.execVbrev d a s
  | .vfloor d a => Sys2Proof.Machine.execVfloor d a s
  | .vceil d a => Sys2Proof.Machine.execVceil d a s
  | .vtrunc d a => Sys2Proof.Machine.execVtrunc d a s
  | .vrint d a => Sys2Proof.Machine.execVrint d a s
  | .vfrac d a => Sys2Proof.Machine.execVfrac d a s
  | .vsqrt d a => Sys2Proof.Machine.execVsqrt d a s
  | .vrcp d a => Sys2Proof.Machine.execVrcp d a s
  | .vrsq d a => Sys2Proof.Machine.execVrsq d a s
  | .vexp2 d a => Sys2Proof.Machine.execVexp2 d a s
  | .vlog2 d a => Sys2Proof.Machine.execVlog2 d a s
  | .vsin d a => Sys2Proof.Machine.execVsin d a s
  | .vcos d a => Sys2Proof.Machine.execVcos d a s
  | .vtanh d a => Sys2Proof.Machine.execVtanh d a s
  | .vsigm d a => Sys2Proof.Machine.execVsigm d a s
  | .vgelu d a => Sys2Proof.Machine.execVgelu d a s
  | .verf d a => Sys2Proof.Machine.execVerf d a s
  | .vcvt d a sf t => Sys2Proof.Machine.execVcvt d a sf t s
  | .vcvtTo64 d a c => Sys2Proof.Machine.execVcvtTo64 d a c s
  | .vcvtFrom64 d a c => Sys2Proof.Machine.execVcvtFrom64 d a c s
  | .vcvtX64 d a c => Sys2Proof.Machine.execVcvtX64 d a c s
  | .vpack d a sf t => Sys2Proof.Machine.execVpack d a sf t s
  | .vunpkl d a sf t => Sys2Proof.Machine.execVunpkl d a sf t s
  | .vunpkh d a sf t => Sys2Proof.Machine.execVunpkh d a sf t s
  | .vaddi d a imm => Sys2Proof.Machine.execVaddi d a imm s
  | .vandi d a imm => Sys2Proof.Machine.execVandi d a imm s
  | .vori d a imm => Sys2Proof.Machine.execVori d a imm s
  | .vshli d a imm => Sys2Proof.Machine.execVshli d a imm s
  | .vmuli d a imm => Sys2Proof.Machine.execVmuli d a imm s
  | .vshri d a imm => Sys2Proof.Machine.execVshri d a imm s
  | .vsrai d a imm => Sys2Proof.Machine.execVsrai d a imm s
  | .vcmpi c m a imm => Sys2Proof.Machine.execVcmpi c m a imm s
  | .vxorl d a m k => Sys2Proof.Machine.execVxorl d a m k s
  | .vrotl d a m k => Sys2Proof.Machine.execVrotl d a m k s
  | .vbcl d a m k => Sys2Proof.Machine.execVbcl d a m k s
  | .vlstep d a m k => Sys2Proof.Machine.execVlstep d a m k s
  | .vscan d a m o => Sys2Proof.Machine.execVscan d a m o s
  | .vreds d a m o => Sys2Proof.Machine.execVreds d a m o s
  | .vvote d a m o => Sys2Proof.Machine.execVvote d a m o s
  | .vmatch d a m o => Sys2Proof.Machine.execVmatch d a m o s
  | .vdiv d a b => Sys2Proof.Machine.execVdiv d a b s
  | .vdot4 d a b => Sys2Proof.Machine.execVdot4 d a b s
  | .vaddc d a b => Sys2Proof.Machine.execVaddc d a b s
  | .vmulw d a b => Sys2Proof.Machine.execVmulw d a b s
  | .vrng d a b => Sys2Proof.Machine.execVrng d a b s
  | .vdrop d a b => Sys2Proof.Machine.execVdrop d a b s
  | .vbcst d a => Sys2Proof.Machine.execVbcst d a s
  | .vlane d => Sys2Proof.Machine.execVlane d s
  | .ld d x b f => Sys2Proof.Machine.execLd d x b f s
  | .lda d x b f => Sys2Proof.Machine.execLda d x b f s
  | .ldw d x b f => Sys2Proof.Machine.execLdw d x b f s
  | .ldnt d x b f => Sys2Proof.Machine.execLdnt d x b f s
  | .st d x b f => Sys2Proof.Machine.execSt d x b f s
  | .stl d x b f => Sys2Proof.Machine.execStl d x b f s
  | .stw d x b f => Sys2Proof.Machine.execStw d x b f s
  | .stnt d x b f => Sys2Proof.Machine.execStnt d x b f s
  | .ldb d x b f => Sys2Proof.Machine.execLdb d x b f s
  | .ldbs d x b f => Sys2Proof.Machine.execLdbs d x b f s
  | .ldh d x b f => Sys2Proof.Machine.execLdh d x b f s
  | .ldhs d x b f => Sys2Proof.Machine.execLdhs d x b f s
  | .stb d x b f => Sys2Proof.Machine.execStb d x b f s
  | .sth d x b f => Sys2Proof.Machine.execSth d x b f s
  | .ldd d x b f => Sys2Proof.Machine.execLdd d x b f s
  | .std d x b f => Sys2Proof.Machine.execStd d x b f s
  | .ldf d x b f => Sys2Proof.Machine.execLdf d x b f s
  | .ldf2 d x b f => Sys2Proof.Machine.execLdf2 d x b f s
  | .ldfs d x b f => Sys2Proof.Machine.execLdfs d x b f s
  | .ldfx d x b f => Sys2Proof.Machine.execLdfx d x b f s
  | .lds d x b f => Sys2Proof.Machine.execLds d x b f s
  | .sts d x b f => Sys2Proof.Machine.execSts d x b f s
  | .ldp d x b f => Sys2Proof.Machine.execLdp d x b f s
  | .stp d x b f => Sys2Proof.Machine.execStp d x b f s
  | .atomAdd d x b f => Sys2Proof.Machine.execAtomAdd d x b f s
  | .atomMin d x b f => Sys2Proof.Machine.execAtomMin d x b f s
  | .atomMax d x b f => Sys2Proof.Machine.execAtomMax d x b f s
  | .atomXchg d x b f => Sys2Proof.Machine.execAtomXchg d x b f s
  | .atomAnd d x b f => Sys2Proof.Machine.execAtomAnd d x b f s
  | .atomOr d x b f => Sys2Proof.Machine.execAtomOr d x b f s
  | .atomXor d x b f => Sys2Proof.Machine.execAtomXor d x b f s
  | .atomCas d x b f => Sys2Proof.Machine.execAtomCas d x b f s
  | .atomFadd d x b f => Sys2Proof.Machine.execAtomFadd d x b f s
  | .atomFmin d x b f => Sys2Proof.Machine.execAtomFmin d x b f s
  | .atomFmax d x b f => Sys2Proof.Machine.execAtomFmax d x b f s
  | .atomInc d x b f => Sys2Proof.Machine.execAtomInc d x b f s
  | .redAdd d x b f => Sys2Proof.Machine.execRedAdd d x b f s
  | .redMin d x b f => Sys2Proof.Machine.execRedMin d x b f s
  | .redMax d x b f => Sys2Proof.Machine.execRedMax d x b f s
  | .redFadd d x b f => Sys2Proof.Machine.execRedFadd d x b f s
  | .redAnd d x b f => Sys2Proof.Machine.execRedAnd d x b f s
  | .redOr d x b f => Sys2Proof.Machine.execRedOr d x b f s
  | .redXor d x b f => Sys2Proof.Machine.execRedXor d x b f s
  | .redFmax d x b f => Sys2Proof.Machine.execRedFmax d x b f s
  | .sld d a imm => Sys2Proof.Machine.execSld d a imm s
  | .slda d a imm => Sys2Proof.Machine.execSlda d a imm s
  | .sst d a imm => Sys2Proof.Machine.execSst d a imm s
  | .sstl d a imm => Sys2Proof.Machine.execSstl d a imm s
  | .satomAdd d a b o => Sys2Proof.Machine.execSatomAdd d a b o s
  | .satomMin d a b o => Sys2Proof.Machine.execSatomMin d a b o s
  | .satomMax d a b o => Sys2Proof.Machine.execSatomMax d a b o s
  | .satomXchg d a b o => Sys2Proof.Machine.execSatomXchg d a b o s
  | .satomAnd d a b o => Sys2Proof.Machine.execSatomAnd d a b o s
  | .satomOr d a b o => Sys2Proof.Machine.execSatomOr d a b o s
  | .satomXor d a b o => Sys2Proof.Machine.execSatomXor d a b o s
  | .satomCas d a b o => Sys2Proof.Machine.execSatomCas d a b o s
  | .satomFadd d a b o => Sys2Proof.Machine.execSatomFadd d a b o s
  | .satomFmin d a b o => Sys2Proof.Machine.execSatomFmin d a b o s
  | .satomFmax d a b o => Sys2Proof.Machine.execSatomFmax d a b o s
  | .satomInc d a b o => Sys2Proof.Machine.execSatomInc d a b o s
  | .satomMinn d a b o => Sys2Proof.Machine.execSatomMinn d a b o s
  | .satomMaxn d a b o => Sys2Proof.Machine.execSatomMaxn d a b o s
  | .fence sf => Sys2Proof.Machine.execFence sf s
  | .fenceEng sf => Sys2Proof.Machine.execFenceEng sf s
  | .pref a l => Sys2Proof.Machine.execPref a l s
  | .lease a n => Sys2Proof.Machine.execLease a n s
  | .wbr sf a b => Sys2Proof.Machine.execWbr sf a b s
  | .drain sf => Sys2Proof.Machine.execDrain sf s
  | .mma c a b n t sf f => Sys2Proof.Machine.execMma c a b n t sf f s
  | .wload d a f => Sys2Proof.Machine.execWload d a f s
  | .wloadw d a f => Sys2Proof.Machine.execWloadw d a f s
  | .wclr d => Sys2Proof.Machine.execWclr d s
  | .mcompS24 d a f => Sys2Proof.Machine.execMcompS24 d a f s
  | .mcompS48 d a f => Sys2Proof.Machine.execMcompS48 d a f s
  | .accz d => Sys2Proof.Machine.execAccz d s
  | .accrd d a b f => Sys2Proof.Machine.execAccrd d a b f s
  | .accwr d a b f => Sys2Proof.Machine.execAccwr d a b f s
  | .accchk d => Sys2Proof.Machine.execAccchk d s
  | .layer a => Sys2Proof.Machine.execLayer a s
  | .dmma d a b f => Sys2Proof.Machine.execDmma d a b f s
  | .drefresh d a b f => Sys2Proof.Machine.execDrefresh d a b f s
  | .dinval a b => Sys2Proof.Machine.execDinval a b s
  | .dstat d a => Sys2Proof.Machine.execDstat d a s
  | .acopy d a b f => Sys2Proof.Machine.execAcopy d a b f s
  | .agath d a b f => Sys2Proof.Machine.execAgath d a b f s
  | .ascat d a b f => Sys2Proof.Machine.execAscat d a b f s
  | .afill d a b f => Sys2Proof.Machine.execAfill d a b f s
  | .rtkt d a => Sys2Proof.Machine.execRtkt d a s
  | .rfill a b => Sys2Proof.Machine.execRfill a b s
  | .rhead d a b => Sys2Proof.Machine.execRhead d a b s
  | .post a => Sys2Proof.Machine.execPost a s
  | .postn a => Sys2Proof.Machine.execPostn a s
  | .walk d => Sys2Proof.Machine.execWalk d s
  | .wdone a => Sys2Proof.Machine.execWdone a s
  | .ephrd d b => Sys2Proof.Machine.execEphrd d b s
  | .ephwr a b => Sys2Proof.Machine.execEphwr a b s
  | .ephcommit d => Sys2Proof.Machine.execEphcommit d s
  | .covq d a => Sys2Proof.Machine.execCovq d a s
  | .barinit a b => Sys2Proof.Machine.execBarinit a b s
  | .bararr a => Sys2Proof.Machine.execBararr a s
  | .barexp a b => Sys2Proof.Machine.execBarexp a b s
  | .barwait n a b => Sys2Proof.Machine.execBarwait n a b s
  | .bartry d a b => Sys2Proof.Machine.execBartry d a b s
  | .watch d a b => Sys2Proof.Machine.execWatch d a b s
  | .unwatch a b => Sys2Proof.Machine.execUnwatch a b s
  | .claim a => Sys2Proof.Machine.execClaim a s
  | .give a => Sys2Proof.Machine.execGive a s
  | .poolq d => Sys2Proof.Machine.execPoolq d s
  | .amsg d a b => Sys2Proof.Machine.execAmsg d a b s
  | .abump d a b => Sys2Proof.Machine.execAbump d a b s
  | .svc d a => Sys2Proof.Machine.execSvc d a s
  | .trap a => Sys2Proof.Machine.execTrap a s
  | .eret a b => Sys2Proof.Machine.execEret a b s
  | .tlbinv a b => Sys2Proof.Machine.execTlbinv a b s
  | .tlbinva a => Sys2Proof.Machine.execTlbinva a s
  | .haltg a => Sys2Proof.Machine.execHaltg a s
  | .wakeg a => Sys2Proof.Machine.execWakeg a s
  | .ret => Sys2Proof.Machine.execRet s
  | .exit => Sys2Proof.Machine.execExit s
  | .yield => Sys2Proof.Machine.execYield s
  | .nop => Sys2Proof.Machine.execNop s
  | .fenceIo => Sys2Proof.Machine.execFenceIo s
  | .bararrGrid => Sys2Proof.Machine.execBararrGrid s
  | .barwaitGrid => Sys2Proof.Machine.execBarwaitGrid s
  | .illegal => Sys2Proof.Machine.execIllegal s
  | .stalledWordIssue core slot slice => Sys2Proof.Machine.execStalledWordIssue core slot slice s
  | .instructionFetch core slot va => Sys2Proof.Machine.execInstructionFetch core slot va s
  | .pageWalk core tenant va => Sys2Proof.Machine.execPageWalk core tenant va s
  | .fifoEntryDrain core => Sys2Proof.Machine.execFifoEntryDrain core s
  | .homeStore core item => Sys2Proof.Machine.execHomeStore core item s
  | .storeAcknowledge core item => Sys2Proof.Machine.execStoreAcknowledge core item s
  | .releaseSend op => Sys2Proof.Machine.execReleaseSend op s
  | .homeLeaseGrant op line => Sys2Proof.Machine.execHomeLeaseGrant op line s
  | .lineFill op line lo hi => Sys2Proof.Machine.execLineFill op line lo hi s
  | .homeAtomic op line => Sys2Proof.Machine.execHomeAtomic op line s
  | .atomicAcknowledge op line => Sys2Proof.Machine.execAtomicAcknowledge op line s
  | .writeBack core item => Sys2Proof.Machine.execWriteBack core item s
  | .homeEvict line => Sys2Proof.Machine.execHomeEvict line s
  | .dramRefill line => Sys2Proof.Machine.execDramRefill line s
  | .rebase => Sys2Proof.Machine.execRebase s
  | .watchArrival block offset => Sys2Proof.Machine.execWatchArrival block offset s
  | .peerScratchpadAccess op lo hi => Sys2Proof.Machine.execPeerScratchpadAccess op lo hi s
  | .barwaitWake core slot slice => Sys2Proof.Machine.execBarwaitWake core slot slice s
  | .coreUngate core => Sys2Proof.Machine.execCoreUngate core s
  | .claimGrant core slot slice => Sys2Proof.Machine.execClaimGrant core slot slice s
  | .gangEnd core slot => Sys2Proof.Machine.execGangEnd core slot s
  | .blockEnd block => Sys2Proof.Machine.execBlockEnd block s
  | .phaseEnd block => Sys2Proof.Machine.execPhaseEnd block s
  | .phaseRedispatch launch core => Sys2Proof.Machine.execPhaseRedispatch launch core s
  | .launch t q va => Sys2Proof.Machine.execLaunch t q va s
  | .launchWindowStatusWrite t q v => Sys2Proof.Machine.execLaunchWindowStatusWrite t q v s
  | .launchAdmit t q => Sys2Proof.Machine.execLaunchAdmit t q s
  | .blockDispatch launch cores => Sys2Proof.Machine.execBlockDispatch launch cores s
  | .completionRecordWrite launch => Sys2Proof.Machine.execCompletionRecordWrite launch s
  | .taskDispatch job core => Sys2Proof.Machine.execTaskDispatch job core s
  | .overflowRingMove tenant cluster => Sys2Proof.Machine.execOverflowRingMove tenant cluster s
  | .engineCommandStart core cmd => Sys2Proof.Machine.execEngineCommandStart core cmd s
  | .granuleLand core cmd => Sys2Proof.Machine.execGranuleLand core cmd s
  | .matrixOpStart core op => Sys2Proof.Machine.execMatrixOpStart core op s
  | .rowBufferStage core op step => Sys2Proof.Machine.execRowBufferStage core op step s
  | .kstepPlanes core op step => Sys2Proof.Machine.execKstepPlanes core op step s
  | .accumulatorAdd core op => Sys2Proof.Machine.execAccumulatorAdd core op s
  | .umbraEntryTransfer tenant layer key => Sys2Proof.Machine.execUmbraEntryTransfer tenant layer key s
  | .deferredFaultTaken core slot => Sys2Proof.Machine.execDeferredFaultTaken core slot s
  | .weightStoreWindowClose => Sys2Proof.Machine.execWeightStoreWindowClose s
  | .networkArbitration port => Sys2Proof.Machine.execNetworkArbitration port s
  | .linkResend die stop times => Sys2Proof.Machine.execLinkResend die stop times s
  | .hostRead line own => Sys2Proof.Machine.execHostRead line own s
  | .hostWrite line mask data => Sys2Proof.Machine.execHostWrite line mask data s
  | .backInvalidate line mask data => Sys2Proof.Machine.execBackInvalidate line mask data s
  | .biasFlip v => Sys2Proof.Machine.execBiasFlip v s
  | .biasFlipComplete => Sys2Proof.Machine.execBiasFlipComplete s
  | .hreq v => Sys2Proof.Machine.execHreq v s
  | .tierWindowWrite port size v => Sys2Proof.Machine.execTierWindowWrite port size v s
  | .bar0RegisterWrite off v => Sys2Proof.Machine.execBar0RegisterWrite off v s
  | .weightStoreCommand v => Sys2Proof.Machine.execWeightStoreCommand v s
  | .weightStoreWriteDone => Sys2Proof.Machine.execWeightStoreWriteDone s
  | .peerRequestReceive source addr size kind mode data cmp => Sys2Proof.Machine.execPeerRequestReceive source addr size kind mode data cmp s
  | .fabricResend op => Sys2Proof.Machine.execFabricResend op s
  | .fabricTimeout op line => Sys2Proof.Machine.execFabricTimeout op line s
  | .activeMessageReceive t cluster n source from_ payload => Sys2Proof.Machine.execActiveMessageReceive t cluster n source from_ payload s
  | .activeMessageAnswer op status => Sys2Proof.Machine.execActiveMessageAnswer op status s
  | .handlerDispatch job core => Sys2Proof.Machine.execHandlerDispatch job core s
  | .messageRingDrain t => Sys2Proof.Machine.execMessageRingDrain t s
  | .preemptSave => Sys2Proof.Machine.execPreemptSave s
  | .preemptRestore prefs => Sys2Proof.Machine.execPreemptRestore prefs s
  | .tctlOff t => Sys2Proof.Machine.execTctlOff t s
  | .tctlRun t => Sys2Proof.Machine.execTctlRun t s
  | .tctlSuspend t => Sys2Proof.Machine.execTctlSuspend t s
  | .tctlTeardown t => Sys2Proof.Machine.execTctlTeardown t s
  | .teardownComplete t => Sys2Proof.Machine.execTeardownComplete t s
  | .trootWrite t v => Sys2Proof.Machine.execTrootWrite t v s
  | .umbraRegionWrite t size v => Sys2Proof.Machine.execUmbraRegionWrite t size v s
  | .flogptrWrite t v => Sys2Proof.Machine.execFlogptrWrite t v s
  | .formatWindowWrite w r v => Sys2Proof.Machine.execFormatWindowWrite w r v s
  | .getinfo => Sys2Proof.Machine.execGetinfo s
  | .setcap => Sys2Proof.Machine.execSetcap s
  | .getpower => Sys2Proof.Machine.execGetpower s
  | .setwdog => Sys2Proof.Machine.execSetwdog s
  | .loadsup => Sys2Proof.Machine.execLoadsup s
  | .getlog => Sys2Proof.Machine.execGetlog s
  | .getcert => Sys2Proof.Machine.execGetcert s
  | .quote => Sys2Proof.Machine.execQuote s
  | .geterr => Sys2Proof.Machine.execGeterr s
  | .diecnt => Sys2Proof.Machine.execDiecnt s
  | .dierd => Sys2Proof.Machine.execDierd s
  | .standby => Sys2Proof.Machine.execStandby s
  | .wake => Sys2Proof.Machine.execWake s
  | .reset fw sup => Sys2Proof.Machine.execReset fw sup s
  | .mailboxStatusWrite v => Sys2Proof.Machine.execMailboxStatusWrite v s
  | .coldReset fw sup => Sys2Proof.Machine.execColdReset fw sup s
  | .powerRemoval => Sys2Proof.Machine.execPowerRemoval s
  | .clockStepChange step => Sys2Proof.Machine.execClockStepChange step s
  | .currentLimit step => Sys2Proof.Machine.execCurrentLimit step s
  | .idleEntry => Sys2Proof.Machine.execIdleEntry s
  | .hbmSelfRefresh => Sys2Proof.Machine.execHbmSelfRefresh s
  | .watchdogExpiry core => Sys2Proof.Machine.execWatchdogExpiry core s
  | .supervisorRestart core => Sys2Proof.Machine.execSupervisorRestart core s
  | .rootOfTrustFailure => Sys2Proof.Machine.execRootOfTrustFailure s
  | .peerAccessAnswer op line refused poison data => Sys2Proof.Machine.execPeerAccessAnswer op line refused poison data s

end Sys2Proof.Machine
end

