-- ==== Sys2Proof/Machine/Upkeep.lean ====
section
/-! DEFINITION. What the device does by itself before each step: the rebase that a clock past its limit asks for (R242), the
eviction of what the caches cannot hold (R15 to R17, R219, R220, R358), writes of the device and a LOADSUP that waited for the
host (R247, R415), dependences that have been met (R306), new parity of registers that were written (R404), and the ageing of run
headers that are ready (R316). -/

namespace Sys2Proof.Machine

/-! ## Rebase (R227, R242) -/

/-- Whether some clock asks for a rebase. -/
def State.rebaseDue (s : State) : Bool := s.clocks.any (fun e => decide (0xC0000000 < e.2))

/-- The rebase that is due, after the end of one that still runs: at most one runs at a time (R242). -/
def State.autoRebase (s : State) : State :=
  if s.rebaseDue then
    match execRebase { s with rebasing := false } with
    | .next t => t
    | _ => s
  else s

/-! ## Capacities (R15 to R17, R219, R220, R358)

Which line or entry gives way is not architectural: it is a free value (log entries 2 and 68). -/

/-- A table without the entry at a place, counted round. -/
def Table.evictAt {α : Type} (t : Table α) (place : Nat) : Table α :=
  match t.drop (place % max 1 t.length) with
  | [] => t
  | e :: _ => t.erase e.1

/-- A table cut down to `limit` entries; `fuel` bounds those that go. -/
def Table.cut {α : Type} (limit tick : Nat) : Nat → Table α → Table α
  | 0, t => t
  | fuel + 1, t => if t.length ≤ limit then t else (t.evictAt (Config.freeValue (tick + fuel)).toNat).cut limit tick fuel

/-- A table that holds at most `limit` entries. -/
def Table.atMost {α : Type} (limit tick : Nat) (t : Table α) : Table α :=
  if t.length ≤ limit then t else t.cut limit tick t.length

/-- The lines that an L1 holds: 1,024 KiB less the scratchpad partition (R215, R219). -/
def l1Lines (split : Nat) : Nat := (1024 - 128 * split) * 16

/-- A core's caches within their sizes; dirty lines take their share of the L1. -/
def Core.fit (tick : Nat) (c : Core) : Core :=
  { c with
    l1 := c.l1.atMost (l1Lines c.split - (c.fifo.map FifoItem.line).eraseDups.length) tick
    icache := c.icache.atMost 1024 tick
    tlb := c.tlb.atMost 128 tick }

/-- A cluster's caches within their sizes. -/
def Cluster.fit (tick : Nat) (c : Cluster) : Cluster :=
  { c with copies := c.copies.atMost 32768 tick, tlb := c.tlb.atMost 4096 tick }

/-- The 32-byte halves that a line takes at its home (R220). -/
def halvesOf (form : Nat) : Nat := if form = 0 then 2 else if form = 1 then 0 else 1

/-- Whether the lines held at a home channel fit it: 32,768 tags, and as many halves (R17, R220). -/
def State.channelFits (s : State) (lines : List Nat) : Bool :=
  decide (lines.length ≤ 32768) &&
    decide (lines.foldl (fun n l => n + halvesOf (storedForm (s.lineBytes l))) 0 ≤ 32768)

/-- Lines evicted from a home channel until the others fit; those that the bridge holds for the host stay (R241). -/
def State.fitChannel (s : State) (channel : Nat) : Nat → State
  | 0 => s
  | fuel + 1 =>
    let mine := s.homes.keys.filter (fun l => (regionOf (64 * l) == .hbm || regionOf (64 * l) == .tier) && channelOf (64 * l) == channel)
    if s.channelFits mine then s
    else
      let free := mine.filter (fun l => (s.home l).host == HostState.invalid)
      match free.drop ((Config.freeValue (s.tick + fuel)).toNat % max 1 free.length) with
      | [] => s
      | l :: _ => (s.evictHome l).fitChannel channel fuel

/-- The homes within their sizes.  Fewer than 16,385 lines fit whatever their forms and channels. -/
def State.fitHomes (s : State) : State :=
  if s.homes.length ≤ 16384 then s
  else (List.range 128).foldl (fun s c => s.fitChannel c s.homes.length) s

/-- Whether some cache of a core or cluster holds more than it can. -/
def State.overfull (s : State) : Bool :=
  s.cores.any (fun e => e.2.fit s.tick != e.2) || s.clusters.any (fun e => e.2.fit s.tick != e.2) || decide (16384 < s.homes.length)

/-- Every cache within its size. -/
def State.fitCaches (s : State) : State :=
  if s.overfull then
    State.fitHomes { s with
      cores := s.cores.map (fun e => (e.1, e.2.fit s.tick))
      clusters := s.clusters.map (fun e => (e.1, e.2.fit s.tick))
      tick := s.tick + 1 }
  else s

/-! ## Headers that are ready (R316) -/

/-- The major opcode of a word (R53). -/
def majorOf (w : Word) : Nat := field w.toNat 26 6

/-- Whether a header word keeps the run rules: LEN from 1 to 24 and [7:0] zero (R63). -/
def headerOk (w : Word) : Bool :=
  decide (1 ≤ field w.toNat 21 5) && decide (field w.toNat 21 5 ≤ 24) && field w.toNat 0 8 == 0

/-- Whether the header at the position of a gang's group on the pipe is ready, all its WAIT flags zero, and with it the
cycles by which its PRIO bit ages it.  A word that is no header, or cannot be fetched, is ready to be refused. -/
def State.headerReady (s : State) (g : Gang) : Option Nat :=
  match s.fetchFor g with
  | .error _ => some 0
  | .ok none => none
  | .ok (some w) =>
    if majorOf w ≠ 0 ∨ headerOk w = false then some 0
    else if g.flagsClear (BitVec.ofNat 12 (field w.toNat 9 12)) then some (if bitOf w.toNat 8 then 64 else 0)
    else none

/-- A group between runs whose header has become ready takes its age: that of the cycle to come (R316, R327). -/
def State.ageGroup (s : State) (g : Gang) (p : Group) : Group :=
  if p.run = none ∧ p.age = none ∧ p.slices ≠ 0 ∧ (p.wait = .ready ∨ p.wait = .stalled) then
    match s.headerReady { g with grp := p } with
    | some early => { p with age := some (s.cycle + 65 - early), from_ := s.cycle + 1 }
    | none => p
  else p

/-- The groups of a gang aged. -/
def State.ageGang (s : State) (g : Gang) : Gang :=
  { g with grp := s.ageGroup g g.grp, parted := g.parted.map (s.ageGroup g) }

/-- The supervisor gangs of the cores on which other gangs stand take part in the issue of those cores (R359). -/
def State.callSupervisors (s : State) : State :=
  let cores := (s.allGangs.filter (fun g => !g.isSupervisor)).map Gang.core
  let missing := cores.eraseDups.filter (fun c => decide (c < coreCount) && (s.gangs.find (gangKey c 48)).isNone &&
    !(s.here.core == c && s.here.slot == 48))
  { s with gangs := missing.foldl (fun t c => t.insert (gangKey c 48) (Gang.supervisor c)) s.gangs }

/-- Every group aged. -/
def State.age (s : State) : State :=
  { s with here := s.ageGang s.here, gangs := s.gangs.map (fun e => (e.1, s.ageGang e.2)) }

/-! ## Dependences and parity (R306, R404) -/

/-- A card whose dependence a phase completion has met keeps that phase's timestamp, whether or not the posting block ends before
the card is dispatched (R306). -/
def State.noteMet (s : State) : State :=
  if s.jobs.any (fun e => e.2.depen && e.2.met.isNone && e.2.place != .running) then
    { s with jobs := s.jobs.map (fun e =>
        if e.2.depen && e.2.met.isNone && e.2.place != .running && ((s.blocks.find e.2.block).map (fun b => !b.ended)).getD true then
          (e.1, { e.2 with met := s.dependence e.2 })
        else e) }
  else s

/-- The copies of a gang's registers that errors have struck and that no write has replaced since: a register that holds another
value has been written (R404, log entry 84). -/
def Gang.healed (g : Gang) : Gang := { g with badRegs := g.badRegs.filter (fun b => b.reg.value g == b.value) }

/-- Every gang's marks of errors as they stand. -/
def State.healed (s : State) : State :=
  if s.allGangs.any (fun g => !g.badRegs.isEmpty) then
    { s with here := s.here.healed, gangs := s.gangs.map (fun e => (e.1, e.2.healed)) }
  else s

/-- What comes before each step. -/
def State.upkeep (s : State) : State := (s.autoRebase.flushWork.goOnLoading.noteMet.healed.fitCaches.callSupervisors).age

end Sys2Proof.Machine
end

