-- ==== Sys2Proof/Machine/Issue.lean ====
section
/-! DEFINITION. Issuing a word (R53, R61 to R66, R80, R81), and the turns of the agents: the agenda where it names one, and
else an order in which the machine goes on by itself (log entry 1). -/

namespace Sys2Proof.Machine

/-! ## Words -/

/-- Whether a word is of a run-ending form (R62): a BR with one of the conditions 0 to 7, since 9 to 15 are no form at all (R75,
R80, R322).  A word of major 0x03 counts as a CALL whatever its COND, so that one whose COND is not zero raises RUNFORM before its
run's end (R78, R81; log entry 63). -/
def runEnding (w : Word) : Bool :=
  match majorOf w with
  | 2 => decide (field w.toNat 22 4 < 8)
  | 3 => true
  | 4 => decide (field w.toNat 0 8 ≤ 5)
  | 0x37 => field w.toNat 0 4 == 3
  | 0x38 => field w.toNat 0 4 == 0
  | 0x3A => decide (field w.toNat 0 8 ≤ 2)
  | _ => false

/-! ## Who may issue (R34, R65, R355, R362, R364, R372, R400) -/

/-- Whether the group of a gang that is on the pipe stands between runs. -/
def Gang.between (g : Gang) : Bool := g.grp.run == none

/-- Whether a gang is held at its next run boundary: by HALTG, a save, a teardown, or its stopped context (R308, R355,
R364, R372). -/
def State.heldBetween (s : State) (g : Gang) : Bool :=
  g.halted || (!g.isSupervisor && (s.inSet g.block || s.tenantState (s.tenantOf g) == 3 || s.ringStopped.contains (s.tenantOf g)))

/-- Whether a gang's stop holds the group on the pipe: between runs, or where that group met the fault (R362). -/
def Gang.stopped (g : Gang) : Bool :=
  match g.stop with
  | .none => false
  | .fault _ _ sl _ => g.between || sl == g.grp.slices

/-- Whether a gang's group on the pipe may issue its next word or header. -/
def State.mayIssueOf (s : State) (g : Gang) : Bool :=
  s.coresRun && !(s.core g.core).gated && !g.ended && !g.killed && !g.stopped && !(g.between && s.heldBetween g) &&
    g.grp.slices != 0 && g.grp.wait == .ready

/-- Whether the issuing group may issue now. -/
def State.mayIssue (s : State) : Bool := s.mayIssueOf s.here

/-! ## Issuing -/

/-- A word whose first execution fails its check executes once more (R403). -/
def State.retryWord (s : State) : State :=
  if s.here.mismatch = 0 then s
  else
    let s := (s.onHere (fun g => { g with mismatch := 0 })).count s.here.core 14 1
    { s with mgmt := { s.mgmt with retry := s.mgmt.retry + 1 } }

/-- Whether the gang on the pipe has issued its word in the step from `s` to `t`: it waits for no second try, and has met no
fault. -/
def State.issuedIn (s t : State) : Bool :=
  s.here.core == t.here.core && s.here.slot == t.here.slot && s.here.stop == t.here.stop && !t.here.killed && t.here.grp.wait != .stalled

/-- The issue slot that the header or word on the pipe takes: none for the first word of a run, which its header brings along
(R316). -/
def State.issueSlot (s : State) : List Nat := if s.here.grp.bound then [] else [2 * s.here.core + s.here.grp.pipe]

/-- An issued header or word counted, and its issue slot taken (R316, R417). -/
def State.noteIssue (s t : State) : State :=
  if s.issuedIn t then
    { t.count s.here.core (if s.here.between then 3 else 4) 1 with used := s.issueSlot ++ t.used }
  else t

/-- An outcome with its issued word counted. -/
def State.noted (s : State) : Result → Result
  | .next t => .next (s.noteIssue t)
  | r => r

/-- The word `w` at the issuing group's position takes its turn: RUNFORM or ILLEGAL, or else its instruction (R63, R80,
R81). -/
def State.runWord {α : Type} (s : State) (instr : Word → Option α) (run : α → State → Result) (w : Word) : Result :=
  if s.here.between then
    if majorOf w ≠ 0 ∨ headerOk w = false then .next (s.precise .runform)
    else match instr w with
      | some i => s.noted (run i s)
      | none => .next (s.precise .runform)
  else if majorOf w = 0 ∨ (runEnding w && !s.here.lastWord) = true then .next (s.precise .runform)
  else match instr w with
    | some i => s.noted (run i s)
    | none => .next (s.precise .illegal)

/-- What comes before a word at a run boundary: the rebases that the gang owes (R242). -/
def State.atBoundaryHere (s : State) : State :=
  if s.here.between && s.here.owedRebases != 0 then s.onHere Gang.payRebases else s

/-- The state in which the TLBs hold the translation that the next fetch uses (R358). -/
def State.filled (s : State) : State :=
  if s.walkWaits s.here s.here.wordPc.toNat then s else s.fillFor s.here s.here.wordPc.toNat

/-- A group whose instruction line, or the translation of its address, has not come stalls; a fetch agent asks for a line of another
device (R221, R249). -/
def State.awaitFetch (s : State) : State :=
  if s.walkWaits s.here s.here.wordPc.toNat then s.stall
  else match s.translate s.here s.here.wordPc.toNat .fetch with
    | .error _ => s.stall
    | .ok a => (s.askFetch s.here.core (a / 64)).stall

/-- The word at the issuing group's position is fetched and takes its turn: a fetch fault (R53), a kill for poison in the
instruction line or in a page table (R391, R399), or the word. -/
def State.issueWord {α : Type} (s : State) (instr : Word → Option α) (run : α → State → Result) : Result :=
  let s := s.filled
  match s.fetch with
  | .error c => .next (s.addressFault c s.here.wordPc.toNat)
  | .ok none => .next s.awaitFetch
  | .ok (some w) => s.runWord instr run w

/-! ### Registers that errors have struck (R404) -/

/-- Whether V registers of a gang are mirrored now (R43). -/
def State.mirrors (s : State) (g : Gang) : Bool := !g.isSupervisor && s.mirrorOn g.core (s.block g.block).mirrorKernel == 1

/-- Whether a register is a V register. -/
def StoredReg.isV : StoredReg → Bool
  | .vector code _ => decide (code < 248)
  | _ => false

/-- Whether a read of a register that errors have struck cannot be corrected: of a mirrored one where both copies fail, or where
one is wrong with parity that passes; of another where its own copy fails (R404). -/
def State.lost (s : State) (g : Gang) (r : StoredReg) : Bool :=
  let hit := g.badRegs.filter (fun b => b.reg == r)
  if r.isV && s.mirrors g then hit.any BadCopy.silent || (hit.any BadCopy.mirror && hit.any (fun b => !b.mirror))
  else hit.any (fun b => !b.mirror && !b.silent)

/-- Whether a read of a register compares copies that differ, and is corrected from the good one (R404). -/
def State.corrected (s : State) (g : Gang) (r : StoredReg) : Bool :=
  r.isV && s.mirrors g && g.badRegs.any (fun b => b.reg == r) && !s.lost g r

/-- Whether two outcomes of a word are the same, but that the second still holds `v` in a register of the gang where the first
holds `old`. -/
def sameBut (core slot : Nat) (r : StoredReg) (old v : Nat) : Result → Result → Bool
  | .next t, .next u =>
    match t.gang core slot, u.gang core slot with
    | some g, some h =>
      t == u || (r.value g == old && r.value h == v && t == u.onGang core slot (fun h => r.put h old))
    | none, none => t == u
    | _, _ => false
  | .fault a, .fault b => a == b
  | .refused a, .refused b => a == b
  | _, _ => false

/-- Whether the next word reads a register of its gang: with other contents there it would act otherwise (R404, log entry 84). -/
def State.wordReads {α : Type} (s : State) (instr : Word → Option α) (run : α → State → Result) (r : StoredReg) : Bool :=
  let old := r.value s.here
  [2 ^ 64 - 1 - old % 2 ^ 64, old + 1, 0, 2 ^ 64 - 1].any (fun v =>
    let t := s.onHere (fun g => r.put g v)
    !sameBut s.here.core s.here.slot r old (r.value t.here) (s.issueWord instr run) (t.issueWord instr run))

/-- The registers that errors have struck and that the next word reads. -/
def State.struck {α : Type} (s : State) (instr : Word → Option α) (run : α → State → Result) : List StoredReg :=
  ((s.here.badRegs.map BadCopy.reg).eraseDups).filter (s.wordReads instr run)

/-- Reads corrected from the other copy, which is rewritten: counted (R404, R417). -/
def State.correct (s : State) (l : List StoredReg) : State :=
  let fixed := l.filter (s.corrected s.here)
  if fixed.isEmpty then s
  else (s.onHere (fun g => { g with badRegs := g.badRegs.filter (fun b => !fixed.contains b.reg) })).count s.here.core 15 fixed.length

/-- The issuing group issues: a deferred fault taken at the boundary (R178), a kill at the word for a register that cannot be
corrected or a pipe that fails twice (R403, R404), or the word. -/
def State.issueHere {α : Type} (s : State) (instr : Word → Option α) (run : α → State → Result) : Result :=
  let s := s.atBoundaryHere
  if s.here.between && !s.here.deferred.isEmpty && s.here.stop == .none then .next s.takeDeferred
  else if 2 ≤ s.here.mismatch then .next (s.killHere .pipeerr)
  else
    let s := s.retryWord
    if s.here.badRegs.isEmpty then s.issueWord instr run
    else
      let l := s.struck instr run
      if l.any (s.lost s.here) then .next (s.killHere .uncorr) else (s.correct l).issueWord instr run

/-! ## Turns of the agenda -/

/-- One turn that the agenda names. -/
def State.turn (s : State) (run : Instr → State → Result) : Turn → Result
  | .event i => if (encode i).isSome then .next s else run i s
  | .focus core slot slice => .next (s.focus core slot slice)
  | .scratch op lo hi => execPeerScratchpadAccess op lo hi s
  | .elapse n => .next (s.elapse n)
  | .upset u => .next (s.upset u)
  | .hostPoison back line mask data => .next (if back then s.takeBack line mask data true else s.hostWrites line mask data true)
  | .barRead off => .next (s.barRead off)
  | .packet stop input path t => .next (s.addPacket stop input path t)

/-! ## The order in which the machine goes on by itself (log entry 1) -/

/-- Every lane. -/
def allLanes : LaneMask := BitVec.allOnes 64

/-- The copies of the lines that an acquire load asks for are replaced (R219), so that it goes to the homes. -/
def MemOp.refetch (o : MemOp) (s : State) : State :=
  let lines := o.lines.filter (fun l => (o.served.find l).isNone && (o.fills.find l).isNone)
  let c := s.core o.core
  let k := s.cluster (o.core / 4)
  if lines.any (fun l => (c.l1.find l).isSome || (k.copies.find l).isSome) then
    (s.setCore o.core { c with l1 := lines.foldl Table.erase c.l1 }).setCluster (o.core / 4)
      { k with copies := lines.foldl Table.erase k.copies }
  else s

/-- The steps that may bring a memory operation on. -/
def MemOp.steps (o : MemOp) : List (State → Result) :=
  match o.kind with
  | .load .acquire _ _ => (fun s => .next (o.refetch s)) :: o.lines.flatMap (fun l => [execHomeLeaseGrant o.id l, execLineFill o.id l allLanes allLanes])
  | .load _ _ _ => o.lines.flatMap (fun l => [execHomeLeaseGrant o.id l, execLineFill o.id l allLanes allLanes])
  | .store _ _ => [execReleaseSend o.id]
  | .atomic _ _ _ _ _ => execReleaseSend o.id :: o.lines.flatMap (fun l => [execHomeAtomic o.id l, execAtomicAcknowledge o.id l])
  | .scratchLoad _ _ => [execPeerScratchpadAccess o.id allLanes allLanes]
  | .scratchStore => [execPeerScratchpadAccess o.id allLanes allLanes]
  | .message _ _ _ => []

/-- The steps of a core's FIFO, matrix queue and copy engine. -/
def Core.steps (n : Nat) (c : Core) : List (State → Result) :=
  [execFifoEntryDrain n] ++ c.fifo.flatMap (fun e => [execHomeStore n e.id, execStoreAcknowledge n e.id]) ++
    c.mq.flatMap (fun o => execMatrixOpStart n o.id ::
      (List.range o.steps.length).flatMap (fun j => [execRowBufferStage n o.id j, execKstepPlanes n o.id j]) ++ [execAccumulatorAdd n o.id]) ++
    c.cmds.flatMap (fun k => [execEngineCommandStart n k.id, execGranuleLand n k.id])

/-- The steps that may end the waits of a gang, take its deferred fault, or end it. -/
def Gang.steps (g : Gang) : List (State → Result) :=
  g.groups.flatMap (fun p =>
    let slice := trailingZeros 16 p.slices.toNat
    match p.wait with
    | .barwait _ _ _ _ => [execBarwaitWake g.core g.slot slice]
    | .grid _ => [execBarwaitWake g.core g.slot slice]
    | .claim _ _ => [execClaimGrant g.core g.slot slice]
    | .regang _ => [execStalledWordIssue g.core g.slot slice]
    | _ => []) ++
  (if g.deferred.isEmpty then [] else [execDeferredFaultTaken g.core g.slot]) ++
  (if g.isSupervisor then (if g.stop = .none then [] else [execSupervisorRestart g.core]) else [execGangEnd g.core g.slot])

/-- Cores for all the blocks of a launch that starts them at once, as many times each as it has room (R46). -/
def State.coresAtOnce (s : State) (l : Launch) : List Nat :=
  ((s.allowedCores l.tenant (l.ephReg 4) l.ranks).flatMap (fun c =>
    List.replicate (((List.range l.ranks).map (fun r => s.roomFor l.tenant l.split (c + r) l.need)).foldl min 65536) c)).take (l.blocks / l.ranks)

/-- The steps of the dispatcher for a launch. -/
def State.launchSteps (s : State) (key : Nat) (l : Launch) : List (State → Result) :=
  match l.stage with
  | .queued => [execLaunchAdmit l.tenant l.queue]
  | .complete => []
  | .running =>
    let place := if s.launchReady key l = false then []
      else if l.atOnce then [execBlockDispatch key (s.coresAtOnce l)]
      else match (s.allowedCores l.tenant (l.ephReg 4) l.ranks).find? (s.unitFits l) with
        | none => []
        | some c => if l.phase = 0 then [execBlockDispatch key [c]] else [execPhaseRedispatch key c]
    place ++ [execCompletionRecordWrite key]

/-- The steps of the scheduler for a card. -/
def State.jobSteps (s : State) (key : Nat) (j : Job) : List (State → Result) :=
  match j.place with
  | .ring => [execOverflowRingMove j.tenant j.cluster]
  | .kept => []
  | .messages => [execMessageRingDrain j.tenant]
  | _ =>
    let core := ((List.range 4).map (fun r => 4 * j.cluster + r)).find? (s.jobFits j)
    if j.launch.isNone then [execHandlerDispatch key (core.getD (4 * j.cluster))] else [execTaskDispatch key (core.getD (4 * j.cluster))]

/-- Every step that the device may take by itself, in the order in which it is tried. -/
def State.ownSteps (s : State) : List (State → Result) :=
  s.ops.flatMap MemOp.steps ++ s.cores.flatMap (fun e => e.2.steps e.1) ++
    (if s.cores.any (fun e => !e.2.mq.isEmpty) then s.umbra.map (fun e => execUmbraEntryTransfer e.tenant e.layer e.key) else []) ++
    s.arrivals.map (fun a => execWatchArrival a.block a.offset) ++ s.allGangs.flatMap Gang.steps ++
    s.blocks.flatMap (fun e => [execPhaseEnd e.1, execBlockEnd e.1]) ++
    s.launches.flatMap (fun e => s.launchSteps e.1 e.2) ++ s.jobs.flatMap (fun e => s.jobSteps e.1 e.2) ++
    (List.range 16).map execTeardownComplete ++
    (match s.preempt with
      | some p => if p.restore then [execPreemptRestore []] else [execPreemptSave]
      | none => []) ++
    s.cores.map (fun e => fun (s : State) => Host.Outcome.next (s.tryGate e.1)) ++
    [execRebase, execBiasFlipComplete, execWeightStoreWriteDone]

/-- Whether two states differ, but for the records of the management controller. -/
def State.moved (s t : State) : Bool := { s with mgmt := {} } != { t with mgmt := {} }

/-- The first of the listed steps that changes the state. -/
def State.firstMove (s : State) : List (State → Result) → Option State
  | [] => none
  | f :: rest =>
    match f s with
    | .next t => if s.moved t then some t else s.firstMove rest
    | _ => s.firstMove rest

/-- Every group of every gang that has been on a pipe, as core, slot and first slice, with its gang turned to it; those
after the issuing group come first, and it comes last. -/
def State.inTurn (s : State) : List (Nat × Nat × Nat × Gang) :=
  let of := fun (g : Gang) => g.groups.map (fun p =>
    let slice := trailingZeros 16 p.slices.toNat
    (g.core, g.slot, slice, g.turnTo slice))
  let all := s.gangs.vals.filter (fun g => !(g.core == s.here.core && g.slot == s.here.slot))
  let here := gangKey s.here.core s.here.slot
  (of s.here).drop 1 ++ (all.filter (fun g => decide (here < gangKey g.core g.slot))).flatMap of ++
    (all.filter (fun g => decide (gangKey g.core g.slot < here))).flatMap of ++ (of s.here).take 1

/-! ## The gang scheduler (R316) -/

/-- Whether the group on a gang's pipe is a candidate: it may issue the next word of its run, or a header that is ready in this
cycle (R316, R327). -/
def State.candidate (s : State) (g : Gang) : Bool :=
  s.mayIssueOf g && (!g.between || (g.grp.age.isSome && decide (g.grp.from_ ≤ s.cycle)))

/-- The pipes of its core that a candidate may issue on in this cycle: the one that its run is bound to, or either for a
header. -/
def State.pipesFor (s : State) (g : Gang) : List Nat :=
  (if g.between then [0, 1] else [g.grp.pipe]).filter (fun p => !s.used.contains (2 * g.core + p))

/-- Whether one candidate wins over another of its core: the supervisor gang's over all others, then the older, then the lower
slot, then the lower first slice. -/
def Gang.goesBefore (g h : Gang) : Bool :=
  let age := fun (x : Gang) => x.grp.age.getD 0
  let first := fun (x : Gang) => trailingZeros 16 x.grp.slices.toNat
  if g.isSupervisor != h.isSupervisor then g.isSupervisor
  else if age g != age h then decide (age g < age h)
  else if g.slot != h.slot then decide (g.slot < h.slot)
  else decide (first g < first h)

/-- Whether a candidate wins a pipe of its core in this cycle. -/
def State.wins (s : State) (all : List Gang) (g : Gang) (p : Nat) : Bool :=
  !all.any (fun h => h.core == g.core && s.candidate h && (s.pipesFor h).contains p && h.goesBefore g)

/-- The state in which the next group, in turn, that wins a pipe of its core in this cycle is on that pipe. -/
def State.pick (s : State) : Option State :=
  let turns := s.inTurn
  let all := turns.map (fun e => e.2.2.2)
  turns.findSome? (fun e =>
    if s.candidate e.2.2.2 then
      ((s.pipesFor e.2.2.2).find? (s.wins all e.2.2.2)).map (fun p =>
        (s.focus e.1 e.2.1 e.2.2.1).onHere (fun g => { g with grp := { g.grp with pipe := p } }))
    else none)

/-- In a new cycle a stalled word is tried again (R65). -/
def Group.again (p : Group) : Group := { p with wait := if p.wait = .stalled then .ready else p.wait, bound := false }

/-- The groups of a gang in a new cycle. -/
def Gang.again (g : Gang) : Gang := { g with grp := g.grp.again, parted := g.parted.map Group.again }

/-- A new cycle: every issue slot is free. -/
def State.newCycle (s : State) : State :=
  let s := s.elapse 1
  { s with here := s.here.again, gangs := s.gangs.map (fun e => (e.1, e.2.again)), used := [] }

/-- A new cycle begins, and the first group that wins a pipe in it issues. -/
def State.cycleOn {α : Type} (s : State) (instr : Word → Option α) (run : α → State → Result) : Result :=
  match s.newCycle.pick with
  | some t => t.issueHere instr run
  | none => .next s.newCycle

/-! ## One step -/

/-- Whether a turn brings power back. -/
def Turn.isPowerOn : Turn → Bool
  | .event (.coldReset _ _) => true
  | _ => false

/-- The groups that win a pipe in this cycle issue, in turn, and then a new cycle begins. -/
def State.issueOn {α : Type} (s : State) (instr : Word → Option α) (run : α → State → Result) : Result :=
  match s.pick with
  | some t => t.issueHere instr run
  | none => s.cycleOn instr run

/-- The machine goes on by itself: the first word of a run follows its header; but where the last group to issue stands within a
run, the device takes the steps that it can; and then the groups issue (log entry 1). -/
def State.goOn (instr : Word → Option Instr) (run : Instr → State → Result) (s : State) : Result :=
  if s.here.grp.bound && s.mayIssue then s.issueHere instr run
  else if s.mayIssue && !s.here.between then s.issueOn instr run
  else match s.firstMove s.ownSteps with
    | some t => .next t
    | none => s.issueOn instr run

/-- One step: what is due (`State.upkeep`), and then the next turn of the agenda, or else the machine goes on by itself.  Without
power nothing moves until a cold reset (R413, R414). -/
def State.stepWith (instr : Word → Option Instr) (run : Instr → State → Result) (s : State) : Result :=
  match s.agenda with
  | [] => if s.mgmt.power = .off then .fault .powerOff else s.upkeep.goOn instr run
  | t :: rest =>
    if s.mgmt.power = .off ∧ t.isPowerOn = false then .fault .powerOff
    else { s with agenda := rest }.upkeep.turn run t

/-! ## A word placed where it is fetched -/

/-- The state in which the issuing group is about to fetch a word that stands alone: a header at a run boundary, another
word as the only word of its run. -/
def State.readyFor (s : State) (header : Bool) : State :=
  let g := s.here
  let g := { g with
    exited := if g.grp.slices = 0 then 0 else g.exited
    grp := { g.grp with slices := if g.grp.slices = 0 then BitVec.allOnes 16 else g.grp.slices
                        run := if header then none else some ⟨1, 0⟩
                        wait := .ready, age := some 0, from_ := 0, bound := true }
    stop := .none, halted := false, killed := false, ended := false, deferred := [], taken := none, owedRebases := 0
    mismatch := 0, badRegs := [] }
  let m := s.mgmt
  let s := { s with here := g, agenda := [], mgmt := { m with started := true, recovery := false, power := .active } }
  s.ungate g.core

/-- `s` with a word stored where its next step fetches it. -/
def State.placeWord (s : State) (w : Nat) : State :=
  let s := s.readyFor (majorOf (BitVec.ofNat 32 w) == 0)
  match s.translate s.here s.here.wordPc.toNat .fetch with
  | .error _ => s
  | .ok a =>
    let s := s.setBytes a (bytesOf 4 w)
    let c := s.core s.here.core
    let s := s.setCore s.here.core { c with
      icache := c.icache.erase (a / 64), icachePoison := c.icachePoison.filter (fun l => l != a / 64) }
    { s with
      dramPoison := s.dramPoison.filter (fun l => l != a / 64)
      homes := s.homes.adjust (a / 64) (fun h => { h with poison := false }) }

end Sys2Proof.Machine
end

