-- ==== Sys2Proof/Machine/Step.lean ====
section
/-! DEFINITION. One step of the machine: the next turn of the agenda, or, with none, the word that the
issuing group issues next.  What a step does stands in Machine/Issue.lean. -/

namespace Sys2Proof.Machine

/-- The instruction of a word, as `issueWord` wants it: none where the word raises ILLEGAL. -/
noncomputable def instrOf (w : Word) : Option Instr :=
  match decode w with
  | .ok i => some i
  | .error _ => none

/-- One step. -/
noncomputable def step (s : State) : Host.Outcome State Fault Refusal := State.stepWith instrOf exec s

/-- `s` with an instruction's word stored where the next step fetches. -/
def State.withFetchWord (s : State) (nbits w : Nat) : State := s.placeWord (w % 2 ^ nbits)

end Sys2Proof.Machine
end

