-- ==== Sys2Proof/Safety.lean ====
section
/-! DEFINITION. What a well-kept state is: the conditions that every step keeps, in the terms that the statements use. -/

namespace Sys2Proof.Machine

/-- Memory lists its bytes in the one canonical form (log entry 3). -/
def State.memoryOk (s : State) : Prop := Memory.wf s.mem = true

end Sys2Proof.Machine
end

