-- ==== Sys2Proof/Certificates/Slice0/Obligations.lean ====
section
/-! DEFINITION. The statements of the model, each with the words in which it is said.

The first part names what the statements speak of: how a word ends, what it may change, and what it leaves.  The
statements follow, family by family.  Wherever a statement says `t = ...` of the state after a word, it says the whole
frame: every register, flag, special register and byte of memory that the right-hand side does not change is as before. -/

namespace Sys2Proof.Claims

open Sys2Proof.Machine

/-! ## What the statements say of a word -/

/-- Every byte of memory reads as before. -/
def SameMemory (s t : State) : Prop := ∀ a, t.byte a = s.byte a

/-- The word takes the precise fault `c`: the gang stops, its record is posted, nothing else happens (R66, R362). -/
def Faults (i : Instr) (s : State) (c : Cause) : Prop := exec i s = .next (s.precise c)

/-- The gang on the pipe, moved past a word that writes the listed T registers: only the group's place, wait and written
marks differ (R64, R65). -/
def passed (g : Gang) (marks : List Nat) : Gang := { g with grp := (g.markT marks).advance.grp }

/-- `i` completes at `s`: Sd of each participating slice becomes `v` (a write to S0 is discarded), the group moves past
its word, and nothing else changes. -/
def WritesScalar (i : Instr) (s : State) (d : BitVec 6) (v : Nat → Word64) : Prop :=
  ∃ t, exec i s = .next t ∧
    (∀ sl r, r < 64 → t.here.sreg sl r = if sl ∈ s.here.members ∧ r = d.toNat ∧ r ≠ 0 then v sl else s.here.sreg sl r) ∧
    t = { s with here := { passed s.here [] with s := t.here.s } } ∧ SameMemory s t

/-- `i` completes at `s`: Sd of each participating slice becomes `v`, its SCC becomes `p`, the group moves past its word,
and nothing else changes. -/
def WritesScalarScc (i : Instr) (s : State) (d : BitVec 6) (v : Nat → Word64) (p : Nat → Bool) : Prop :=
  ∃ t, exec i s = .next t ∧
    (∀ sl r, r < 64 → t.here.sreg sl r = if sl ∈ s.here.members ∧ r = d.toNat ∧ r ≠ 0 then v sl else s.here.sreg sl r) ∧
    (∀ sl, sl < 16 → t.here.sccOf sl = if sl ∈ s.here.members then p sl else s.here.sccOf sl) ∧
    t = { s with here := { passed s.here [] with s := t.here.s, scc := t.here.scc } } ∧ SameMemory s t

/-- `i` completes at `s`: Sd and SCC of each participating slice become 1 where `p` holds and 0 elsewhere. -/
def ComparesScalar (i : Instr) (s : State) (d : BitVec 6) (p : Nat → Bool) : Prop :=
  WritesScalarScc i s d (fun sl => if p sl then 1 else 0) p

/-- `i` completes at `s`: the bits of Md in the listed lanes become `p`, the group moves past its word, and nothing else
changes. -/
def WritesMask (i : Instr) (s : State) (d : BitVec 4) (lanes : List Nat) (p : Nat → Bool) : Prop :=
  ∃ t, exec i s = .next t ∧
    (∀ j l, l < 64 → (t.here.mask j).getLsbD l = if j = d.toNat ∧ l ∈ lanes then p l else (s.here.mask j).getLsbD l) ∧
    t = { s with here := { passed s.here [] with m := t.here.m } } ∧ SameMemory s t

/-! ## Counting the bits of a value -/

/-- The number of 1 bits. -/
def ones {n : Nat} (x : BitVec n) : Nat := ((List.range n).filter (fun i => x.getLsbD i)).length

/-- The number of zero bits above the highest 1 bit. -/
def zerosAbove {n : Nat} (x : BitVec n) : Nat := ((List.range n).takeWhile (fun i => !x.getLsbD (n - 1 - i))).length

/-- The number of zero bits below the lowest 1 bit. -/
def zerosBelow {n : Nat} (x : BitVec n) : Nat := ((List.range n).takeWhile (fun i => !x.getLsbD i)).length

/-! ## What a vector word needs and does -/

/-- Every defined element type; the integer types; the floating types (R71, R130). -/
def anyTypes : List Nat := [0, 1, 2, 3, 4, 5, 6, 7, 8, 9, 10, 11, 12, 13]
/-- The integer element types. -/
def intTypes : List Nat := [0, 1, 5, 6, 7, 8, 10, 11]
/-- The floating element types. -/
def floatTypes : List Nat := [2, 3, 4, 9, 12, 13]
/-- The element types of 32 bits or fewer. -/
def narrowTypeList : List Nat := [0, 1, 2, 3, 4, 5, 6, 7, 8, 12, 13]

/-- Some participating slice has a 64-bit element type, so that operands are pairs (R60). -/
def Wide (g : Gang) : Prop := ∃ sl ∈ g.members, modeEtype (g.modeOf sl) ∈ [9, 10, 11]

/-- A register of an operand: its code, and the next code when operands are pairs. -/
def Names (g : Gang) (c k : Nat) : Prop := k = c ∨ (k = c + 1 ∧ Wide g)

/-- The conditions under which a word with these register operands meets no fault: every T register that it reads has
been written in the run (R64), and every V register lies within the gang's granules (R41). -/
def RegistersReady (g : Gang) (reads writes : List Nat) : Prop :=
  (∀ k ∈ reads, 248 ≤ k → g.grp.tw.getLsbD (k - 248) = true) ∧ (∀ k ∈ reads ++ writes, k < 248 → k < 8 * g.granules)

/-- The conditions under which a vector word meets no fault: every participating slice's element type is one that the form
accepts (R130), no operand is odd where operands are pairs (R60), and its registers are ready. -/
def VectorReady (g : Gang) (types : List Nat) (reads writes : List (BitVec 8)) : Prop :=
  (∀ sl ∈ g.members, modeEtype (g.modeOf sl) ∈ types) ∧
  (Wide g → ∀ c ∈ reads ++ writes, c.toNat % 2 = 0) ∧
  (∀ c ∈ reads, ∀ k, Names g c.toNat k → 248 ≤ k → g.grp.tw.getLsbD (k - 248) = true) ∧
  (∀ c ∈ reads ++ writes, ∀ k, Names g c.toNat k → k < 248 → k < 8 * g.granules)

/-- `i` completes at `s`: in the listed lanes Vd, or the pair from Vd in a lane of a 64-bit element type, becomes `f`; Vd is
marked written where it is a T register; the group moves past its word, and nothing else changes. -/
def WritesLanes (i : Instr) (s : State) (d : BitVec 8) (lanes : List Nat) (f : Nat → Nat) : Prop :=
  ∃ t, exec i s = .next t ∧
    (∀ c l, l < 64 → t.here.vword c l =
      if l ∈ lanes ∧ c = d.toNat then BitVec.ofNat 32 (f l)
      else if l ∈ lanes ∧ s.here.wideLane l = true ∧ c = d.toNat + 1 then BitVec.ofNat 32 (f l / 2 ^ 32)
      else s.here.vword c l) ∧
    t = { s with here := { passed s.here (s.here.spans d.toNat) with v := t.here.v } } ∧ SameMemory s t

/-- The element type of a lane. -/
def typeOf (s : State) (l : Nat) : EType := etype (modeEtype (s.here.laneMode l))

/-- MODE.RND and MODE.FTZ of a lane. -/
def roundingOf (s : State) (l : Nat) : FloatMode := floatMode (s.here.laneMode l)

/-- `i` applies `r` to each element of Va and Vb in the active lanes, wherever it meets no fault. -/
def Elements2 (i : Instr) (s : State) (types : List Nat) (d a b : BitVec 8) (r : EType → FloatMode → Nat → Nat → Nat) : Prop :=
  VectorReady s.here types [a, b] [d] → WritesLanes i s d s.here.active (fun l =>
    (typeOf s l).build (fun e =>
      r (typeOf s l) (roundingOf s l) ((typeOf s l).elem (s.here.src a l) e) ((typeOf s l).elem (s.here.src b l) e)))

/-- `i` applies `r` to each element of Va, Vb and the old Vd in the active lanes. -/
def Elements3 (i : Instr) (s : State) (types : List Nat) (d a b : BitVec 8) (r : EType → FloatMode → Nat → Nat → Nat → Nat) : Prop :=
  VectorReady s.here types [a, b, d] [d] → WritesLanes i s d s.here.active (fun l =>
    (typeOf s l).build (fun e =>
      r (typeOf s l) (roundingOf s l) ((typeOf s l).elem (s.here.src a l) e) ((typeOf s l).elem (s.here.src b l) e)
        ((typeOf s l).elem (s.here.src d l) e)))

/-- `i` applies `r` to each element of Va in the active lanes. -/
def Elements1 (i : Instr) (s : State) (types : List Nat) (d a : BitVec 8) (r : EType → FloatMode → Nat → Nat) : Prop :=
  VectorReady s.here types [a] [d] → WritesLanes i s d s.here.active (fun l =>
    (typeOf s l).build (fun e => r (typeOf s l) (roundingOf s l) ((typeOf s l).elem (s.here.src a l) e)))

/-- int_or_fl of R132: an exact integer taken modulo 2^w, or a value rounded once under MODE.RND and MODE.FTZ. -/
def intOrFl (t : EType) (m : FloatMode) (i : Int) (v : Fmt → Sys2Proof.Machine.Num) : Nat :=
  match t.fmt with
  | none => (i % (2 ^ t.width : Nat)).toNat
  | some f => f.round m.rnd m.ftz (v f)

/-- An element read as an integer, in the signedness of its type. -/
def asInt (t : EType) (x : Nat) : Int := intRead t.signed t.width x

/-- An element's sign bit. -/
def topBit (t : EType) (x : Nat) : Bool := x.testBit (t.width - 1)

end Sys2Proof.Claims

open Sys2Proof Sys2Proof.Machine Sys2Proof.Claims

/-! ## Scalar and mask forms (06_scalar_vector_instructions.md) -/

/-- R119: every SALU form, in every state and for all operands, completes with the effect of the table.  No condition on
the operands is needed: no scalar division traps.  S0 as a destination discards the result.  A unary form with a non-zero B field
is no instruction. -/
def Obligations.ScalarAluForms : Prop :=
  ∀ (s : State) (d a b : BitVec 6),
    let x := fun sl => s.here.sreg sl a.toNat
    let y := fun sl => s.here.sreg sl b.toNat
    let sh := fun sl => ((y sl).extractLsb' 0 6).toNat
    WritesScalar (.sadd d a b) s d (fun sl => x sl + y sl) ∧
    WritesScalar (.ssub d a b) s d (fun sl => x sl - y sl) ∧
    WritesScalar (.smul d a b) s d (fun sl => x sl * y sl) ∧
    WritesScalar (.smulh d a b) s d (fun sl => BitVec.ofInt 64 ((x sl).toInt * (y sl).toInt / 2 ^ 64)) ∧
    WritesScalar (.smulhn d a b) s d (fun sl => BitVec.ofNat 64 ((x sl).toNat * (y sl).toNat / 2 ^ 64)) ∧
    WritesScalar (.sdiv d a b) s d (fun sl => if y sl = 0 then -1 else (x sl).sdiv (y sl)) ∧
    WritesScalar (.sdivn d a b) s d (fun sl => if y sl = 0 then BitVec.allOnes 64 else (x sl).udiv (y sl)) ∧
    WritesScalar (.srem d a b) s d (fun sl => if y sl = 0 then x sl else x sl - y sl * (x sl).sdiv (y sl)) ∧
    WritesScalar (.sremn d a b) s d (fun sl => if y sl = 0 then x sl else (x sl).umod (y sl)) ∧
    WritesScalar (.sand d a b) s d (fun sl => x sl &&& y sl) ∧
    WritesScalar (.sor d a b) s d (fun sl => x sl ||| y sl) ∧
    WritesScalar (.sxor d a b) s d (fun sl => x sl ^^^ y sl) ∧
    WritesScalar (.sandn d a b) s d (fun sl => x sl &&& ~~~(y sl)) ∧
    WritesScalar (.sshl d a b) s d (fun sl => x sl <<< sh sl) ∧
    WritesScalar (.sshr d a b) s d (fun sl => x sl >>> sh sl) ∧
    WritesScalar (.ssra d a b) s d (fun sl => (x sl).sshiftRight (sh sl)) ∧
    WritesScalar (.srol d a b) s d (fun sl => (x sl).rotateLeft (sh sl)) ∧
    WritesScalar (.smin d a b) s d (fun sl => if (x sl).toInt ≤ (y sl).toInt then x sl else y sl) ∧
    WritesScalar (.smax d a b) s d (fun sl => if (x sl).toInt ≤ (y sl).toInt then y sl else x sl) ∧
    WritesScalar (.sminn d a b) s d (fun sl => if (x sl).toNat ≤ (y sl).toNat then x sl else y sl) ∧
    WritesScalar (.smaxn d a b) s d (fun sl => if (x sl).toNat ≤ (y sl).toNat then y sl else x sl) ∧
    ComparesScalar (.sceq d a b) s d (fun sl => decide (x sl = y sl)) ∧
    ComparesScalar (.scne d a b) s d (fun sl => decide (x sl ≠ y sl)) ∧
    ComparesScalar (.sclt d a b) s d (fun sl => decide ((x sl).toInt < (y sl).toInt)) ∧
    ComparesScalar (.scle d a b) s d (fun sl => decide ((x sl).toInt ≤ (y sl).toInt)) ∧
    ComparesScalar (.scltn d a b) s d (fun sl => decide ((x sl).toNat < (y sl).toNat)) ∧
    ComparesScalar (.sclen d a b) s d (fun sl => decide ((x sl).toNat ≤ (y sl).toNat)) ∧
    WritesScalar (.ssel d a b) s d (fun sl => if s.here.sccOf sl then x sl else y sl) ∧
    WritesScalar (.spopc d a) s d (fun sl => BitVec.ofNat 64 (ones (x sl))) ∧
    WritesScalar (.sclz d a) s d (fun sl => BitVec.ofNat 64 (zerosAbove (x sl))) ∧
    WritesScalar (.sctz d a) s d (fun sl => BitVec.ofNat 64 (zerosBelow (x sl))) ∧
    WritesScalar (.sbrev d a) s d (fun sl => (x sl).reverse) ∧
    WritesScalar (.sextb d a) s d (fun sl => ((x sl).truncate 8).signExtend 64) ∧
    WritesScalar (.sexth d a) s d (fun sl => ((x sl).truncate 16).signExtend 64) ∧
    WritesScalar (.sextw d a) s d (fun sl => ((x sl).truncate 32).signExtend 64) ∧
    ∀ w : Word, w.toNat / 2 ^ 26 = 8 → 28 ≤ w.toNat % 2 ^ 8 → w.toNat % 2 ^ 8 ≤ 34 → w.toNat / 2 ^ 8 % 2 ^ 6 ≠ 0 → ∀ i, decode w ≠ .ok i

/-- R121, R122: the immediate forms.  SORI and SXORI extend with zeros, SADDI, SANDI and SCEQI with the sign (R59). -/
def Sys2Proof.Claims.ScalarImmediateForms : Prop :=
  ∀ (s : State) (d a : BitVec 6) (i : BitVec 12) (n : BitVec 6) (p : BitVec 2) (h : BitVec 16),
    let x := fun sl => s.here.sreg sl a.toNat
    let f := 16 * p.toNat
    WritesScalar (.saddi d a i) s d (fun sl => x sl + i.signExtend 64) ∧
    WritesScalar (.sandi d a i) s d (fun sl => x sl &&& i.signExtend 64) ∧
    WritesScalar (.sori d a i) s d (fun sl => x sl ||| i.zeroExtend 64) ∧
    WritesScalar (.sxori d a i) s d (fun sl => x sl ^^^ i.zeroExtend 64) ∧
    WritesScalar (.sshli d a n) s d (fun sl => x sl <<< n.toNat) ∧
    WritesScalar (.sshri d a n) s d (fun sl => x sl >>> n.toNat) ∧
    WritesScalar (.ssrai d a n) s d (fun sl => (x sl).sshiftRight n.toNat) ∧
    ComparesScalar (.sceqi d a i) s d (fun sl => decide (x sl = i.signExtend 64)) ∧
    WritesScalar (.sli d p h) s d (fun _ => h.zeroExtend 64 <<< f) ∧
    (∃ t, exec (.slik d p h) s = .next t ∧ t = { s with here := { passed s.here [] with s := t.here.s } } ∧
      ∀ sl r j, r < 64 → j < 64 → (t.here.sreg sl r).getLsbD j =
        if sl ∈ s.here.members ∧ r = d.toNat ∧ r ≠ 0 ∧ f ≤ j ∧ j < f + 16 then h.getLsbD (j - f)
        else (s.here.sreg sl r).getLsbD j) ∧
    WritesScalar (.slis d p h) s d (fun _ => h.signExtend 64 <<< f)

/-- NOP changes nothing but the group's place (R79).  SETMODE writes bits 25 to 0 of its word to MODE in every
slice of the group, with MODE[31:26] zero; a reserved value or a non-zero bit in [25:18] raises ILLEGAL and writes nothing
(R73, R123): ETYPE 14 and 15, RND 5 to 7 and SCOPE 5 to 7 are the reserved values of an 18-bit immediate. -/
def Sys2Proof.Claims.ModeAndNop : Prop :=
  ∀ (s : State) (i : BitVec 18),
    let legal := (i.extractLsb' 0 4).toNat ≤ 13 ∧ (i.extractLsb' 8 3).toNat ≤ 4 ∧ (i.extractLsb' 12 3).toNat ≤ 4
    (exec .nop s = .next { s with here := passed s.here [] }) ∧
    (legal → ∃ t, exec (.setmode i) s = .next t ∧
      (∀ sl, t.here.modeOf sl = if sl ∈ s.here.members then i.zeroExtend 32 else s.here.modeOf sl) ∧
      t = { s with here := { passed s.here [] with mode := t.here.mode } } ∧ SameMemory s t) ∧
    (¬ legal → Faults (.setmode i) s .illegal)

/-- R121, R122: the immediate forms. SORI and SXORI extend with zeros, SADDI, SANDI and SCEQI with the sign (R59). NOP changes
nothing but the group's place (R79). SETMODE writes bits 25 to 0 of its word to MODE in every slice of the group, with
MODE[31:26] zero; a reserved value or a non-zero bit in [25:18] raises ILLEGAL and writes nothing (R73, R123): ETYPE 14 and 15,
RND 5 to 7 and SCOPE 5 to 7 are the reserved values of an 18-bit immediate. -/
def Obligations.ScalarImmediateAndModeForms : Prop := Claims.ScalarImmediateForms ∧ Claims.ModeAndNop

/-- R127: the mask forms act on every lane of the group's slices, whatever EXEC and the guard hold, and on no other lane.  That
the SCC of MPOPC follows the computed count also where Sd is S0, which reads zero, is the model's choice (log entry 65). -/
def Obligations.MaskForms : Prop :=
  ∀ (s : State) (d a b : BitVec 4) (sd sa : BitVec 6),
    let x := fun l => (s.here.mask a.toNat).getLsbD l
    let y := fun l => (s.here.mask b.toNat).getLsbD l
    let g := (List.range 64).filter (fun l => decide (l / 4 ∈ s.here.members))
    let set := g.filter x
    WritesMask (.mand d a b) s d g (fun l => x l && y l) ∧
    WritesMask (.mor d a b) s d g (fun l => x l || y l) ∧
    WritesMask (.mxor d a b) s d g (fun l => x l ^^ y l) ∧
    WritesMask (.mandn d a b) s d g (fun l => x l && !y l) ∧
    WritesMask (.mnot d a) s d g (fun l => !x l) ∧
    WritesMask (.mmov d a) s d g x ∧
    WritesScalar (.mtos sd a) s sd (fun _ => BitVec.ofNat 64 (set.map (fun l => 2 ^ l)).sum) ∧
    WritesMask (.stom d sa) s d g (fun l => (s.here.sreg (l / 4) sa.toNat).getLsbD l) ∧
    WritesScalarScc (.mpopc sd a) s sd (fun _ => BitVec.ofNat 64 set.length) (fun _ => !set.isEmpty) ∧
    WritesScalarScc (.mfirst sd a) s sd (fun _ => BitVec.ofNat 64 (set.headD 64)) (fun _ => !set.isEmpty) ∧
    WritesMask (.mslice d sa) s d g (fun l => (s.here.sreg (l / 4) sa.toNat).getLsbD (l % 4))

/-! ## Vector forms (06_scalar_vector_instructions.md) -/

/-- R9, R71: the active lanes are the lanes of the group whose EXEC bit is 1 and that the guard of their own slice selects:
all of them where GUARD is 0, else those whose bit of the guard mask differs from GINV. -/
def Sys2Proof.Claims.ActiveLanes : Prop :=
  ∀ (g : Gang) (l : Nat),
    let mode := g.modeOf (l / 4)
    let guard := (mode.extractLsb' 4 3).toNat
    l ∈ g.active ↔
      l < 64 ∧ l / 4 ∈ g.members ∧ (g.mask 0).getLsbD l = true ∧
        (guard = 0 ∨ (g.mask guard).getLsbD l ≠ mode.getLsbD 7)

/-- R134 under INT: the lesser (or, where `most`, the greater) of two elements in the order of the type's integers. -/
def Sys2Proof.Claims.lesserInt (most : Bool) (t : EType) (x y : Nat) : Nat :=
  if asInt t x < asInt t y then (if most then y else x) else (if most then x else y)

/-- R134 under FLT, after FTZ has been applied to the inputs: the canonical NaN where both operands are NaN, the other operand
where one is, else the lesser (greater) operand's own bits, -0 ordering below +0. -/
def Sys2Proof.Claims.lesserFloat (most : Bool) (f : Fmt) (ftz : Bool) (x y : Nat) : Nat :=
  let a := f.flush ftz x
  let b := f.flush ftz y
  let p := f.decode a
  let q := f.decode b
  if p.isNan = true ∧ q.isNan = true then f.nan
  else if p.isNan = true then b
  else if q.isNan = true then a
  else if p.lt q = true ∨ (p.eq q = true ∧ p.isNeg = true ∧ q.isNeg = false) then (if most then b else a)
  else (if most then a else b)

/-- VMIN (VMAX where `most`) of two elements (R134). -/
def Sys2Proof.Claims.lesser (most : Bool) (t : EType) (m : FloatMode) (x y : Nat) : Nat :=
  match t.fmt with
  | none => lesserInt most t x y
  | some f => lesserFloat most f m.ftz x y

/-- R132, R134 to R136, R138: the two-operand element-wise forms, on every lane and element, wherever the word meets no
fault.  VMIN and VMAX compare signed for i types and unsigned for n types; for floating types -0 orders below +0, one NaN
operand gives the other operand, two give the canonical NaN, and else the operand's bits are unchanged. -/
def Obligations.VectorTwoOperandForms : Prop :=
  ∀ (s : State) (d a b : BitVec 8),
    Elements2 (.vadd d a b) s anyTypes d a b (fun t m x y =>
      intOrFl t m (asInt t x + asInt t y) (fun f => (f.input m.ftz x).add m.rnd (f.input m.ftz y))) ∧
    Elements2 (.vsub d a b) s anyTypes d a b (fun t m x y =>
      intOrFl t m (asInt t x - asInt t y) (fun f => (f.input m.ftz x).add m.rnd (f.input m.ftz y).negate)) ∧
    Elements2 (.vmul d a b) s anyTypes d a b (fun t m x y =>
      intOrFl t m (asInt t x * asInt t y) (fun f => (f.input m.ftz x).mul (f.input m.ftz y))) ∧
    Elements2 (.vmulh d a b) s intTypes d a b (fun t _ x y =>
      (asInt t x * asInt t y / (2 ^ t.width : Nat) % (2 ^ t.width : Nat)).toNat) ∧
    Elements2 (.vmin d a b) s anyTypes d a b (fun t m => lesser false t m) ∧
    Elements2 (.vmax d a b) s anyTypes d a b (fun t m => lesser true t m) ∧
    Elements2 (.vadds d a b) s intTypes d a b (fun t _ x y =>
      (max (intMin t.signed t.width) (min (intMax t.signed t.width) (asInt t x + asInt t y)) % (2 ^ t.width : Nat)).toNat) ∧
    Elements2 (.vsubs d a b) s intTypes d a b (fun t _ x y =>
      (max (intMin t.signed t.width) (min (intMax t.signed t.width) (asInt t x - asInt t y)) % (2 ^ t.width : Nat)).toNat) ∧
    Elements2 (.vshl d a b) s intTypes d a b (fun t _ x n => if n < t.width then x * 2 ^ n % 2 ^ t.width else 0) ∧
    Elements2 (.vshr d a b) s intTypes d a b (fun t _ x n => if n < t.width then x / 2 ^ n else 0) ∧
    Elements2 (.vsra d a b) s intTypes d a b (fun t _ x n =>
      if n < t.width then x / 2 ^ n + (if topBit t x then 2 ^ t.width - 2 ^ (t.width - n) else 0)
      else if topBit t x then 2 ^ t.width - 1 else 0) ∧
    Elements2 (.vrol d a b) s intTypes d a b (fun t _ x n =>
      (x * 2 ^ (n % t.width) + x / 2 ^ (t.width - n % t.width)) % 2 ^ t.width) ∧
    Elements2 (.vdiv d a b) s anyTypes d a b (fun t m x y =>
      match t.fmt with
      | none => if asInt t y = 0 then 2 ^ t.width - 1 else ((asInt t x).tdiv (asInt t y) % (2 ^ t.width : Nat)).toNat
      | some f => f.round m.rnd m.ftz ((f.input m.ftz x).div (f.input m.ftz y)))

/-- R133, R137: the fused forms, whose addend is the old Vd, and the immediate forms, whose immediate is extended to the
element width: with the sign, but for VORI, whose immediate is extended with zeros (R59). -/
def Obligations.VectorFusedAndImmediateForms : Prop :=
  ∀ (s : State) (d a b i : BitVec 8) (n : BitVec 6),
    let product := fun (f : Fmt) (m : FloatMode) (x y : Nat) => (f.input m.ftz x).mul (f.input m.ftz y)
    let imm := fun (t : EType) => (i.toInt % (2 ^ t.width : Nat)).toNat
    Elements3 (.vfma d a b) s anyTypes d a b (fun t m x y z =>
      intOrFl t m (asInt t x * asInt t y + asInt t z) (fun f => (product f m x y).add m.rnd (f.input m.ftz z))) ∧
    Elements3 (.vfms d a b) s anyTypes d a b (fun t m x y z =>
      intOrFl t m (asInt t x * asInt t y - asInt t z) (fun f => (product f m x y).add m.rnd (f.input m.ftz z).negate)) ∧
    Elements3 (.vfnma d a b) s anyTypes d a b (fun t m x y z =>
      intOrFl t m (-(asInt t x * asInt t y) + asInt t z) (fun f => (product f m x y).negate.add m.rnd (f.input m.ftz z))) ∧
    Elements3 (.vfnms d a b) s anyTypes d a b (fun t m x y z =>
      intOrFl t m (-(asInt t x * asInt t y) - asInt t z)
        (fun f => (product f m x y).negate.add m.rnd (f.input m.ftz z).negate)) ∧
    Elements1 (.vaddi d a i) s intTypes d a (fun t _ x => ((asInt t x + i.toInt) % (2 ^ t.width : Nat)).toNat) ∧
    Elements1 (.vmuli d a i) s intTypes d a (fun t _ x => ((asInt t x * i.toInt) % (2 ^ t.width : Nat)).toNat) ∧
    Elements1 (.vandi d a i) s anyTypes d a (fun t _ x => x &&& imm t) ∧
    Elements1 (.vori d a i) s anyTypes d a (fun _ _ x => x ||| i.toNat) ∧
    Elements1 (.vshli d a n) s intTypes d a (fun t _ x => if n.toNat < t.width then x * 2 ^ n.toNat % 2 ^ t.width else 0) ∧
    Elements1 (.vshri d a n) s intTypes d a (fun t _ x => if n.toNat < t.width then x / 2 ^ n.toNat else 0) ∧
    Elements1 (.vsrai d a n) s intTypes d a (fun t _ x =>
      if n.toNat < t.width then x / 2 ^ n.toNat + (if topBit t x then 2 ^ t.width - 2 ^ (t.width - n.toNat) else 0)
      else if topBit t x then 2 ^ t.width - 1 else 0)

/-- R131, R135, R142, R143: the forms on whole words or pairs, and the unary forms; VABS gives a signed type and its unsigned twin the
same bits.  The value that VFRAC returns where a − floor(a)
is not representable is the model's choice (log entry 21). -/
def Obligations.VectorUnaryAndWordForms : Prop :=
  ∀ (s : State) (d a b : BitVec 8),
    let whole := fun (l : Nat) => if s.here.wideLane l then 2 ^ 64 else 2 ^ 32
    let word2 := fun (i : Instr) (f : Nat → Nat → Nat → Nat) =>
      VectorReady s.here anyTypes [a, b] [d] →
        WritesLanes i s d s.here.active (fun l => f l (s.here.src a l) (s.here.src b l))
    word2 (.vand d a b) (fun _ x y => x &&& y) ∧
    word2 (.vor d a b) (fun _ x y => x ||| y) ∧
    word2 (.vxor d a b) (fun _ x y => x ^^^ y) ∧
    word2 (.vandn d a b) (fun l x y => x &&& (whole l - 1 - y)) ∧
    (VectorReady s.here anyTypes [a] [d] → WritesLanes (.vmov d a) s d s.here.active (fun l => s.here.src a l)) ∧
    (VectorReady s.here anyTypes [a] [d] → WritesLanes (.vnot d a) s d s.here.active (fun l => whole l - 1 - s.here.src a l)) ∧
    (VectorReady s.here anyTypes [a, b] [d] →
      WritesLanes (.vsel d a b) s d s.here.execLanes (fun l => if s.here.guardSelects l then s.here.src a l else s.here.src b l)) ∧
    Elements1 (.vneg d a) s anyTypes d a (fun t _ x =>
      match t.fmt with
      | none => (2 ^ t.width - x) % 2 ^ t.width
      | some _ => x ^^^ 2 ^ (t.width - 1)) ∧
    Elements1 (.vabs d a) s anyTypes d a (fun t _ x =>
      match t.fmt with
      | none => ((intRead true t.width x).natAbs : Nat) % 2 ^ t.width
      | some _ => x % 2 ^ (t.width - 1)) ∧
    Elements1 (.vpopc d a) s intTypes d a (fun t _ x => ones (BitVec.ofNat t.width x)) ∧
    Elements1 (.vclz d a) s intTypes d a (fun t _ x => zerosAbove (BitVec.ofNat t.width x)) ∧
    Elements1 (.vbrev d a) s intTypes d a (fun t _ x => (BitVec.ofNat t.width x).reverse.toNat) ∧
    Elements1 (.vfloor d a) s floatTypes d a (fun t m x => intOrFl t m 0 (fun f => (f.input m.ftz x).integral .rdn)) ∧
    Elements1 (.vceil d a) s floatTypes d a (fun t m x => intOrFl t m 0 (fun f => (f.input m.ftz x).integral .rup)) ∧
    Elements1 (.vtrunc d a) s floatTypes d a (fun t m x => intOrFl t m 0 (fun f => (f.input m.ftz x).integral .rtz)) ∧
    Elements1 (.vrint d a) s floatTypes d a (fun t m x => intOrFl t m 0 (fun f => (f.input m.ftz x).integral m.rnd)) ∧
    Elements1 (.vfrac d a) s floatTypes d a (fun t m x => intOrFl t m 0 (fun f => (f.input m.ftz x).frac)) ∧
    Elements1 (.vsqrt d a) s floatTypes d a (fun t m x => intOrFl t m 0 (fun f => (f.input m.ftz x).sqrt))

/-- The difference of two finite values is at most `n / d`. -/
def Sys2Proof.Claims.Near (r y : Sys2Proof.Machine.Num) (n d : Nat) : Prop :=
  match r, y with
  | .fin s k e, .fin t m f => ((Sys2Proof.Machine.Num.numer s k * f - Sys2Proof.Machine.Num.numer t m * e).natAbs) * d ≤ n * (e * f)
  | _, _ => False

/-- The unit in the last place of binary32 at `n / d`: 2 to its exponent less 23, and at least 2^-149. -/
def Sys2Proof.Claims.unitAt (n d : Nat) : Nat × Nat :=
  let q : Int := if n = 0 then -149 else max (-149) (ratLog2 n d - 23)
  if 0 ≤ q then (2 ^ q.toNat, 1) else (1, 2 ^ (-q).toNat)

/-- `r` is at most `k` units in the last place from `y`. -/
def Sys2Proof.Claims.NearUlps (r y : Sys2Proof.Machine.Num) (k : Nat) : Prop :=
  match y with
  | .fin _ n d => Near r y (k * (unitAt n d).1) (unitAt n d).2
  | _ => False

/-- The table of bounds of R144, at an input of magnitude `n / d`, for a result `r` and the function's value `y`. -/
def Sys2Proof.Claims.WithinBound (fn n d : Nat) (r y : Sys2Proof.Machine.Num) : Prop :=
  match fn with
  | 0 => NearUlps r y 1
  | 1 => NearUlps r y 1
  | 2 => NearUlps r y 2
  | 3 => if d ≤ 2 * n ∧ n ≤ 2 * d then Near r y 1 (2 ^ 22) else NearUlps r y 2
  | 4 => Near r y 1 (2 ^ 21)
  | 5 => Near r y 1 (2 ^ 21)
  | 6 => NearUlps r y 2 ∨ Near r y 1 (2 ^ 22)
  | 7 => NearUlps r y 2 ∨ Near r y 1 (2 ^ 24)
  | 8 => NearUlps r y 4 ∨ Near r y 1 (2 ^ 22)
  | _ => NearUlps r y 2 ∨ Near r y 1 (2 ^ 23)

/-- R144: each special-function form applies its function to every element of the accepted types: the element is widened to
binary32, and the binary32 result, exact where the special-value column gives one, is rounded to the element's format.  For any
other finite input the result lies within the table's bound of the function's value, or is that value rounded to nearest; beyond
2^15 in magnitude VSIN and VCOS give some value in [-1, 1].  Which bits within the bound they are is free (Config.specialFunction);
the function's value is 1/x and 1/sqrt x themselves for VRCP and VRSQ, and else that of `specialValue`, a grid of 2^-200 (log
entry 10). -/
def Obligations.SpecialFunctionForms : Prop :=
  ∀ (s : State) (d a : BitVec 8),
    let form := fun (i : Instr) (fn : Nat) =>
      Elements1 i s [2, 3, 4] d a (fun t m x =>
        let f := t.fmt.getD .f32
        let wide := BitVec.ofNat 32 (Fmt.f32.round .rne false (f.input m.ftz x))
        f.round .rne m.ftz (Fmt.f32.decode (specialFunction fn wide)))
    (form (.vrcp d a) 0 ∧ form (.vrsq d a) 1 ∧ form (.vexp2 d a) 2 ∧ form (.vlog2 d a) 3 ∧ form (.vsin d a) 4 ∧
      form (.vcos d a) 5 ∧ form (.vtanh d a) 6 ∧ form (.vsigm d a) 7 ∧ form (.vgelu d a) 8 ∧ form (.verf d a) 9) ∧
    (∀ (fn : Nat) (x : Word) (y : Sys2Proof.Machine.Num), specialExact fn (Fmt.f32.decode x.toNat) = some y →
      specialFunction fn x = Fmt.f32.round .rne false y) ∧
    ∀ (fn : Nat) (x : Word) (neg : Bool) (n m : Nat), fn < 10 → Fmt.f32.decode x.toNat = .fin neg n m →
      specialExact fn (.fin neg n m) = none →
      let r := Fmt.f32.decode (specialFunction fn x)
      let y := if fn = 0 then Sys2Proof.Machine.Num.div (.fin false 1 1) (.fin neg n m)
        else if fn = 1 then Sys2Proof.Machine.Num.div (.fin false 1 1) (Sys2Proof.Machine.Num.sqrt (.fin neg n m)) else specialValue fn neg n m
      if (fn = 4 ∨ fn = 5) ∧ 2 ^ 15 * m < n then Near r (.fin false 0 1) 1 1
      else WithinBound fn n m r y ∨ specialFunction fn x = Fmt.f32.round .rne false y

/-- R138, R157: VADDC carries through M15, VMULW writes the whole product to an even pair, VDOT4 adds four products to Vd, VBCST
and VLANE give a lane its slice's Sa or its own index, and VRNG and VDROP draw from hash64 (R156) at the key that Va and Vb
hold. -/
def Sys2Proof.Claims.VectorCarryDotAndLaneForms : Prop :=
  ∀ (s : State) (d a b : BitVec 8) (sa : BitVec 6),
    let g := s.here
    let carry := fun (l : Nat) => if (g.mask 15).getLsbD l then 1 else 0
    let sum := fun (l : Nat) => g.src a l + g.src b l + carry l
    let draw := fun (l : Nat) =>
      (hash64 (BitVec.ofNat 64 ((g.vword a.toNat l).toNat + 2 ^ 32 * (g.vword b.toNat l).toNat)) g.seed).toNat / 2 ^ 32
    (VectorReady g [0, 1] [a, b] [d] → ∃ t, exec (.vaddc d a b) s = .next t ∧
      (∀ c l, l < 64 → t.here.vword c l =
        if l ∈ g.active ∧ c = d.toNat then BitVec.ofNat 32 (sum l) else g.vword c l) ∧
      (∀ j l, l < 64 → (t.here.mask j).getLsbD l =
        if j = 15 ∧ l ∈ g.active then decide (2 ^ 32 ≤ sum l) else (g.mask j).getLsbD l) ∧
      t = { s with here := { passed g [d.toNat] with v := t.here.v, m := t.here.m } } ∧ SameMemory s t) ∧
    (VectorReady g [0, 1] [a, b] [] → RegistersReady g [] [d.toNat, d.toNat + 1] → d.toNat % 2 = 0 →
      ∃ t, exec (.vmulw d a b) s = .next t ∧
      (∀ c l, l < 64 → t.here.vword c l =
        let rd := fun x => intRead (modeEtype (g.laneMode l) == 0) 32 x
        let p := (rd (g.src a l) * rd (g.src b l) % (2 ^ 64 : Nat)).toNat
        if l ∈ g.active ∧ c = d.toNat then BitVec.ofNat 32 p
        else if l ∈ g.active ∧ c = d.toNat + 1 then BitVec.ofNat 32 (p / 2 ^ 32)
        else g.vword c l) ∧
      t = { s with here := { passed g [d.toNat, d.toNat + 1] with v := t.here.v } } ∧ SameMemory s t) ∧
    (VectorReady g [7, 8, 12, 13] [a, b, d] [d] → WritesLanes (.vdot4 d a b) s d g.active (fun l =>
      let t := typeOf s l
      let x := fun e => t.elem (g.src a l) e
      let y := fun e => t.elem (g.src b l) e
      match t.fmt with
      | none => (((g.src d l : Int) + asInt t (x 0) * asInt t (y 0) + asInt t (x 1) * asInt t (y 1) +
          asInt t (x 2) * asInt t (y 2) + asInt t (x 3) * asInt t (y 3)) % (2 ^ 32 : Nat)).toNat
      | some f => dotFloat f (roundingOf s l) t (g.src a l) (g.src b l) (g.src d l))) ∧
    (VectorReady g anyTypes [] [d] → WritesLanes (.vbcst d sa) s d g.active (fun l => (g.sreg (l / 4) sa.toNat).toNat)) ∧
    (VectorReady g anyTypes [] [d] → WritesLanes (.vlane d) s d g.active (fun l => l)) ∧
    (VectorReady g narrowTypeList [a, b] [d] → WritesLanes (.vrng d a b) s d g.active draw) ∧
    (VectorReady g narrowTypeList [a, b, d] [d] → WritesLanes (.vdrop d a b) s d g.active (fun l =>
      if draw l < (g.vword d.toNat l).toNat then 2 ^ 32 - 1 else 0))

/-- R139 to R141: the forms that write a mask from the active lanes.  A condition of 8 or more is reserved; 6 and 7 need a
floating type. -/
def Sys2Proof.Claims.VectorMaskForms : Prop :=
  ∀ (s : State) (c m : BitVec 4) (a b i : BitVec 8) (n z : BitVec 1),
    let g := s.here
    let types := if c.toNat < 6 then anyTypes else floatTypes
    let each := fun (l : Nat) (p : EType → Nat → Bool) => (List.range (typeOf s l).count).all (fun e => p (typeOf s l) e)
    (c.toNat < 8 → VectorReady g types [a, b] [] → WritesMask (.vcmp c m a b) s m g.active (fun l => each l (fun t e =>
      let x := t.elem (g.src a l) e
      let y := t.elem (g.src b l) e
      match t.fmt with
      | none => intCond c.toNat (asInt t x) (asInt t y)
      | some f => numCond c.toNat (f.input (roundingOf s l).ftz x) (f.input (roundingOf s l).ftz y)))) ∧
    (c.toNat < 6 → VectorReady g intTypes [a, b] [] → WritesMask (.vcmpn c m a b) s m g.active (fun l => each l (fun t e =>
      intCond c.toNat (t.elem (g.src a l) e) (t.elem (g.src b l) e)))) ∧
    (c.toNat < 6 → VectorReady g intTypes [a] [] → WritesMask (.vcmpi c m a i) s m g.active (fun l => each l (fun t e =>
      intCond c.toNat (asInt t (t.elem (g.src a l) e)) (asInt t (i.toInt % (2 ^ t.width : Nat)).toNat)))) ∧
    (VectorReady g floatTypes [a] [] → WritesMask (.vclass n m a i) s m g.active (fun l => each l (fun t e =>
      match (t.fmt.getD .f32).classOf (t.elem (g.src a l) e) with
      | none => n == 1
      | some k => i.getLsbD k))) ∧
    (VectorReady g anyTypes [a, b] [] → WritesMask (.vtest z m a b) s m g.active (fun l =>
      if z = 1 then (g.src a l &&& g.src b l) == 0 else (g.src a l &&& g.src b l) != 0))

/-- R138, R157: VADDC carries through M15, VMULW writes the whole product to an even pair, VDOT4 adds four products to Vd, VBCST and
VLANE give a lane its slice's Sa or its own index, and VRNG and VDROP draw from hash64 (R156) at the key that Va and Vb hold.
R139 to R141: the forms that write a mask from the active lanes. A condition of 8 or more is reserved; 6 and 7 need a floating
type. -/
def Obligations.VectorCarryLaneAndMaskForms : Prop := Claims.VectorCarryDotAndLaneForms ∧ Claims.VectorMaskForms

/-- R81, R130, R60, R64, R41: a vector form whose element type is not accepted, or one of whose operands is odd where operands
are pairs, raises ILLEGAL; else an unwritten T register read raises RUNTEMP; else a V register above the gang's granules raises
CLAIM, in that order, and nothing is written, whatever EXEC holds.  Stated of VADD, VMULH, VFMA, VMOV and VLANE, one of each shape. -/
def Sys2Proof.Claims.VectorFaultOrder : Prop :=
  ∀ (s : State) (d a b : BitVec 8),
    let g := s.here
    let order := fun (i : Instr) (types : List Nat) (reads writes : List (BitVec 8)) =>
      let illegal := (∃ sl ∈ g.members, modeEtype (g.modeOf sl) ∉ types) ∨ (Wide g ∧ ∃ c ∈ reads ++ writes, c.toNat % 2 = 1)
      let unwritten := ∃ c ∈ reads, ∃ k, Names g c.toNat k ∧ 248 ≤ k ∧ g.grp.tw.getLsbD (k - 248) = false
      let above := ∃ c ∈ reads ++ writes, ∃ k, Names g c.toNat k ∧ k < 248 ∧ 8 * g.granules ≤ k
      (illegal → Faults i s .illegal) ∧ (¬ illegal → unwritten → Faults i s .runtemp) ∧
        (¬ illegal → ¬ unwritten → above → Faults i s .claim)
    (∀ sl ∈ g.members, modeEtype (g.modeOf sl) ∈ anyTypes) →
      order (.vadd d a b) anyTypes [a, b] [d] ∧ order (.vmulh d a b) intTypes [a, b] [d] ∧
      order (.vfma d a b) anyTypes [a, b, d] [d] ∧ order (.vmov d a) anyTypes [a] [d] ∧ order (.vlane d) anyTypes [] [d]

/-- R9, R71: the active lanes are the lanes of the group whose EXEC bit is 1 and that the guard of their own slice selects: all of
them where GUARD is 0, else those whose bit of the guard mask differs from GINV. R81, R130, R60, R64, R41: a vector form whose
element type is not accepted, or one of whose operands is odd where operands are pairs, raises ILLEGAL; else an unwritten T
register read raises RUNTEMP; else a V register above the gang's granules raises CLAIM, in that order, and nothing is written,
whatever EXEC holds. Stated of VADD, VMULH, VFMA, VMOV and VLANE, one of each shape. -/
def Obligations.ActiveLanesAndFaultOrder : Prop := Claims.ActiveLanes ∧ Claims.VectorFaultOrder

/-! ## Conversion and cross-lane forms (06_scalar_vector_instructions.md) -/

/-- R146, R151: a conversion under a slice's element type: between two different storage codes, or, under a 64-bit element type,
from f32, i32 or n32 to it, from it, or from another 64-bit type. -/
def Sys2Proof.Claims.Convertible (e c d : Nat) : Prop :=
  if e ∈ [9, 10, 11] then c ∈ [0, 8, 9] ∧ d ≤ 2 ∧ ¬ (d = 2 ∧ (e, c) ∈ [(9, 0), (10, 8), (11, 9)]) else c ≠ d

/-- R150: where a code names sq4 or sq8, every slice with an active lane holds a legal block record in S62. -/
def Sys2Proof.Claims.RecordsLegal (g : Gang) (c d : Nat) : Prop :=
  (c ∈ [6, 7] ∨ d ∈ [6, 7]) → ∀ l ∈ g.active, recordOk (g.sreg (l / 4) 62) = true

/-- R145 to R151: VCVT and its 64-bit rows convert the low element of Va in each active lane (or its whole word or pair), VPACK
fills Vd from the elements of several registers, and VUNPKL and VUNPKH spread the lower or upper half of Va's elements over
several registers, wherever the word meets no fault. -/
def Obligations.ConversionForms : Prop :=
  ∀ (s : State) (d a : BitVec 8) (c t : BitVec 4),
    let g := s.here
    let convert := fun (i : Instr) (t : BitVec 4) =>
      let reads := if g.anyWide ∧ t ≠ 0 then [a.toNat, a.toNat + 1] else [a.toNat]
      let writes := if g.anyWide ∧ t ≠ 1 then [d.toNat, d.toNat + 1] else [d.toNat]
      (∀ sl ∈ g.members, Convertible (modeEtype (g.modeOf sl)) c.toNat t.toNat) → (Wide g → a.toNat % 2 = 0 ∧ d.toNat % 2 = 0) →
      RegistersReady g reads writes → ((∃ sl ∈ g.members, modeEtype (g.modeOf sl) ∉ [9, 10, 11]) → RecordsLegal g c.toNat t.toNat) →
      ∃ u, exec i s = .next u ∧
        (∀ k l, l < 64 → u.here.vword k l =
          if l ∈ g.active ∧ g.wideLane l = true then
            let x := convert64 (g.laneMode l) c.toNat t.toNat (g.operand (t != 0) a.toNat l)
            if k = d.toNat then BitVec.ofNat 32 x
            else if t ≠ 1 ∧ k = d.toNat + 1 then BitVec.ofNat 32 (x / 2 ^ 32)
            else g.vword k l
          else if l ∈ g.active ∧ k = d.toNat then
            BitVec.ofNat 32 (convertElem (g.convertCtx l) c.toNat t.toNat (8 * l) ((g.vword a.toNat l).toNat % 2 ^ codeWidth c.toNat))
          else g.vword k l) ∧
        u = { s with here := { passed g writes with v := u.here.v } } ∧ SameMemory s u
    let ws := codeWidth c.toNat
    let wd := codeWidth t.toNat
    let elem := fun (k l e : Nat) => (g.vword k l).toNat / 2 ^ (ws * e) % 2 ^ ws
    let word := fun (l key0 : Nat) (x : Nat → Nat) => BitVec.ofNat 32 ((List.range (32 / wd)).foldl (fun w j =>
      w + convertElem (g.convertCtx l) c.toNat t.toNat (key0 + j) (x j) * 2 ^ (wd * j)) 0)
    let unpack := fun (i : Instr) (upper : Nat) =>
      let n := wd / ws / 2
      ws < wd → rangeOk d.toNat n = true → ¬ Wide g → RegistersReady g [a.toNat] ((List.range n).map (d.toNat + ·)) →
      RecordsLegal g c.toNat t.toNat →
      ∃ u, exec i s = .next u ∧
        (∀ k l, l < 64 → u.here.vword k l =
          if l ∈ g.active ∧ d.toNat ≤ k ∧ k < d.toNat + n then
            word l (8 * l + 32 / wd * (k - d.toNat)) (fun j => elem a.toNat l (32 / wd * (k - d.toNat) + j + upper * (32 / ws / 2)))
          else g.vword k l) ∧
        u = { s with here := { passed g ((List.range n).map (d.toNat + ·)) with v := u.here.v } } ∧ SameMemory s u
    convert (.vcvt d a c t) t ∧ convert (.vcvtTo64 d a c) 0 ∧ convert (.vcvtFrom64 d a c) 1 ∧ convert (.vcvtX64 d a c) 2 ∧
    (wd < ws → rangeOk a.toNat (ws / wd) = true → ¬ Wide g →
      RegistersReady g ((List.range (ws / wd)).map (a.toNat + ·)) [d.toNat] → RecordsLegal g c.toNat t.toNat →
      ∃ u, exec (.vpack d a c t) s = .next u ∧
        (∀ k l, l < 64 → u.here.vword k l =
          if l ∈ g.active ∧ k = d.toNat then word l (8 * l) (fun j => elem (a.toNat + j / (32 / ws)) l (j % (32 / ws))) else g.vword k l) ∧
        u = { s with here := { passed g [d.toNat] with v := u.here.v } } ∧ SameMemory s u) ∧
    unpack (.vunpkl d a c t) 0 ∧ unpack (.vunpkh d a c t) 1

/-- The lanes of a mask register. -/
def Sys2Proof.Claims.lanesOf (g : Gang) (m : BitVec 4) : List Nat := (List.range 64).filter (fun l => (g.mask m.toNat).getLsbD l)

/-- R38, R152: the operands of a cross-lane form are uniform, RND and FTZ for a floating operation alone (`computes` says that the
form computes), and every active lane is a member. -/
def Sys2Proof.Claims.CrossReady (g : Gang) (m : BitVec 4) (computes : Bool) : Prop :=
  (∀ l ∈ g.active, l ∈ lanesOf g m) ∧
  (∀ x ∈ g.members, ∀ y ∈ g.members, modeEtype (g.modeOf x) = modeEtype (g.modeOf y) ∧
    (computes = true → modeEtype (g.modeOf x) ∈ floatTypes → modeRnd (g.modeOf x) = modeRnd (g.modeOf y) ∧ modeFtz (g.modeOf x) = modeFtz (g.modeOf y)))

/-- LCAUSE with EXMEM set where a form has read an exited member (R152). -/
def Sys2Proof.Claims.exmem (g : Gang) (read : Prop) [Decidable read] : Word64 := if read then g.lcause ||| 0x10000#64 else g.lcause

/-- R153: lane i of a movement form takes the value of its partner: i itself where the partner is no member, zero where the
partner has exited (R152).  VLSTEP adds the partner's value, the lower-indexed lane's first.  A read of an exited member sets EXMEM;
that the movement forms count the reads of the active lanes alone is the model's choice (log entry 55). -/
def Sys2Proof.Claims.CrossLaneMovementForms : Prop :=
  ∀ (s : State) (d a : BitVec 8) (m k : BitVec 4),
    let g := s.here
    let w := 64 / 2 ^ k.toNat
    let member := fun (p : Nat) => p ∈ lanesOf g m
    let gone := fun (p : Nat) => g.exited.getLsbD (p / 4) = true
    let moves := fun (i : Instr) (computes : Bool) (reads : List (BitVec 8)) (partner : Nat → Nat) (value : Nat → Nat) =>
      k.toNat ≤ 6 → VectorReady g anyTypes reads [d] → CrossReady g m computes →
      ∃ t, exec i s = .next t ∧
        (∀ c l, l < 64 → t.here.vword c l =
          if l ∈ g.active ∧ c = d.toNat then BitVec.ofNat 32 (value l)
          else if l ∈ g.active ∧ g.wideLane l = true ∧ c = d.toNat + 1 then BitVec.ofNat 32 (value l / 2 ^ 32)
          else g.vword c l) ∧
        t = { s with here := { passed g (g.spans d.toNat) with
          v := t.here.v, lcause := exmem g (∃ l ∈ g.active, member (partner l) ∧ gone (partner l)) } } ∧ SameMemory s t
    let taken := fun (partner : Nat → Nat) (i : Nat) =>
      if ¬ member (partner i) then g.src a i else if gone (partner i) then 0 else g.operand (g.wideLane i) a.toNat (partner i)
    let broadcast := fun (i : Nat) => i - i % w + g.src d i % w
    moves (.vxorl d a m k) false [a] (fun i => (i ^^^ w) % 64) (taken (fun i => (i ^^^ w) % 64)) ∧
    moves (.vrotl d a m k) false [a] (fun i => (i + w) % 64) (taken (fun i => (i + w) % 64)) ∧
    moves (.vbcl d a m k) false [a, d] broadcast (taken broadcast) ∧
    moves (.vlstep d a m k) true [a] (fun i => (i ^^^ w) % 64) (fun i =>
      let p := (i ^^^ w) % 64
      let t := etype (modeEtype g.firstMode)
      let fm := floatMode g.firstMode
      t.build (fun e =>
        let own := t.elem (g.src a i) e
        let other := if member p ∧ ¬ gone p then t.elem (g.operand (g.wideLane i) a.toNat p) e else t.addIdentity
        if p < i then t.add fm other own else t.add fm own other))

/-- R154, R155: VSCAN and VREDS fold the members in increasing lane index from the identity, an exited member supplying the identity;
VVOTE and VMATCH look at the live members.  An exited member (R152) sets EXMEM; that it does so for VREDS, VVOTE and VMATCH whatever EXEC
holds, for VSCAN where some active lane's fold takes it in, and that VVOTE's SCC follows the value also where Sd is S0, are the model's choice (log entry 65). -/
def Sys2Proof.Claims.CrossLaneFoldForms : Prop :=
  ∀ (s : State) (d a : BitVec 8) (sd : BitVec 6) (ma md m o : BitVec 4),
    let g := s.here
    let t := etype (modeEtype g.firstMode)
    let fm := floatMode g.firstMode
    let gone := fun (p : Nat) => g.exited.getLsbD (p / 4) = true
    let fold := fun (lanes : List Nat) (e : Nat) => lanes.foldl (fun acc l =>
      t.foldStep fm o.toNat acc (if gone l then t.identity o.toNat else t.elem (g.operand g.anyWide a.toNat l) e)) (t.identity o.toNat)
    let live := (lanesOf g m).filter (fun l => decide (¬ gone l))
    let anyGone : Prop := ∃ l ∈ lanesOf g m, gone l
    let bit := fun (l : Nat) => (g.mask ma.toNat).getLsbD l
    let scalar := fun (i : Instr) (v : Word64) (scc : Bool) => ∃ u, exec i s = .next u ∧
      (∀ sl r, r < 64 → u.here.sreg sl r = if sl ∈ g.members ∧ r = sd.toNat ∧ r ≠ 0 then v else g.sreg sl r) ∧
      (∀ sl, sl < 16 → u.here.sccOf sl = if sl ∈ g.members ∧ scc = true then v != 0 else g.sccOf sl) ∧
      u = { s with here := { passed g [] with s := u.here.s, scc := u.here.scc, lcause := exmem g anyGone } } ∧ SameMemory s u
    (o.toNat ≤ 5 → VectorReady g anyTypes [a] [d] → CrossReady g m (decide (o.toNat ≤ 2)) →
      ∃ u, exec (.vscan d a m o) s = .next u ∧
        (∀ c l, l < 64 → u.here.vword c l =
          let x := t.build (fold ((lanesOf g m).filter (fun k => decide (k ≤ l))))
          if l ∈ g.active ∧ c = d.toNat then BitVec.ofNat 32 x
          else if l ∈ g.active ∧ g.wideLane l = true ∧ c = d.toNat + 1 then BitVec.ofNat 32 (x / 2 ^ 32)
          else g.vword c l) ∧
        u = { s with here := { passed g (g.spans d.toNat) with
          v := u.here.v, lcause := exmem g (∃ l ∈ lanesOf g m, gone l ∧ ∃ i ∈ g.active, l ≤ i) } } ∧ SameMemory s u) ∧
    (o.toNat ≤ 5 → VectorReady g anyTypes [a] [] → CrossReady g m (decide (o.toNat ≤ 2)) →
      scalar (.vreds sd a m o) (let x := t.build (fold (lanesOf g m))
        if modeEtype g.firstMode = 0 then (BitVec.ofNat 32 x).signExtend 64 else BitVec.ofNat 64 x) false) ∧
    (o.toNat ≤ 3 → CrossReady g m false → scalar (.vvote sd ma m o)
      (if o = 0 then (if live.all bit then 1 else 0)
       else if o = 1 then (if live.any bit then 1 else 0)
       else if o = 2 then BitVec.ofNat 64 ((live.filter bit).map (fun l => 2 ^ l)).sum
       else (if live.all bit ∨ live.all (fun l => !bit l) then 1 else 0)) true) ∧
    (o.toNat ≤ 1 → VectorReady g anyTypes [a] [] → CrossReady g m false →
      ∃ u, exec (.vmatch md a m o) s = .next u ∧
        (∀ j l, l < 64 → (u.here.mask j).getLsbD l =
          if j = md.toNat ∧ l ∈ g.active then
            let same := fun (k : Nat) => g.operand g.anyWide a.toNat k == g.src a l
            if o = 0 then live.any (fun k => k != l && same k) else !(live.any (fun k => decide (k < l) && same k))
          else (g.mask j).getLsbD l) ∧
        u = { s with here := { passed g [] with m := u.here.m, lcause := exmem g anyGone } } ∧ SameMemory s u)

/-- R153: lane i of a movement form takes the value of its partner: i itself where the partner is no member, zero where the partner
has exited (R152). VLSTEP adds the partner's value, the lower-indexed lane's first. A read of an exited member sets EXMEM; that
the movement forms count the reads of the active lanes alone is the model's choice (log entry 55). R154, R155: VSCAN and VREDS
fold the members in increasing lane index from the identity, an exited member supplying the identity; VVOTE and VMATCH look at
the live members. An exited member (R152) sets EXMEM; that it does so for VREDS, VVOTE and VMATCH whatever EXEC holds, for VSCAN
where some active lane's fold takes it in, and that VVOTE's SCC follows the value also where Sd is S0, are the model's choice
(log entry 65). -/
def Obligations.CrossLaneForms : Prop := Claims.CrossLaneMovementForms ∧ Claims.CrossLaneFoldForms

/-! ## Memory words (11_memory_instructions.md) -/

namespace Sys2Proof.Claims

/-- The flag code names a flag that can count one more operation, or no flag (R58, R65). -/
def FlagReady (g : Gang) (f : BitVec 4) : Prop := (f.toNat < 12 ∧ g.flag f.toNat < 63) ∨ f = 15

/-- The flag that a code names. -/
def flagNamed (f : BitVec 4) : Option Nat := if f = 15 then none else some f.toNat

/-- The count of flag `n` after a word that starts an operation under the flag code `f` (R68). -/
def counted (g : Gang) (f : BitVec 4) (n : Nat) : Nat := if f ≠ 15 ∧ n = f.toNat then g.flag n + 1 else g.flag n

/-- The size of an access of LD, ST, LDS, STS, LDP, STP and of the atomics under a MODE (R254). -/
def elementSize (m : Word) : Nat := if modeEtype m ∈ [9, 10, 11] then 8 else 4

/-- The accesses of a load or of a store, lane by lane: the address of R253, and the operand to be stored. -/
def requests (g : Gang) (x : BitVec 8) (b : BitVec 4) (size : Word → Nat) (data cmp : Nat → Nat) : List LaneReq :=
  g.active.map (fun l => { lane := l, va := g.laneAddress x b (size (g.laneMode l)) l, size := size (g.laneMode l), data := data l
                           cmp := cmp l, mode := g.laneMode l })

/-- An access at its physical address. -/
def accessAt (phys : Nat → Nat) (r : LaneReq) : LaneAcc :=
  { lane := r.lane, addr := phys r.lane, size := r.size, data := r.data, cmp := r.cmp, mode := r.mode, elem := r.elem }

/-- No access of a word waits for a page-table line that the host owns (R247). -/
def Walked (s : State) (g : Gang) (l : List LaneReq) : Prop := ∀ r ∈ l, s.walkWaits g r.va = false

/-- Every access of a global word goes through in `u`, which is `s` with the TLBs filled: no walk waits for the host, its address is a
multiple of its size, translates to `phys`, and meets no locked range (R257); and there is at least one (R258). -/
def Reaches (s u : State) (g : Gang) (kind : AccessKind) (l : List LaneReq) (phys : Nat → Nat) : Prop :=
  l ≠ [] ∧ Walked s g l ∧ ∀ r ∈ l, r.va % r.size = 0 ∧ u.translate g r.va kind = .ok (phys r.lane) ∧
    u.lockHit g false (decide (kind ≠ .load)) r.va r.size = false

/-- `u` is `s` but for translations that TLBs have taken in and for counters of events (R358, R417). -/
def OnlyTlbs (s u : State) : Prop :=
  u = { s with cores := u.cores, clusters := u.clusters, mgmt := { s.mgmt with dies := u.mgmt.dies } } ∧
  (∀ n, u.core n = { s.core n with tlb := (u.core n).tlb, evc := (u.core n).evc }) ∧
  ∀ n, u.cluster n = { s.cluster n with tlb := (u.cluster n).tlb }

/-- The operation that the word on the pipe starts in `u`, with the registers that it reads at issue (R126). -/
def opened (u : State) (kind : OpKind) (scope : Nat) (f : BitVec 4) (accs : List LaneAcc) : MemOp :=
  { id := u.nextId, core := u.here.core, slot := u.here.slot, kind := kind, scope := scope, flag := flagNamed f, lanes := accs
    narrow := u.here.narrow, seed := u.here.seed, pc := u.here.wordPc, word := u.wordHere, index := u.here.wordIndex
    slice := u.here.members.headD 0 }

/-- `u` with the operation in progress and counted into its flag. -/
def withOp (u : State) (o : MemOp) : State := { u with here := u.here.raiseFlag o.flag, ops := u.ops ++ [o], nextId := u.nextId + 1 }

/-- The word is a load that starts: `t` has the operation in progress, counted into its flag, and the group past its word. -/
def Started (s u t : State) (f : BitVec 4) (o : MemOp) : Prop :=
  t = { u with here := { passed s.here [] with flags := t.here.flags }, ops := s.ops ++ [o], nextId := s.nextId + 1 } ∧
  (∀ n, t.here.flag n = counted s.here f n) ∧ OnlyTlbs s u ∧ SameMemory s t

/-- A load form starts its operation wherever its accesses go through, but waits at issue while the core's miss table has no room for
the lines that it misses (R219) or a walk waits for the host (R247), and passes without effect where no lane is active. -/
def StartsLoad (i : Instr) (s : State) (f : BitVec 4) (cls : LoadClass) (form : LoadForm) (d x : BitVec 8) (b : BitVec 4)
    (size : Word → Nat) : Prop :=
  let l := requests s.here x b size (fun _ => 0) (fun _ => 0)
  let u := s.fillAll s.here l
  (∀ phys, Reaches s u s.here .load l phys →
    let full := u.missTableFull s.here .load cls s.here.widestScope (l.map (accessAt phys))
    (full = false → ∃ t, exec i s = .next t ∧
      Started s u t f (opened u (.load cls form d.toNat) s.here.widestScope f (l.map (accessAt phys)))) ∧
    (full = true → exec i s = .next u.stall)) ∧
  (l ≠ [] → ¬ Walked s s.here l → exec i s = .next s.stall) ∧
  (s.here.active = [] → exec i s = .next { s with here := passed s.here [] })

/-- The conditions of a form whose destination or source is Vd under the pair rule (R60, R64, R41). -/
def PairReady (g : Gang) (load : Bool) (f : BitVec 4) (d x : BitVec 8) : Prop :=
  FlagReady g f ∧ (load = true → d.toNat < 248) ∧ (Wide g → d.toNat % 2 = 0) ∧
    RegistersReady g (if load then [x.toNat] else x.toNat :: g.spans d.toNat) (if load then g.spans d.toNat else [])

/-- The conditions of a byte or halfword form, or of a formatted load: no 64-bit element type (R254, R263). -/
def NarrowReady (g : Gang) (load : Bool) (f : BitVec 4) (d x : BitVec 8) : Prop :=
  FlagReady g f ∧ (load = true → d.toNat < 248) ∧ ¬ Wide g ∧
    RegistersReady g (if load then [x.toNat] else [x.toNat, d.toNat]) (if load then [d.toNat] else [])

/-- The conditions of LDD and STD: the pair Vd, Vd+1 under every element type (R254). -/
def DoubleReady (g : Gang) (load : Bool) (f : BitVec 4) (d x : BitVec 8) : Prop :=
  FlagReady g f ∧ (load = true → d.toNat < 248) ∧ d.toNat % 2 = 0 ∧
    RegistersReady g (if load then [x.toNat] else [x.toNat, d.toNat, d.toNat + 1]) (if load then [d.toNat, d.toNat + 1] else [])

/-- The operand of a store: one word of Vd, or the pair from Vd where eight bytes are stored. -/
def stored (g : Gang) (d : BitVec 8) (size : Word → Nat) (l : Nat) : Nat := g.operand (size (g.laneMode l) == 8) d.toNat l

/-- What fills for a core's gang may change from `u` to `t`: copies in the core's L1 and its cluster's cache, leases at the homes
with the clocks that cover them, and counters; no bytes, no wts (R229, R231). -/
def OnlyFills (core : Nat) (u t : State) : Prop :=
  (∀ n, n ≠ core → t.core n = u.core n) ∧
  (∀ n, t.cluster n = { u.cluster n with copies := (t.cluster n).copies } ∧ (n ≠ core / 4 → t.cluster n = u.cluster n)) ∧
  ∀ line, t.home line = { u.home line with rts := (t.home line).rts, lease := (t.home line).lease, written := (t.home line).written } ∧
    (u.home line).rts ≤ (t.home line).rts

/-- A store form hands its accesses on wherever they go through.  Where the gang has no other operation in progress and no group
of it is at a fence, a store that is neither weak nor a release is performed at once: its bytes lie over what the core saw of each
line, in an entry of the dirty-line FIFO that names the gang and carries at least its PTS, and no operation stays in progress
(R229, R260).  The other bytes of its lines are filled, or wait while the host owns them (R247); no byte of memory changes before the
entry reaches its home.  It waits at issue as a load does. -/
def StartsStore (i : Instr) (s : State) (f : BitVec 4) (release weak : Bool) (d x : BitVec 8) (b : BitVec 4) (size : Word → Nat) :
    Prop :=
  let g := s.here
  let l := requests g x b size (stored g d size) (fun _ => 0)
  let u := s.fillAll g l
  (∀ phys, Reaches s u g .store l phys →
    let accs := l.map (accessAt phys)
    let o := opened u (.store release weak) g.widestScope f accs
    let full := u.missTableFull g .store (if weak then .weak else .relaxed) g.widestScope accs
    (full = true → exec i s = .next u.stall) ∧ (full = false → exec i s = .next (((withOp u o).settle g.key).done)) ∧ OnlyTlbs s u ∧
    (full = false → release = false → weak = false → g.ended = false → (∀ p ∈ s.ops, p.gang ≠ g.key) → (∀ p ∈ g.grp :: g.parted, p.fence = false) →
      (∀ r ∈ l, regionOf (phys r.lane) ≠ .peer) →
      ∃ t, exec i s = .next t ∧
        t = { u with here := { passed g [] with flags := t.here.flags }, ops := s.ops.filter (fun p => p.id != s.nextId)
                     cores := t.cores, clusters := t.clusters, homes := t.homes, clocks := t.clocks, nextId := t.nextId } ∧
        (∀ n, t.here.flag n = g.flag n) ∧ SameMemory s t ∧ OnlyFills g.core u t ∧
        t.core g.core = { u.core g.core with fifo := (t.core g.core).fifo, l1 := (t.core g.core).l1, evc := (t.core g.core).evc } ∧
        (∀ line wts, overlay 0 (t.dirtyItems g.core line wts) =
          mergeLine (overlay 0 (s.dirtyItems g.core line wts)) (laneBytes accs line).2 (laneBytes accs line).1) ∧
        (∀ a ∈ accs, ∃ e ∈ (t.core g.core).fifo, e.line = a.addr / 64 ∧ g.key ∈ e.gangs ∧ g.ptsNow ≤ e.pts ∧ e.reach = 0))) ∧
  (l ≠ [] → ¬ Walked s g l → exec i s = .next s.stall) ∧
  (g.active = [] → exec i s = .next { s with here := passed g [] })

/-- An atomic or a reduction hands its accesses on wherever they go through; one without release ordering then only waits
for its homes. -/
def StartsAtomic (i : Instr) (s : State) (op : AtomOp) (ret : Bool) (d x : BitVec 8) (b f : BitVec 4) : Prop :=
  let g := s.here
  let wide := fun l => decide (modeEtype (g.laneMode l) ∈ [9, 10, 11])
  let l := requests g x b elementSize
    (fun n => g.operand (wide n) (if op = .cas then d.toNat + (if wide n then 2 else 1) else d.toNat) n)
    (fun n => if op = .cas then g.operand (wide n) d.toNat n else 0)
  let u := s.fillAll g l
  let acq := g.members.any (fun sl => decide (modeAord (g.modeOf sl) = 1 ∨ modeAord (g.modeOf sl) = 3))
  let rel := g.members.any (fun sl => decide (modeAord (g.modeOf sl) = 2 ∨ modeAord (g.modeOf sl) = 3))
  (l ≠ [] → ¬ Walked s g l → exec i s = .next s.stall) ∧
  (∀ phys, Reaches s u g .atomic l phys →
    let o := opened u (.atomic op (acq && ret) rel (if ret then some d.toNat else none) false) g.widestScope f (l.map (accessAt phys))
    exec i s = .next (((withOp u o).settle g.key).done) ∧ OnlyTlbs s u ∧
    (rel = false → (∀ p ∈ s.ops, p.gang ≠ g.key) → ∃ t, exec i s = .next t ∧ Started s u t f o)) ∧
  (g.active = [] → exec i s = .next { s with here := passed g [] })

/-- The registers that an atomic names and the element types that it accepts (R264, R60). -/
def AtomicReady (g : Gang) (types : List Nat) (cas ret : Bool) (d x : BitVec 8) (f : BitVec 4) : Prop :=
  let n := (if cas then 2 else 1) * (if g.anyWide then 2 else 1)
  let regs := (List.range n).map (d.toNat + ·)
  FlagReady g f ∧ (∀ sl ∈ g.members, modeEtype (g.modeOf sl) ∈ types) ∧ (cas = true ∨ Wide g → d.toNat % n = 0) ∧
    (ret = true → d.toNat < 248) ∧ RegistersReady g (x.toNat :: regs) (if ret then g.spans d.toNat else [])

end Sys2Proof.Claims

/-- R253: a lane's address is the value of Sb in its slice plus the sign-extended index, which MODE.IXS scales by the access
size, modulo 2^64. -/
def Sys2Proof.Claims.LaneAddresses : Prop :=
  ∀ (g : Gang) (x : BitVec 8) (b : BitVec 4) (size lane : Nat),
    let index := (g.vword x.toNat lane).signExtend 64
    g.laneAddress x b size lane =
      (g.sreg (lane / 4) b.toNat + (if modeIxs (g.modeOf (lane / 4)) then index * BitVec.ofNat 64 size else index)).toNat

/-- R254, R258, R261: the global loads start one operation for the word, of the class and form of each, with the widest scope
of the participating slices (R256); loads complete later, by the events of the home and of the fill. -/
def Sys2Proof.Claims.GlobalLoadIssue : Prop :=
  ∀ (s : State) (d x : BitVec 8) (b f : BitVec 4),
    (PairReady s.here true f d x →
      StartsLoad (.ld d x b f) s f .relaxed .pair d x b elementSize ∧ StartsLoad (.lda d x b f) s f .acquire .pair d x b elementSize ∧
      StartsLoad (.ldw d x b f) s f .weak .pair d x b elementSize ∧ StartsLoad (.ldnt d x b f) s f .relaxed .pair d x b elementSize) ∧
    (NarrowReady s.here true f d x →
      StartsLoad (.ldb d x b f) s f .relaxed .zext d x b (fun _ => 1) ∧ StartsLoad (.ldbs d x b f) s f .relaxed .sext d x b (fun _ => 1) ∧
      StartsLoad (.ldh d x b f) s f .relaxed .zext d x b (fun _ => 2) ∧ StartsLoad (.ldhs d x b f) s f .relaxed .sext d x b (fun _ => 2)) ∧
    (DoubleReady s.here true f d x → StartsLoad (.ldd d x b f) s f .relaxed .pair d x b (fun _ => 8))

/-- R253: a lane's address is the value of Sb in its slice plus the sign-extended index, which MODE.IXS scales by the access size,
modulo 2^64. R254, R258, R261: the global loads start one operation for the word, of the class and form of each, with the widest
scope of the participating slices (R256); loads complete later, by the events of the home and of the fill. -/
def Obligations.GlobalLoadForms : Prop := Claims.LaneAddresses ∧ Claims.GlobalLoadIssue

/-- R229, R254, R258, R260, R261: the global stores. -/
def Sys2Proof.Claims.GlobalStoreIssue : Prop :=
  ∀ (s : State) (d x : BitVec 8) (b f : BitVec 4),
    (PairReady s.here false f d x →
      StartsStore (.st d x b f) s f false false d x b elementSize ∧ StartsStore (.stl d x b f) s f true false d x b elementSize ∧
      StartsStore (.stw d x b f) s f false true d x b elementSize ∧ StartsStore (.stnt d x b f) s f false false d x b elementSize) ∧
    (NarrowReady s.here false f d x →
      StartsStore (.stb d x b f) s f false false d x b (fun _ => 1) ∧ StartsStore (.sth d x b f) s f false false d x b (fun _ => 2)) ∧
    (DoubleReady s.here false f d x → StartsStore (.std d x b f) s f false false d x b (fun _ => 8))

/-- R256, R264, R265: the vector atomics and reductions, each under the element types that it accepts. -/
def Sys2Proof.Claims.AtomicIssue : Prop :=
  ∀ (s : State) (d x : BitVec 8) (b f : BitVec 4),
    let ints := [0, 1, 10, 11]
    let flts := [2, 9]
    let ready := fun types cas ret => AtomicReady s.here types cas ret d x f
    (ready ints false true → StartsAtomic (.atomAdd d x b f) s .add true d x b f ∧ StartsAtomic (.atomMin d x b f) s .min true d x b f ∧
      StartsAtomic (.atomMax d x b f) s .max true d x b f ∧ StartsAtomic (.atomInc d x b f) s .inc true d x b f) ∧
    (ready anyTypes false true → StartsAtomic (.atomXchg d x b f) s .xchg true d x b f ∧
      StartsAtomic (.atomAnd d x b f) s .and true d x b f ∧ StartsAtomic (.atomOr d x b f) s .or true d x b f ∧
      StartsAtomic (.atomXor d x b f) s .xor true d x b f) ∧
    (ready anyTypes true true → StartsAtomic (.atomCas d x b f) s .cas true d x b f) ∧
    (ready flts false true → StartsAtomic (.atomFadd d x b f) s .fadd true d x b f ∧
      StartsAtomic (.atomFmin d x b f) s .fmin true d x b f ∧ StartsAtomic (.atomFmax d x b f) s .fmax true d x b f) ∧
    (ready ints false false → StartsAtomic (.redAdd d x b f) s .add false d x b f ∧
      StartsAtomic (.redMin d x b f) s .min false d x b f ∧ StartsAtomic (.redMax d x b f) s .max false d x b f) ∧
    (ready flts false false → StartsAtomic (.redFadd d x b f) s .fadd false d x b f ∧ StartsAtomic (.redFmax d x b f) s .fmax false d x b f) ∧
    (ready anyTypes false false → StartsAtomic (.redAnd d x b f) s .and false d x b f ∧
      StartsAtomic (.redOr d x b f) s .or false d x b f ∧ StartsAtomic (.redXor d x b f) s .xor false d x b f)

/-- R229, R254, R258, R260, R261: the global stores. R256, R264, R265: the vector atomics and reductions, each under the element
types that it accepts. -/
def Obligations.GlobalStoreAndAtomicForms : Prop := Claims.GlobalStoreIssue ∧ Claims.AtomicIssue

/-- R257 steps 2 to 5 and R258, for LD, LDA, ST, STL and ATOM.ADD: MISALIGN comes first, then XLATE, then PERM, then
RANGELOCK, each with the lowest address that meets it; the gang then stops before the word, with nothing written.  A walk that reads
poison kills the gang with UNCORR, after MISALIGN and before the others (R391; the model's choice, log entry 73). -/
def Obligations.GlobalFaultOrder : Prop :=
  ∀ (s : State) (d x : BitVec 8) (b f : BitVec 4) (a : Nat),
    let g := s.here
    let check := fun (i : Instr) (kind : AccessKind) (l : List LaneReq) =>
      let u := s.fillAll g l
      let mis := (l.filter (fun r => decide (r.va % r.size ≠ 0))).map LaneReq.va
      let fails := fun (c : Cause) => (l.filter (fun r => match u.translate g r.va kind with
        | .error e => e == c
        | .ok _ => false)).map LaneReq.va
      let locked := (l.filter (fun r => u.lockHit g false (decide (kind ≠ .load)) r.va r.size)).map LaneReq.va
      let lowest := fun (m : List Nat) => a ∈ m ∧ ∀ y ∈ m, a ≤ y
      (Walked s g l → lowest mis → exec i s = .next (u.precise .misalign a)) ∧
      (Walked s g l → mis = [] → fails .uncorr ≠ [] → exec i s = .next (u.killHere .uncorr)) ∧
      (Walked s g l → mis = [] → fails .uncorr = [] → lowest (fails .xlate) → exec i s = .next (u.precise .xlate a)) ∧
      (Walked s g l → mis = [] → fails .uncorr = [] → fails .xlate = [] → lowest (fails .perm) → exec i s = .next (u.precise .perm a)) ∧
      (Walked s g l → mis = [] → fails .uncorr = [] → fails .xlate = [] → fails .perm = [] → lowest locked → exec i s = .next (u.precise .rangelock a)) ∧
      OnlyTlbs s u
    (PairReady g true f d x →
      check (.ld d x b f) .load (requests g x b elementSize (fun _ => 0) (fun _ => 0)) ∧
      check (.lda d x b f) .load (requests g x b elementSize (fun _ => 0) (fun _ => 0))) ∧
    (PairReady g false f d x →
      check (.st d x b f) .store (requests g x b elementSize (stored g d elementSize) (fun _ => 0)) ∧
      check (.stl d x b f) .store (requests g x b elementSize (stored g d elementSize) (fun _ => 0))) ∧
    (AtomicReady g [0, 1, 10, 11] false true d x f →
      check (.atomAdd d x b f) .atomic (requests g x b elementSize (stored g d elementSize) (fun _ => 0)))

namespace Sys2Proof.Claims

/-- The word is a scratchpad word that starts: lanes out of reach take SCRATCH first and stay off (R224, R257 step 1); the
others, aligned and clear of locked ranges, are one operation of block scope.  The block's own rank names its own carve-out
(R217). -/
def StartsScratch (i : Instr) (s : State) (f : BitVec 4) (peer : Bool) (kind : OpKind) (l : List LaneReq) : Prop :=
  let g := s.here
  let out := fun (r : LaneReq) => if peer then
      decide (2 ^ 22 ≤ r.va ∨ (s.block g.block).ranks ≤ r.va / 2 ^ 20 % 4 ∨
        (((s.blocks.find (s.peerKey g (r.va / 2 ^ 20 % 4))).map Block.scratchSize).getD (s.block g.block).scratchSize) < r.va % 2 ^ 20 + r.size)
    else decide (2 ^ 20 ≤ r.va ∨ s.carveSize g.carve < r.va + r.size)
  let ok := l.filter (fun r => !out r)
  let h := (l.filter out).foldl (fun g r => g.laneFault r.lane .scratch) g
  let writes := match kind with
    | .scratchStore => true
    | _ => false
  (∀ r ∈ ok, r.va % r.size = 0 ∧ (peer = false → s.lockHit g true writes r.va r.size = false)) →
  ∃ t, exec i s = .next t ∧ SameMemory s t ∧ (∀ n, t.core n = { s.core n with evc := (t.core n).evc }) ∧
    if ok = [] then t = { s with here := passed h [] }
    else
      t = { s with here := { passed h [] with flags := t.here.flags }, cores := t.cores, nextId := s.nextId + 1
                   ops := s.ops ++ [opened s kind 1 f (ok.map (fun r =>
                     { lane := r.lane, addr := r.va % 2 ^ 20, size := r.size, data := r.data, mode := r.mode
                       rank := if peer = true ∧ r.va / 2 ^ 20 % 4 ≠ (s.block g.block).rank then r.va / 2 ^ 20 % 4 else 4 }))] } ∧
      ∀ n, t.here.flag n = counted g f n

/-- The base that a formatted load reads for a lane, and its element index (R263). -/
def fmtBase (g : Gang) (b : BitVec 4) (l : Nat) : Nat := (g.sreg (l / 4) b.toNat).toNat
/-- The element index of a lane. -/
def fmtIndex (g : Gang) (x : BitVec 8) (l : Nat) : Int := (g.vword x.toNat l).toInt

/-- What a formatted load of minor opcode `min` writes for a lane, of its element's record and value and its neighbour's
value (R263): the value as f32, the two values narrowed to bf16, or the record. -/
def fmtWrites (min : Nat) (g : Gang) (l : Nat) (record : Word64) (value : Nat → Sys2Proof.Machine.Num) : Nat :=
  let m := floatMode (g.laneMode l)
  match min with
  | 0 => Fmt.f32.round m.rnd m.ftz (value 0)
  | 1 => narrowTo 1 g.narrow 0 (8 * l) g.seed (value 0) + 2 ^ 16 * narrowTo 1 g.narrow 0 (8 * l + 1) g.seed (value 1)
  | 2 => record.toNat % 2 ^ 32
  | _ => record.toNat / 2 ^ 32 % 2 ^ 9

/-- The value of element `n + j` where `x` holds the two bytes from the first byte of element `n` on (R103, R105). -/
def fmtElement (t : Tag) (x : Nat) (n : Int) (j : Nat) : Sys2Proof.Machine.Num :=
  let w := if t.fmt = 6 then 4 else 8
  let at0 := if t.fmt = 6 ∧ n % 2 = 1 then 4 else 0
  decodeSq (t.fmt == 7) (x / 2 ^ (at0 + w * j) % 2 ^ w) t.record

/-- The accesses of a formatted load of global memory: for each active lane its element and, for LDF2, the next one, each at the
byte that the tag of its own line gives it (R103, R116, R263), which is how the model finds the width of an element (log entry 22). -/
def fmtRequests (s : State) (g : Gang) (min : Nat) (x : BitVec 8) (b : BitVec 4) : List LaneReq :=
  g.active.flatMap (fun l => (if min = 1 then [0, 1] else [0]).map (fun j =>
    ({ lane := l, va := elemByte (fmtBase g b l) (((s.elementTag g (fmtBase g b l) (fmtIndex g x l + j)).map Tag.bits).getD 8) (fmtIndex g x l + j)
       size := 1, mode := g.laneMode l, elem := fmtIndex g x l + j } : LaneReq)))

/-- A formatted load of the gang's own scratchpad is done at once.  One of global memory is served at issue, as relaxed loads of the
gang are, where nothing of the gang is in progress: the copy that serves an element gives its tag, which the precise check judges,
with its data, and the load in progress keeps the word of each lane (R263, R116, R231). -/
def FormattedLoad (i : Instr) (min : Nat) (s : State) (d x : BitVec 8) (b f : BitVec 4) : Prop :=
  let g := s.here
  let base := fmtBase g b
  let n := fmtIndex g x
  (∀ tag : Nat → Tag,
    let start : Nat → Nat := fun l => base l % 2 ^ 20
    let place : Nat → Nat := fun l => (((start l : Int) + n l * ((tag l).bits : Int) / 8) % (2 ^ 64 : Int)).toNat
    let size : Nat → Nat := fun l => if min = 1 ∧ (tag l).fmt ≠ 6 then 2 else 1
    g.active ≠ [] → s.scratchOps g.key = [] → s.wordHeld = false →
    (∀ l ∈ g.active, 2 ^ 63 ≤ base l ∧ base l % 2 ^ 63 < 2 ^ 20 ∧ 64 ≤ start l ∧ start l ≤ s.carveSize g.carve ∧
      s.headerTag g.carve (start l - 64) = some (tag l) ∧ recordOk (tag l).record = true ∧ (min = 1 → n l % 2 = 0) ∧
      place l + size l ≤ s.carveSize g.carve ∧ s.lockHit g true false (place l) (size l) = false ∧
      s.scratchPoisoned g.carve (place l / 4) = false ∧ s.scratchPoisoned g.carve ((place l + size l - 1) / 4) = false ∧
      ∀ k < 6, s.scratchPoisoned g.carve ((start l - 64) / 4 + k) = false) →
    ∃ t, exec i s = .next t ∧ t = { s with here := { passed g [] with v := t.here.v } } ∧
      ∀ c l, l < 64 → t.here.vword c l =
        if c = d.toNat ∧ l ∈ g.active then
          BitVec.ofNat 32 (fmtWrites min g l (tag l).record
            (fmtElement (tag l) ((s.sbyte g.carve (place l)).toNat + 256 * (s.sbyte g.carve (place l + 1)).toNat) (n l)))
        else g.vword c l) ∧
  (∀ (phys : LaneReq → Nat) (tag : Nat → Tag),
    let l := fmtRequests s g min x b
    let u := s.fillAll g l
    let accs := l.map (fun r => ({ lane := r.lane, addr := phys r, size := 1, mode := r.mode, elem := r.elem } : LaneAcc))
    let lines := (accs.map (fun a => a.addr / 64)).eraseDups
    let served := (u.observeLines g g.atsNow lines).1
    let v := (u.observeLines g g.atsNow lines).2
    let value := fun lane (e : Int) => (accs.find? (fun a => a.lane == lane && a.elem == e)).map (fun a =>
      (tag (a.addr / 64)).decode e (lineField ((served.find (a.addr / 64)).map LineData.data |>.getD 0) (a.addr % 64) 1))
    g.active ≠ [] → (∀ l ∈ g.active, base l < 2 ^ 63 ∧ (min = 1 → n l % 2 = 0)) →
    (∀ p ∈ s.ops, p.gang ≠ g.key) → (∀ p ∈ g.parted, p.fence = false) → u.missTableFull g .load .relaxed 0 accs = false → Walked s g l →
    (∀ r ∈ l, (tag (phys r / 64)).bits = ((s.elementTag g (base r.lane) r.elem).map Tag.bits).getD 8 ∧ u.translate g r.va .load = .ok (phys r) ∧ u.lockHit g false false r.va 1 = false) →
    (∀ line ∈ lines, u.hostOwns line = false ∧
      ∃ d, served.find line = some d ∧ d.poison = false ∧ d.tag = some (tag line) ∧ recordOk (tag line).record = true) →
    ∃ t o, exec i s = .next t ∧ SameMemory s t ∧
      t = { v with here := { v.here with flags := t.here.flags, grp := (v.here.advance).grp }, ops := v.ops ++ [o], nextId := v.nextId + 1 } ∧
      (∀ k, t.here.flag k = counted g f k) ∧
      o = { opened u (.load .relaxed (.fmt min) d.toNat) 0 f o.lanes with served := o.served, tags := o.tags, wts := o.wts } ∧
      ∀ a ∈ accs, a.elem = n a.lane → { a with data := fmtWrites min g a.lane (tag (a.addr / 64)).record (fun j =>
        (value a.lane (n a.lane + j)).getD .nan) } ∈ o.lanes) ∧
  (g.active = [] → exec i s = .next { s with here := passed g [] })

/-- The operations of a scalar memory word, one for each participating slice in slice order, of one batch (R267). -/
def sliceOps (u : State) (kind : OpKind) (accs : List LaneAcc) : List MemOp :=
  accs.mapIdx (fun k a => { opened u kind (modeScope (u.here.modeOf a.lane)) 15 [a] with id := u.nextId + k, batch := u.nextId })

/-- The class as which a scalar form fills its lines: acquire for SLDA (R229, R232). -/
def scalarClass : OpKind → LoadClass
  | .load cls _ _ => cls
  | .store _ true => .weak
  | _ => .relaxed

/-- A scalar memory form hands its accesses on wherever each slice's address is a multiple of 8 and translates; the group
waits for all of them.  Loads then only wait, where the gang has nothing else in progress.  Loads and stores wait at issue while the
core's miss table has no room (R219), and all of them while a walk waits for the host (R247). -/
def StartsScalar (i : Instr) (s : State) (access : AccessKind) (kind : OpKind) (addr data cmp : Nat → Word64) : Prop :=
  let g := s.here
  let l := g.members.map (fun sl => ({ lane := sl, va := (addr sl).toNat, size := 8, data := (data sl).toNat
                                       cmp := (cmp sl).toNat, mode := 10 } : LaneReq))
  let u := s.fillAll g l
  (¬ Walked s g l → exec i s = .next s.stall) ∧
  ∀ phys, Walked s g l → (∀ r ∈ l, r.va % 8 = 0 ∧ u.translate g r.va access = .ok (phys r.lane)) →
    let accs := l.map (accessAt phys)
    let w := { u with ops := s.ops ++ sliceOps u kind accs, nextId := s.nextId + accs.length
                      here := { g with grp := { g.grp with wait := .op s.nextId } } }
    let full := u.missTableFull g access (scalarClass kind) g.widestScope accs
    OnlyTlbs s u ∧ SameMemory s w ∧ (access = .atomic → full = false) ∧ (full = true → exec i s = .next u.stall) ∧
    (full = false → exec i s = .next (w.settle g.key) ∧
      (access = .load → (∀ p ∈ s.ops, p.gang ≠ g.key) → exec i s = .next w))

/-- The word stands in a run, and everything that the gang on the pipe has in progress stands at the point P(S) of a scope: its loads and atomics are done,
its stores written, their FIFO entries acknowledged or, at cluster scope, past the cluster cache, and so are the dirty bytes
that it has read (R234, R235, R236, R249). -/
def Quiet (s : State) (scope : Nat) : Prop :=
  let g := s.here
  g.grp.run ≠ none ∧ s.pendingReads g.key = [] ∧ s.unperformed g.key = [] ∧
  (∀ e ∈ (s.core g.core).fifo, g.key ∈ e.gangs → scope ≤ 1 ∨ (scope = 2 ∧ 1 ≤ e.reach)) ∧
  s.awaitsAck g.key = false ∧ (scope < 3 ∨ ∀ o ∈ s.ops, o.gang ≠ g.key)

/-- The state in which a group waits at its word, which notes its place among the gang's operations when it is first tried; a fence
holds back the gang's later accesses (R65, R236). -/
def atWord (s : State) (fence : Bool) : State :=
  let p := s.here.grp
  { s with nextId := s.nextId + (if p.since.isSome then 0 else 1)
           here := { s.here with grp := { p with wait := .stalled, since := some (p.since.getD s.nextId),
                                                  fence := if p.since.isSome then p.fence else fence } } }

/-- A gang whose PTS has risen to `w`, a time at the homes' scale (R229, R231).  Where that is no 32-bit value at the scale of a gang
that still owes rebases, the gang takes them at once (R227; log entry 20). -/
def raised (g : Gang) (w : Nat) : Gang :=
  let owed := 0x80000000 * g.owedRebases
  if w + owed < 2 ^ 32 then { g with pts := max g.pts (w + owed) }
  else { g with pts := max (g.pts - owed) w, ats := g.ats - owed, owedRebases := 0 }

/-- The state after a full fence at a scope of a gang whose accesses have all been performed: ATS is PTS at device and system
scope, the L1's clean copies are dropped at cluster scope, and nothing else changes (R236).  The identifiers taken stand for the
fence's place among the gang's operations. -/
def fenced (s : State) (scope pts : Nat) : State :=
  let g := s.here
  let s := { s with nextId := s.nextId + (if g.grp.marker.isSome then 0 else if g.grp.since.isSome then 1 else 2)
                    here := { passed g [] with pts := pts, ats := if 3 ≤ scope then pts else g.ats } }
  if scope = 2 then s.setCore g.core { s.core g.core with l1 := [] } else s

end Sys2Proof.Claims

/-- R216, R224, R251, R257, R262: the scratchpad and peer-scratchpad forms. -/
def Sys2Proof.Claims.ScratchpadIssue : Prop :=
  ∀ (s : State) (d x : BitVec 8) (b f : BitVec 4),
    let g := s.here
    let loads := requests g x b elementSize (fun _ => 0) (fun _ => 0)
    let stores := requests g x b elementSize (stored g d elementSize) (fun _ => 0)
    (PairReady g true f d x → StartsScratch (.lds d x b f) s f false (.scratchLoad .pair d.toNat) loads ∧
      StartsScratch (.ldp d x b f) s f true (.scratchLoad .pair d.toNat) loads) ∧
    (PairReady g false f d x → StartsScratch (.sts d x b f) s f false .scratchStore stores ∧
      StartsScratch (.stp d x b f) s f true .scratchStore stores)

/-- R263, R117: the formatted loads.  That the width of an element is read from the tag of its own line is the model's choice
(log entry 22). -/
def Sys2Proof.Claims.FormattedLoadForms : Prop :=
  ∀ (s : State) (d x : BitVec 8) (b f : BitVec 4), NarrowReady s.here true f d x →
    FormattedLoad (.ldf d x b f) 0 s d x b f ∧ FormattedLoad (.ldf2 d x b f) 1 s d x b f ∧
    FormattedLoad (.ldfs d x b f) 2 s d x b f ∧ FormattedLoad (.ldfx d x b f) 3 s d x b f

/-- R216, R224, R251, R257, R262: the scratchpad and peer-scratchpad forms. R263, R117: the formatted loads. That the width of an
element is read from the tag of its own line is the model's choice (log entry 22). -/
def Obligations.ScratchpadAndFormattedForms : Prop := Claims.ScratchpadIssue ∧ Claims.FormattedLoadForms

/-- R267, R268: scalar loads, stores and atomics act for every participating slice, whatever EXEC and the guard hold, and
the word completes with its last slice. -/
def Obligations.ScalarMemoryIssue : Prop :=
  ∀ (s : State) (d a b : BitVec 6) (i : BitVec 12) (o : BitVec 2),
    let reg := fun (r : BitVec 6) sl => s.here.sreg sl r.toNat
    let near := fun sl => reg a sl + i.signExtend 64
    let none0 := fun (_ : Nat) => (0 : Word64)
    let atom := fun (i : Instr) op cmp =>
      StartsScalar i s .atomic (.atomic op (o.getLsbD 0) (o.getLsbD 1) (some d.toNat) true) (reg a) (reg b) cmp
    StartsScalar (.sld d a i) s .load (.load .relaxed .scalar d.toNat) near none0 none0 ∧
    StartsScalar (.slda d a i) s .load (.load .acquire .scalar d.toNat) near none0 none0 ∧
    StartsScalar (.sst d a i) s .store (.store false false) near (reg d) none0 ∧
    StartsScalar (.sstl d a i) s .store (.store true false) near (reg d) none0 ∧
    atom (.satomAdd d a b o) .add none0 ∧ atom (.satomMin d a b o) .min none0 ∧ atom (.satomMax d a b o) .max none0 ∧
    atom (.satomXchg d a b o) .xchg none0 ∧ atom (.satomAnd d a b o) .and none0 ∧ atom (.satomOr d a b o) .or none0 ∧
    atom (.satomXor d a b o) .xor none0 ∧ atom (.satomCas d a b o) .cas (reg d) ∧ atom (.satomFadd d a b o) .fadd none0 ∧
    atom (.satomFmin d a b o) .fmin none0 ∧ atom (.satomFmax d a b o) .fmax none0 ∧ atom (.satomInc d a b o) .inc none0 ∧
    atom (.satomMinn d a b o) .minn none0 ∧ atom (.satomMaxn d a b o) .maxn none0

/-- R270 to R272, R274, R275, R236: a fence of a gang whose accesses stand at the point of its scope completes with its clock
step; FENCE.IO is of system scope; FENCE.ENG waits for the gang's engine commands and matrix operations too and raises PTS
to their largest wts.  DRAIN changes no clock.  WBR changes none itself either: it joins the gang to every entry up to the youngest of
its range, so that their acknowledgements raise its PTS (R274 step 3), and waits at its word until they stand at the point of the
scope.  A fence behind a load or an atomic in progress waits at its word.  That a waiting word is tried again is the model's choice
(log entry 19), as is how an acquire fence of device scope leaves clean copies (log entries 53, 72) and that WBR does not wait for
peer stores (log entry 76). -/
def Sys2Proof.Claims.FenceForms : Prop :=
  ∀ (s : State) (sf : BitVec 3) (a b : BitVec 6),
    let g := s.here
    let c := s.core g.core
    (Quiet s sf.toNat → exec (.fence sf) s = .next (fenced s sf.toNat g.pts)) ∧
    (Quiet s 4 → exec .fenceIo s = .next (fenced s 4 g.pts)) ∧
    (Quiet s sf.toNat → (∀ k ∈ c.cmds, ¬ (k.block = g.block ∧ k.gangId = g.gangId)) → (∀ o ∈ c.mq, ¬ (o.block = g.block ∧ o.gangId = g.gangId)) →
      (∀ e ∈ c.fifo, g.key ∈ e.writers → sf.toNat ≤ 1 ∨ (sf.toNat = 2 ∧ 1 ≤ e.reach)) →
      exec (.fenceEng sf) s = .next (fenced { s with here := raised g g.engWts } sf.toNat (raised g g.engWts).pts)) ∧
    (g.grp.run ≠ none → s.unperformed g.key = [] → g.grp.marker = none →
      (∀ e ∈ c.fifo, sf.toNat ≤ 1 ∨ (sf.toNat = 2 ∧ 1 ≤ e.reach)) → (sf.toNat < 3 ∨ ∀ o ∈ s.ops, o.gang ≠ g.key) →
      ∃ t, exec (.drain sf) s = .next t ∧
        t = { s with here := passed g [], nextId := s.nextId + (if g.grp.since.isSome then 1 else 2), cores := t.cores } ∧
        t.core g.core = { c with fifo := c.fifo.map (fun e => { e with closed := true }) } ∧ ∀ n, n ≠ g.core → t.core n = s.core n) ∧
    (g.grp.run ≠ none → g.grp.marker = none →
      let ranges := g.members.flatMap (fun sl => s.rangeLines g (g.sreg sl a.toNat).toNat ((g.sreg sl b.toNat).toNat % 2 ^ 32))
      let hit := c.fifo.filter (fun e => ranges.any (fun r => decide (r.1 ≤ e.line ∧ e.line ≤ r.2)))
      let arrived := fun (e : FifoItem) => sf.toNat ≤ 1 ∨ (sf.toNat = 2 ∧ 1 ≤ e.reach)
      (hit = [] → exec (.wbr sf a b) s = .next { s with here := passed g [] }) ∧
      ∀ last, hit.getLast? = some last → ∃ t, exec (.wbr sf a b) s = .next t ∧
        (∀ n, n ≠ g.core → t.core n = s.core n) ∧
        t.core g.core = { c with fifo := c.fifo.map (fun e =>
          if e.id ≤ last.id then { e with gangs := (e.gangs ++ [g.key]).eraseDups } else e) } ∧
        ((∀ e ∈ c.fifo, e.id ≤ last.id → arrived e) → t = { s with here := passed g [], cores := t.cores }) ∧
        ((∃ e ∈ c.fifo, e.id ≤ last.id ∧ ¬ arrived e) →
          t = { s with here := { g with grp := { g.grp with marker := some (last.id + 1), wait := .stalled } }, cores := t.cores })) ∧
    (∀ m, g.grp.run ≠ none → g.grp.marker = some m →
      let open_ := ∃ e ∈ c.fifo, e.id < m ∧ ¬ (sf.toNat ≤ 1 ∨ (sf.toNat = 2 ∧ 1 ≤ e.reach))
      (¬ open_ → exec (.wbr sf a b) s = .next { s with here := passed g [] }) ∧
      (open_ → exec (.wbr sf a b) s = .next { s with here := { g with grp := { g.grp with wait := .stalled } } })) ∧
    ((∃ o ∈ s.pendingReads g.key, o.id < g.grp.since.getD s.nextId) → g.grp.marker = none →
      exec (.fence sf) s = .next (atWord s true) ∧ exec .fenceIo s = .next (atWord s true) ∧
      exec (.fenceEng sf) s = .next (atWord s true))

/-- R273, R239: PREF and LEASE complete whether or not the address translates, and take no fault; they change no byte and no
register.  PREF of level 0 leaves the line of a slice that translates, but where the host owns it, in the L1 with a lease that reaches
ATS, or leased that far at its home; LEASE sets the lease length of such a line. -/
def Sys2Proof.Claims.HintForms : Prop :=
  ∀ (s : State) (a : BitVec 6) (l : BitVec 2) (n : BitVec 4),
    let g := s.here
    (∃ t, exec (.pref a l) s = .next t ∧ SameMemory s t ∧
      t = { s with here := passed g [], homes := t.homes, clocks := t.clocks, cores := t.cores, clusters := t.clusters
                   dramPoison := t.dramPoison } ∧
      (l = 0 → ∀ sl ∈ g.members, ∀ line, s.hintLine a sl = some line → s.hostOwns line = false →
        (∃ c, (s.core g.core).l1.find line = some c ∧ g.atsNow ≤ c.rts) ∨ g.atsNow ≤ (t.home line).rts)) ∧
    (∃ t, exec (.lease a n) s = .next t ∧ SameMemory s t ∧ t = { s with here := passed g [], homes := t.homes, clocks := t.clocks } ∧
      ∀ sl ∈ g.members, ∀ line, s.hintLine a sl = some line → (t.home line).lease = 2 ^ n.toNat)

/-- R270 to R272, R274, R275, R236: a fence of a gang whose accesses stand at the point of its scope completes with its clock step;
FENCE.IO is of system scope; FENCE.ENG waits for the gang's engine commands and matrix operations too and raises PTS to their
largest wts. DRAIN changes no clock. WBR changes none itself either: it joins the gang to every entry up to the youngest of its
range, so that their acknowledgements raise its PTS (R274 step 3), and waits at its word until they stand at the point of the
scope. A fence behind a load or an atomic in progress waits at its word. That a waiting word is tried again is the model's
choice (log entry 19), as is how an acquire fence of device scope leaves clean copies (log entries 53, 72) and that WBR does not
wait for peer stores (log entry 76). R273, R239: PREF and LEASE complete whether or not the address translates, and take no
fault; they change no byte and no register. PREF of level 0 leaves the line of a slice that translates, but where the host owns
it, in the L1 with a lease that reaches ATS, or leased that far at its home; LEASE sets the lease length of such a line. -/
def Obligations.FenceAndHintForms : Prop := Claims.FenceForms ∧ Claims.HintForms

/-! ## The path of memory operations to their homes (10_consistency.md, 11_memory_instructions.md) -/

namespace Sys2Proof.Claims

/-- The byte that a line holds at an offset. -/
def byteAt (l : Line) (off : Nat) : Byte := BitVec.ofNat 8 (l.toNat / 2 ^ (8 * off) % 256)

/-- `t` is `s` after a store at the home of a line with the carried time `pts` (R228): the bytes under the mask are those of
`data`, every other byte of memory is as before, and the line's timestamps lie past every lease granted. -/
def StoredAtHome (s t : State) (line pts : Nat) (mask : LaneMask) (data : Line) : Prop :=
  (∀ a, t.byte a = if a / 64 = line ∧ mask.getLsbD (a % 64) = true then byteAt data (a % 64) else s.byte a) ∧
  (t.home line).wts = max ((s.home line).rts + 1) pts ∧ (t.home line).rts = (t.home line).wts ∧
  (t.home line).lease = (if pts ≤ (s.home line).rts then max ((s.home line).lease / 2) 8 else (s.home line).lease) ∧
  ∀ n, n ≠ line → t.homes.find n = s.homes.find n

/-- The gang on the pipe issued the operation, and is still there. -/
def MineHere (s : State) (o : MemOp) : Prop := o.core = s.here.core ∧ o.slot = s.here.slot ∧ s.here.ended = false

/-- Memory after the lanes of an atomic have acted in lane order, and the old value that each lane found (R265). -/
def actInOrder (op : AtomOp) (lanes : List LaneAcc) (mem : Nat → Byte) : (Nat → Byte) × List (Nat × Nat) :=
  lanes.foldl (fun acc a =>
    let old := ofBytes ((List.range a.size).map (fun i => acc.1 (a.addr + i)))
    let new := op.applyLane a old
    (fun x => if a.addr ≤ x ∧ x < a.addr + a.size then BitVec.ofNat 8 (new / 2 ^ (8 * (x - a.addr))) else acc.1 x,
      acc.2 ++ [(a.lane, old)])) (mem, [])

/-- A load of the line by the gang has raised its PTS, and the floor of its later loads of the line (R231, R238). -/
def loaded (g : Gang) (line wts : Nat) : Gang :=
  { raised g wts with floors := Table.set 0 g.floors line (max (Table.get 0 g.floors line) wts) }

/-- The gang on the pipe stands in a slot of a core. -/
def InSlot (g : Gang) : Prop := g.slot < 64 ∧ g.ended = false

end Sys2Proof.Claims

/-- R229, R228, R219, R238: an entry of the dirty-line FIFO leaves its core, but not ahead of an older release store to its line, which
goes by itself; its bytes land at their home, by HOME_STORE or
WRITE_BACK, with the timestamps of home_store, after the other bytes of the line have been filled where that still waited for the host
(R247); each step that cannot be taken yet changes nothing. -/
def Sys2Proof.Claims.StoreReachesHome : Prop :=
  ∀ (s : State) (core id : Nat) (e : FifoItem),
    ((s.core core).fifo.find? (fun e => e.reach == 0 && !e.direct) = some e →
      (∀ x ∈ (s.core core).fifo, x.direct = true → x.reach = 0 → x.line = e.line → e.id ≤ x.id) →
      ∃ t, exec (.fifoEntryDrain core) s = .next t ∧ t = { s with cores := t.cores, nextId := s.nextId + 1 } ∧
        (∀ n, n ≠ core → t.core n = s.core n) ∧
        t.core core = { s.core core with fifo := (s.core core).fifo.map (fun x =>
          if x.id = e.id then { e with reach := 1, passed := s.nextId, poison := e.poison || e.bad } else x) }) ∧
    ((s.core core).fifo.find? (fun e => e.reach == 0 && !e.direct) = some e →
      (∃ x ∈ (s.core core).fifo, x.direct = true ∧ x.reach = 0 ∧ x.line = e.line ∧ x.id < e.id) →
      exec (.fifoEntryDrain core) s = .next s) ∧
    (s.item core id = some e → e.reach = 1 → (s.home e.line).host ≠ .owned → s.behindOther core e = false →
      ∃ t u, exec (.homeStore core id) s = .next t ∧ exec (.writeBack core id) s = .next t ∧
        SameMemory s u ∧ OnlyFills core s u ∧ (e.unfilled = none → u = s) ∧
        StoredAtHome u t e.line e.pts e.mask e.data ∧ t.here = s.here ∧ t.gangs = s.gangs ∧ t.ops = s.ops ∧ t.blocks = s.blocks ∧
        t.watches = s.watches.filter (fun w => w.line != e.line) ∧
        (t.core core).fifo = (s.core core).fifo.map (fun x => if x.id = e.id then
          { e with reach := 2, unfilled := none, wts := (t.home e.line).wts, snapshot := t.lineBytes e.line, tag := (t.home e.line).tag
                   poison := (t.home e.line).poison } else x)) ∧
    (s.item core id = some e → e.reach ≠ 1 → exec (.homeStore core id) s = .next s ∧ exec (.writeBack core id) s = .next s)

/-- R229, R230, R233, R238, R260: the acknowledgement of an entry that the gang on the pipe alone wrote raises its PTS to the wts, and
its later loads of the line use only copies as new; the line stays as a clean copy in the L1 (the model's choice, log entry 15), and
older copies and fills of its cluster give way to it (log entry 50).  A release store sends its lines with PTS + 1 once all that stands ahead of its marker is
acknowledged. -/
def Sys2Proof.Claims.StoreIsAcknowledged : Prop :=
  ∀ (s : State) (core id : Nat) (e : FifoItem) (o : MemOp),
    (s.item core id = some e → e.reach = 2 → (s.home e.line).host = .invalid → InSlot s.here → e.gangs = [s.here.key] →
      e.readers = [] → e.writers = [] → e.engines = [] → e.ops = [] → e.launches = [] → e.stale = false →
      ∃ t, exec (.storeAcknowledge core id) s = .next t ∧
        t = { s with here := loaded s.here e.line e.wts, cores := t.cores, clusters := t.clusters
                     work := s.work.map (DeviceWork.covers core e)
                     ops := s.ops.map (fun p =>
                       if p.core / 4 = core / 4 ∧ (∃ d, p.fills.find e.line = some d ∧ d.wts < e.wts) then
                         { p with fills := p.fills.erase e.line } else p) } ∧
        (∀ n, n ≠ core → t.core n = s.core n) ∧ (∀ n, n ≠ core / 4 → t.cluster n = s.cluster n) ∧
        (∀ c, (t.cluster (core / 4)).copies.find e.line = some c → e.wts ≤ c.wts) ∧
        t.core core = { s.core core with fifo := (s.core core).fifo.filter (fun x => x.id != id), l1 := (t.core core).l1 } ∧
        (∃ c, (t.core core).l1.find e.line = some c ∧ e.wts ≤ c.wts) ∧ SameMemory s t) ∧
    (∀ m, s.opAt id = some o → o.marker = some m → s.aheadDone o.gang o.scope m = true → MineHere s o →
      ∃ t, exec (.releaseSend id) s = .next t ∧ t = { s with cores := t.cores } ∧ (∀ n, n ≠ o.core → t.core n = s.core n) ∧
        t.core o.core = { s.core o.core with fifo := (s.core o.core).fifo.map (fun (x : FifoItem) =>
          if id ∈ x.ops ∧ x.direct = true ∧ x.reach = 0 then { x with reach := 1, pts := s.here.ptsNow + 1, poison := x.bad } else x) })

/-- R229, R228, R219, R238: an entry of the dirty-line FIFO leaves its core, but not ahead of an older release store to its line,
which goes by itself; its bytes land at their home, by HOME_STORE or WRITE_BACK, with the timestamps of home_store, after the
other bytes of the line have been filled where that still waited for the host (R247); each step that cannot be taken yet changes
nothing. R229, R230, R233, R238, R260: the acknowledgement of an entry that the gang on the pipe alone wrote raises its PTS to
the wts, and its later loads of the line use only copies as new; the line stays as a clean copy in the L1 (the model's choice,
log entry 15), and older copies and fills of its cluster give way to it (log entry 50). A release store sends its lines with PTS
+ 1 once all that stands ahead of its marker is acknowledged. -/
def Obligations.StoresReachHome : Prop := Claims.StoreReachesHome ∧ Claims.StoreIsAcknowledged

/-- R231, R233, R239: a load that no copy serves asks the home, which extends the lease past the required time and sends the line; for a
weak load it only sends the line.  The load's registers do not change yet.  R241: a line that leaves its home leaves its lease in MTS, and one that comes back
starts from MTS with L = 16. -/
def Obligations.HomeGrantsAndEvicts : Prop :=
  ∀ (s : State) (id line : Nat) (o : MemOp) (cls : LoadClass) (form : LoadForm) (dest : Nat) (h : HomeLine),
    (s.opAt id = some o → o.kind = .load cls form dest → line ∈ o.lines → regionOf (64 * line) ≠ .peer → o.served.find line = none →
      s.held o = false → s.lineWaits o line = false → (s.home line).host ≠ .owned → s.copyFor o cls line = none →
      ∃ t, exec (.homeLeaseGrant id line) s = .next t ∧ SameMemory s t ∧ t.here = s.here ∧ t.gangs = s.gangs ∧
        (cls = .weak → t.home line = s.home line) ∧
        (cls ≠ .weak → ∃ given, t.home line = { s.home line with
            rts := max (s.home line).rts (max (s.loadTime o cls) (s.home line).wts + given)
            lease := (t.home line).lease, written := false } ∧
          (s.rebasing = true → given = 8 ∧ (t.home line).lease = (s.home line).lease) ∧ (s.rebasing = false → given = (t.home line).lease)) ∧
        ((t.home line).lease = (s.home line).lease ∨ (t.home line).lease = min (2 * (s.home line).lease) 4096) ∧
        (∀ n, n ≠ line → t.homes.find n = s.homes.find n) ∧
        t.ops = s.ops.map (fun p => if p.id = o.id then { o with fills := o.fills.insert line (t.homeCopy line) } else p)) ∧
    (s.homes.find line = some h → h.host = .invalid → ∃ t, exec (.homeEvict line) s = .next t ∧ SameMemory s t ∧
      t = { s with homes := s.homes.erase line, mts := t.mts, dramPoison := t.dramPoison } ∧
      (∀ k, Table.get 0 t.mts k = if k = s.clockOf line then max (Table.get 0 s.mts k) h.rts else Table.get 0 s.mts k) ∧
      (h.poison = true → line ∈ t.dramPoison)) ∧
    (s.homes.find line = none → ∃ t, exec (.dramRefill line) s = .next t ∧ SameMemory s t ∧
      t = { s with homes := t.homes, clocks := t.clocks, dramPoison := s.dramPoison.filter (fun x => x != line) } ∧
      ∃ h, t.homes.find line = some h ∧ h.wts = Table.get 0 s.mts (s.clockOf line) ∧ h.rts = h.wts ∧ h.lease = 16 ∧
        h.tag = s.formTag line)

/-- R231, R234, R235, R238, R255, R260: a relaxed load of bytes or halfwords, zero- or sign-extended, of the gang on the pipe is served
a line by a copy of the L1 whose lease reaches ATS, under the dirty bytes of the core and those that passed the cluster cache on their way
home, where they are newer than the copy; how the bytes on their way home are ordered is the model's choice (log entry 50).  The lanes
that the step names get their bytes, PTS and the floor of the line rise to the copy's wts, and no other register changes. -/
def Obligations.LoadIsServed : Prop :=
  ∀ (s : State) (id line : Nat) (lo hi : LaneMask) (o : MemOp) (sign : Bool) (dest : Nat) (c : Copy),
    s.opAt id = some o → o.kind = .load .relaxed (if sign then .sext else .zext) dest → MineHere s o → line ∈ o.lines →
    o.served.find line = none → regionOf (64 * line) ≠ .peer → s.held o = false → s.lineWaits o line = false → o.doneLo = 0 →
    (o.lanes.map LaneAcc.lane).Nodup → (∀ a ∈ o.lanes, a.lane < 64 ∧ a.size ≤ 2) →
    (s.core o.core).l1.find line = some c → s.here.atsNow ≤ c.rts → Table.get 0 s.here.floors line ≤ c.wts → c.poison = false →
    s.seenPoison o.core line c.wts = false →
    ∃ t, exec (.lineFill id line lo hi) s = .next t ∧ SameMemory s t ∧
      t.here = { loaded s.here line c.wts with
                   v := t.here.v, flags := t.here.flags, grp := t.here.grp, parted := t.here.parted } ∧
      (∀ k l, l < 64 → (k ≠ dest ∨ ¬ ∃ a ∈ o.lanes, a.lane = l ∧ a.addr / 64 = line ∧ lo.getLsbD l = true) →
        t.here.vword k l = s.here.vword k l) ∧
      let seen := overlay (overlay c.data (s.passingItems o.core line c.wts)) (s.dirtyItems o.core line c.wts)
      ∀ a ∈ o.lanes, a.addr / 64 = line → lo.getLsbD a.lane = true →
        let x := seen.toNat / 2 ^ (8 * (a.addr % 64)) % 2 ^ (8 * a.size)
        t.here.vword dest a.lane =
          BitVec.ofNat 32 (if sign ∧ 2 ^ (8 * a.size) ≤ 2 * x then x + 2 ^ 32 - 2 ^ (8 * a.size) else x)

/-- R237, R265, R266: an atomic is applied to a line at its home in one step, its lanes there in lane order: each takes op(old,
operand) of the value that the lanes before it left, the home is timestamped as by one store with t = PTS, and the old values are kept.
The acknowledgement raises PTS, writes the old value to
Vd of the lane or to Sd of the slice, and keeps the gang's later loads of the line from older copies. -/
def Sys2Proof.Claims.AtomicAtHome : Prop :=
  ∀ (s : State) (id line : Nat) (o : MemOp) (op : AtomOp) (acq rel scalar : Bool) (dest : Option Nat) (a : LaneAcc) (d : LineData),
    s.opAt id = some o → o.kind = .atomic op acq rel dest scalar → MineHere s o → regionOf (64 * line) ≠ .peer →
    (line ∈ o.lines → o.applied.find line = none → (s.home line).host ≠ .owned → s.atomReady o acq rel line = true →
      (s.home line).poison = false →
      let lanes := o.lanes.filter (fun x => decide (x.addr / 64 = line))
      (∀ x ∈ lanes, (x.size = 4 ∨ x.size = 8) ∧ x.addr % x.size = 0) → (lanes.map LaneAcc.lane).Nodup →
      let acted := actInOrder op lanes s.byte
      ∃ t, exec (.homeAtomic id line) s = .next t ∧ t.here = s.here ∧ t.gangs = s.gangs ∧
        (∀ x, t.byte x = acted.1 x) ∧
        (t.home line).wts = max ((s.home line).rts + 1) s.here.ptsNow ∧ (t.home line).rts = (t.home line).wts ∧
        (∀ n, n ≠ line → t.homes.find n = s.homes.find n) ∧
        ∃ p, t.opAt id = some p ∧ (∀ e ∈ acted.2, p.olds.find e.1 = some e.2) ∧ p.applied.find line = some (t.homeCopy line)) ∧
    (o.lanes = [a] → a.addr / 64 = line → (a.size = 4 ∨ a.size = 8) → o.applied.find line = some d → o.acked = [] → (s.home line).host = .invalid → a.lane < 64 →
      ∃ t, exec (.atomicAcknowledge id line) s = .next t ∧ SameMemory s t ∧
        t.here.pts = (raised s.here d.wts).pts ∧ t.here.ats = (if acq then t.here.pts else (raised s.here d.wts).ats) ∧
        d.wts ≤ Table.get 0 t.here.floors line ∧ t.here.m = s.here.m ∧ t.here.mode = s.here.mode ∧ t.here.scc = s.here.scc ∧
        (∀ v r, o.olds.find a.lane = some v → dest = some r → scalar = true → r ≠ 0 → r < 64 →
          t.here.sreg a.lane r = BitVec.ofNat 64 v ∧ t.here.v = s.here.v) ∧
        (∀ v r, o.olds.find a.lane = some v → dest = some r → scalar = false →
          t.here.operand (a.size == 8) r a.lane = v % 2 ^ (8 * a.size) ∧ t.here.s = s.here.s) ∧
        (dest = none → t.here.v = s.here.v ∧ t.here.s = s.here.s))

/-- R264, R268: what each operation makes of the value v at the home and the operand x, over 32 or 64 bits; `c` is the compare
value of CAS.  A floating operation rounds to nearest even with FTZ off; FMIN and FMAX order as VMIN and VMAX do (R134). -/
def Sys2Proof.Claims.AtomicOperations : Prop :=
  ∀ (signed : Bool) (v x c : Nat) (size : Nat), (size = 4 ∨ size = 8) → v < 2 ^ (8 * size) → x < 2 ^ (8 * size) →
    let w := 8 * size
    let f : Fmt := if size = 8 then .f64 else .f32
    let r := fun (op : AtomOp) => op.apply size signed v x c
    let int := fun (y : Nat) => if signed ∧ 2 ^ (w - 1) ≤ y then (y : Int) - 2 ^ w else (y : Int)
    r .add = (v + x) % 2 ^ w ∧ r .and = v &&& x ∧ r .or = v ||| x ∧ r .xor = v ^^^ x ∧ r .xchg = x ∧
    r .cas = (if v = c then x else v) ∧ r .inc = (if x ≤ v then 0 else v + 1) ∧
    int (r .min) = min (int v) (int x) ∧ int (r .max) = max (int v) (int x) ∧ r .minn = min v x ∧ r .maxn = max v x ∧
    r .fmin = lesserFloat false f false v x ∧ r .fmax = lesserFloat true f false v x ∧
    r .fadd = f.round .rne false ((f.decode v).add .rne (f.decode x))

/-- R237, R265, R266: an atomic is applied to a line at its home in one step, its lanes there in lane order: each takes op(old,
operand) of the value that the lanes before it left, the home is timestamped as by one store with t = PTS, and the old values
are kept. The acknowledgement raises PTS, writes the old value to Vd of the lane or to Sd of the slice, and keeps the gang's
later loads of the line from older copies. R264, R268: what each operation makes of the value v at the home and the operand x,
over 32 or 64 bits; `c` is the compare value of CAS. A floating operation rounds to nearest even with FTZ off; FMIN and FMAX
order as VMIN and VMAX do (R134). -/
def Obligations.AtomicsAtHome : Prop := Claims.AtomicAtHome ∧ Claims.AtomicOperations

/-- R242, R243: a rebase lowers every timestamp by 2^31, clamped at 0, where it stands in homes, clocks and host clock; the
gangs owe the same and take it at their next run boundary; every watch fires and gated cores run again.  It starts only once a clock has passed
0xC000_0000; that one step lowers them all and the same step again ends it is the model's choice (log entry 20). -/
def Sys2Proof.Claims.RebaseLowersTimestamps : Prop :=
  ∀ (s : State),
    (s.rebasing = true → exec .rebase s = .next { s with rebasing := false }) ∧
    (s.rebasing = false → (∀ e ∈ s.clocks, e.2 ≤ 0xC0000000) → exec .rebase s = .next s) ∧
    (s.rebasing = false → (∃ e ∈ s.clocks, 0xC0000000 < e.2) → ∃ t, exec .rebase s = .next t ∧ SameMemory s t ∧
      t.rebasing = true ∧ t.hts = s.hts - 0x80000000 ∧ t.watches = [] ∧
      (∀ line h, s.homes.find line = some h → t.homes.find line =
        some { h with wts := h.wts - 0x80000000, rts := h.rts - 0x80000000, hostRts := h.hostRts - 0x80000000 }) ∧
      (∀ n, (t.core n).gated = false) ∧
      ((s.clocks.map Prod.fst).Nodup → ∀ k, Table.get 0 t.clocks k = Table.get 0 s.clocks k - 0x80000000) ∧
      t.here.owedRebases = s.here.owedRebases + 1 ∧ t.here.ptsNow = s.here.pts - 0x80000000 * (s.here.owedRebases + 1) ∧
      t.here.v = s.here.v ∧ t.here.s = s.here.s ∧ t.here.m = s.here.m ∧ t.here.pts = s.here.pts)

/-- R336, R245: a watch's arrival on its way is counted once at its object, unless the block has ended.  R358: a page
walk brings in translations and nothing else.  R221, R398: an instruction fetch that translates brings one line, with its poison,
into the core's instruction cache, once the host does not own it (R247).  Both wait for tables that the host owns.  R384: a frame sent again changes nothing.  R346: the answer of an active message ends it
with Sd and SCC.  R218, R251: a scratchpad word of the gang reaches its bank and completes. -/
def Sys2Proof.Claims.MemoryUnitEvents : Prop :=
  ∀ (s : State) (core slot tenant va block offset op status pa : Nat) (w : WatchArrival) (o : MemOp) (a : LaneAcc)
      (g : Gang) (lo hi : LaneMask),
    (s.arrivals.find? (fun x => x.block == block && x.offset == offset) = some w → s.carveEnded (carveAt block) = true →
      exec (.watchArrival block offset) s = .next { s with arrivals := s.arrivals.erase w }) ∧
    (s.arrivals.find? (fun x => x.block == block && x.offset == offset) = some w → s.carveEnded (carveAt block) = false →
      ∃ t, exec (.watchArrival block offset) s = .next t ∧ t.arrivals = s.arrivals.erase w ∧ t.here = s.here ∧ SameMemory s t ∧
        t.phaseTs (carveAt block) offset = max (s.phaseTs (carveAt block) offset) w.wts ∧
        t.barrier (carveAt block) offset = ((s.barrier (carveAt block) offset).arrive 1).test) ∧
    (s.walkHeld tenant va = true → exec (.pageWalk core tenant va) s = .next s) ∧
    (s.walkHeld tenant va = false → ∃ t, exec (.pageWalk core tenant va) s = .next t ∧ OnlyTlbs s t ∧ SameMemory s t ∧
      ∀ l, s.walk tenant va = .ok l → ((t.core core).tlb.find (tlbKey tenant va)).isSome = true) ∧
    (s.gang core slot = some g → s.walkWaits g va = true → exec (.instructionFetch core slot va) s = .next s) ∧
    (s.gang core slot = some g → s.walkWaits g va = false → (s.fillFor g va).translate g va .fetch = .ok pa →
      (s.hostOwns (pa / 64) = false → regionOf pa ≠ .peer →
        ∃ t, exec (.instructionFetch core slot va) s = .next t ∧ t.here = s.here ∧ t.gangs = s.gangs ∧ SameMemory s t ∧
          (t.core core).icache = (s.core core).icache.insert (pa / 64) (s.lineBytes (pa / 64)) ∧
          (pa / 64 ∈ (t.core core).icachePoison ↔ (s.home (pa / 64)).poison = true)) ∧
      (s.hostOwns (pa / 64) = true → regionOf pa ≠ .peer → exec (.instructionFetch core slot va) s = .next (s.fillFor g va))) ∧
    exec (.fabricResend op) s = .next s ∧
    (∀ m payload sd, s.opAt op = some o → o.kind = .message m payload sd → MineHere s o → s.here.grp.wait = .op o.batch → o.batch ≠ 0 →
      sd ≠ 0 → sd < 64 → s.here.grp.run ≠ none → (∀ p ∈ s.ops, p.id ≠ o.id → p.gang ≠ o.gang) →
      ∃ t, exec (.activeMessageAnswer op status) s = .next t ∧ SameMemory s t ∧
        (∀ sl ∈ s.here.members, t.here.sreg sl sd = BitVec.ofNat 64 (min status 4) ∧ t.here.sccOf sl = decide (status = 0)) ∧
        t.here.grp.wait ≠ .op o.batch ∧ t.ops = s.ops.filter (fun p => p.id != o.id)) ∧
    (∀ dest, s.opAt op = some o → o.kind = .scratchLoad .pair dest → MineHere s o → o.lanes = [a] → a.size = 4 → a.rank = 4 → a.lane < 64 →
      o.doneLo = 0 → s.held o = false → s.scratchEarlier o a false = false → s.scratchPoisoned s.here.carve (a.addr / 4) = false → lo.getLsbD a.lane = true →
      ∃ t, exec (.peerScratchpadAccess op lo hi) s = .next t ∧ SameMemory s t ∧
        t.here.vword dest a.lane = BitVec.ofNat 32 (s.sread s.here.carve (4 * (a.addr / 4)) 4) ∧
        (∀ c l, l < 64 → (c ≠ dest ∨ l ≠ a.lane) → t.here.vword c l = s.here.vword c l) ∧
        ((∀ p ∈ s.ops, p.id ≠ o.id → p.gang ≠ o.gang) → t.ops = s.ops.filter (fun p => p.id != o.id))) ∧
    (s.opAt op = some o → o.kind = .scratchStore → MineHere s o → o.lanes = [a] → a.size = 4 → a.rank = 4 → a.lane < 64 →
      o.doneLo = 0 → s.held o = false → s.scratchEarlier o a false = false → lo.getLsbD a.lane = true →
      ∃ t, exec (.peerScratchpadAccess op lo hi) s = .next t ∧ SameMemory s t ∧
        ((∀ p ∈ s.ops, p.id ≠ o.id → p.gang ≠ o.gang) → t.ops = s.ops.filter (fun p => p.id != o.id)) ∧
        ∀ x, t.sbyte s.here.carve x =
          if a.addr / 4 = x / 4 then BitVec.ofNat 8 (a.data / 2 ^ (8 * (x % 4))) else s.sbyte s.here.carve x)

/-- R242, R243: a rebase lowers every timestamp by 2^31, clamped at 0, where it stands in homes, clocks and host clock; the gangs
owe the same and take it at their next run boundary; every watch fires and gated cores run again. It starts only once a clock
has passed 0xC000_0000; that one step lowers them all and the same step again ends it is the model's choice (log entry 20).
R336, R245: a watch's arrival on its way is counted once at its object, unless the block has ended. R358: a page walk brings in
translations and nothing else. R221, R398: an instruction fetch that translates brings one line, with its poison, into the
core's instruction cache, once the host does not own it (R247). Both wait for tables that the host owns. R384: a frame sent
again changes nothing. R346: the answer of an active message ends it with Sd and SCC. R218, R251: a scratchpad word of the gang
reaches its bank and completes. -/
def Obligations.RebaseAndMemoryUnits : Prop := Claims.RebaseLowersTimestamps ∧ Claims.MemoryUnitEvents

/-! ## Control, state registers (13_control_sync.md, 03_state.md) -/

namespace Sys2Proof.Claims

/-- The word on the pipe is the last of its run (R62). -/
def LastWord (g : Gang) : Prop := ∃ r, g.grp.run = some r ∧ r.idx + 1 = r.len

/-- The word transfers control: each participating slice goes on at the run start that `next` gives for it, slices with one
address in one group, the group of the lowest slice first, and the other groups of the gang as before (R34). -/
def Transfers (g h : Gang) (next : Nat → Word64) : Prop :=
  ∃ first rest, h.grp = first ∧ h.parted = g.parted ++ rest ∧
    (∀ sl, g.members.head? = some sl → first.slices.getLsbD sl = true) ∧
    (∀ p ∈ first :: rest, p.run = none ∧ p.wait = .ready ∧ p.slices ≠ 0 ∧
      ∀ sl < 16, p.slices.getLsbD sl = true ↔ (sl ∈ g.members ∧ next sl = p.pc)) ∧
    ∀ sl ∈ g.members, ∃ p ∈ first :: rest, p.slices.getLsbD sl = true

/-- The conditions of BR over a slice (R322): `e` are the EXEC bits of its lanes, `k` those that the guard selects besides. -/
def branchTaken (cond : Nat) (scc : Bool) (e k : List Bool) : Bool :=
  match cond with
  | 0 => true
  | 1 => scc
  | 2 => !scc
  | 3 => e.all (! ·)
  | 4 => e.any id
  | 5 => e.all id
  | 6 => k.all (! ·)
  | _ => k.any id

/-- The value of a register that SRD reads in every participating slice. -/
def Reads (s : State) (i : Nat) (v : Nat → Word64) : Prop := ∀ d, WritesScalar (.srd d (BitVec.ofNat 12 i)) s d v

end Sys2Proof.Claims

/-- R65, R64, R316, R321: with every flag of WAIT at zero a header opens its run: the T registers of the group's lanes are
unwritten and read zero, and the run's first word follows in the same issue slot.  While a flag is not at zero the group waits at the header, and nothing else changes. -/
def Sys2Proof.Claims.HeaderOpensRun : Prop :=
  ∀ (s : State) (l : BitVec 5) (w : BitVec 12) (p : BitVec 1),
    ((∀ n < 12, w.getLsbD n = true → s.here.flag n = 0) → ∃ t, exec (.hdr l w p) s = .next t ∧ SameMemory s t ∧
      t = { s with here := { s.here with v := t.here.v, grp := { s.here.grp with run := some ⟨l.toNat, 0⟩, tw := 0, wait := .ready, bound := true } } } ∧
      ∀ c k, k < 64 → t.here.vword c k = if 248 ≤ c ∧ k / 4 ∈ s.here.members then 0 else s.here.vword c k) ∧
    ((∃ n < 12, w.getLsbD n = true ∧ s.here.flag n ≠ 0) →
      exec (.hdr l w p) s = .next { s with here := { s.here with grp := { s.here.grp with wait := .stalled } } })

/-- R322 to R327, R34, R59, R62: the transfers of control.  Each ends its run, and raises RUNFORM anywhere else but at the last
word; BR.NEVER is a hint and may stand anywhere. -/
def Sys2Proof.Claims.ControlTransfers : Prop :=
  ∀ (s : State) (c : BitVec 4) (d : BitVec 22) (a : BitVec 6),
    let g := s.here
    let target := g.wordPc + d.signExtend 64 * 4
    let after := g.wordPc + 4
    let lanes := fun sl => (List.range 4).map (4 * sl + ·)
    let taken := fun sl => branchTaken c.toNat (g.sccOf sl) ((lanes sl).map (fun l => (g.mask 0).getLsbD l))
      ((lanes sl).map (fun l => (g.mask 0).getLsbD l && g.guardSelects l))
    let goes := fun (i : Instr) (link : Bool) (next : Nat → Word64) =>
      ∃ t, exec i s = .next t ∧ SameMemory s t ∧ t = { s with here := { g with grp := t.here.grp, parted := t.here.parted, s := t.here.s } } ∧
        Transfers g t.here next ∧
        ∀ sl r, r < 64 → t.here.sreg sl r = if link ∧ sl ∈ g.members ∧ r = 63 then after else g.sreg sl r
    let targets := fun (r : BitVec 6) sl => g.sreg sl r.toNat
    (exec (.brNever d) s = .next { s with here := passed g [] }) ∧
    (LastWord g → g.members ≠ [] →
      (c.toNat < 8 → goes (.br c d) false (fun sl => if taken sl then target else after)) ∧ goes (.call d) true (fun _ => target) ∧
      ((∀ sl ∈ g.members, (targets a sl).toNat % 4 = 0) → goes (.jmp a) false (targets a) ∧ goes (.callr a) true (targets a)) ∧
      ((∀ sl ∈ g.members, (targets 63 sl).toNat % 4 = 0) → goes .ret false (targets 63)) ∧
      (∀ sl, g.members.find? (fun sl => (targets a sl).toNat % 4 != 0) = some sl →
        exec (.jmp a) s = .next (s.precise .misalign (targets a sl).toNat) ∧
        exec (.callr a) s = .next (s.precise .misalign (targets a sl).toNat))) ∧
    (LastWord g → exec .yield s = .next { s with here := passed g [] }) ∧
    (¬ LastWord g → Faults (.br c d) s .runform ∧ Faults (.call d) s .runform ∧ Faults (.jmp a) s .runform ∧
      Faults (.callr a) s .runform ∧ Faults .ret s .runform ∧ Faults .yield s .runform ∧ Faults .exit s .runform ∧
      Faults (.regang a) s .runform)

/-- R65, R64, R316, R321: with every flag of WAIT at zero a header opens its run: the T registers of the group's lanes are unwritten
and read zero, and the run's first word follows in the same issue slot. While a flag is not at zero the group waits at the
header, and nothing else changes. R322 to R327, R34, R59, R62: the transfers of control. Each ends its run, and raises RUNFORM
anywhere else but at the last word; BR.NEVER is a hint and may stand anywhere. -/
def Obligations.RunsAndControlTransfers : Prop := Claims.HeaderOpensRun ∧ Claims.ControlTransfers

/-- R33, R36, R325, R326: EXIT marks the slices of the group exited, and the last group leaves none behind; where the one
other group waits at REGANG, its wait ends with REJOIN.  REGANG of a gang
that is not parted passes at once; of two groups at one address with one id it forms one group again; while another group is
elsewhere it waits, and where it waits at another REGANG word or with another id, the gang faults with UNIFORM at the word of its
lowest slice.  A wait that ends takes the rebases owed (R242) and its WAKEWHY bits (R334). -/
def Obligations.ExitAndRegang : Prop :=
  ∀ (s : State) (d : BitVec 6) (p : Group),
    let g := s.here
    LastWord g →
    (g.parted = [] → ∃ t, exec .exit s = .next t ∧ SameMemory s t ∧
      t = { s with launches := t.launches, here := { g with exited := g.exited ||| g.grp.slices
                                                            grp := { g.grp.goTo g.grp.pc with slices := 0 } } }) ∧
    (g.parted = [p] → p.slices ≠ 0 → (∀ id, p.wait ≠ .regang id) → ∃ t, exec .exit s = .next t ∧ SameMemory s t ∧
      t = { s with launches := t.launches, here := { g with exited := g.exited ||| g.grp.slices, grp := p, parted := [] } }) ∧
    (∀ id, g.parted = [p] → p.slices ≠ 0 → p.wait = .regang id → g.halted = false → ∃ t, exec .exit s = .next t ∧ SameMemory s t ∧
      t = { s with launches := t.launches, here := { g with
        exited := g.exited ||| g.grp.slices, grp := { slices := p.slices, pc := g.groupPc p + 4 }, parted := []
        pts := g.ptsNow, ats := g.atsNow, owedRebases := 0, wakewhy := g.wakewhy ||| BitVec.ofNat 64 (16 ||| p.why) } }) ∧
    (g.parted = [] → g.grp.slices ≠ 0 → g.ended = false → exec (.regang d) s = .next { s with here := { g with
      grp := { slices := g.grp.slices, pc := g.wordPc + 4 }, pts := g.ptsNow, ats := g.atsNow, owedRebases := 0
      wakewhy := g.wakewhy ||| BitVec.ofNat 64 g.grp.why } }) ∧
    (g.parted = [p] → g.grp.slices ≠ 0 → p.slices ≠ 0 → g.ended = false → g.halted = false → p.wait = .regang d.toNat → g.groupPc p = g.wordPc →
      exec (.regang d) s = .next { s with here := { g with
        grp := { slices := g.grp.slices ||| p.slices, pc := g.wordPc + 4 }, parted := []
        pts := g.ptsNow, ats := g.atsNow, owedRebases := 0
        wakewhy := g.wakewhy ||| BitVec.ofNat 64 (16 ||| (g.grp.why ||| p.why)) } }) ∧
    (∀ id low, g.parted = [p] → g.grp.slices ≠ 0 → p.slices ≠ 0 → g.ended = false → g.halted = false → p.wait = .regang id →
      (id ≠ d.toNat ∨ g.groupPc p ≠ g.wordPc) → low < 16 → (g.grp.slices ||| p.slices).getLsbD low = true →
      (∀ k < low, (g.grp.slices ||| p.slices).getLsbD k = false) →
      let w : Group := { g.grp with wait := .regang d.toNat }
      let h : Gang := if p.slices.getLsbD low then { g with grp := p, parted := [w] } else { g with grp := w }
      exec (.regang d) s = .next (({ s with here := h } : State).precise .uniform)) ∧
    (g.parted = [p] → p.slices ≠ 0 → p.wait = .ready → g.ended = false →
      exec (.regang d) s = .next { s with here := { g with grp := { g.grp with wait := .regang d.toNat } } })

/-- R27, R74, R124, R199, R353, R354: what SRD reads of each register, in every slice: of the privileged ones in the supervisor
gang, PSTAT with BUSY while a save or restore is in progress, and CORETEN with the tenant of the core's blocks. -/
def Sys2Proof.Claims.RegisterReads : Prop :=
  ∀ (s : State) (k : Nat), k < 16 →
    let g := s.here
    let b := s.block g.block
    Reads s 0x000 (fun sl => (g.modeOf sl).zeroExtend 64) ∧ Reads s 0x001 (fun _ => g.narrow) ∧ Reads s 0x002 (fun _ => 64) ∧
    Reads s 0x003 (fun sl => BitVec.ofNat 64 sl) ∧ Reads s 0x004 (fun _ => BitVec.ofNat 64 g.gangId) ∧
    Reads s 0x005 (fun _ => BitVec.ofNat 64 b.linear) ∧ Reads s 0x006 (fun _ => BitVec.ofNat 64 (g.core / 4)) ∧
    Reads s 0x007 (fun _ => BitVec.ofNat 64 g.core) ∧ Reads s 0x008 (fun _ => BitVec.ofNat 64 g.role) ∧
    Reads s 0x009 (fun _ => BitVec.ofNat 64 g.pts) ∧ Reads s 0x00A (fun _ => BitVec.ofNat 64 g.ats) ∧
    Reads s 0x00B (fun _ => g.lfault) ∧ Reads s 0x00C (fun _ => g.lcause) ∧ Reads s 0x00D (fun _ => g.seed) ∧
    Reads s 0x00E (fun _ => g.wakewhy) ∧
    Reads s 0x00F (fun _ => BitVec.ofNat 64 (s.cycle % 65536 + s.cycle / 65536 % 2 ^ 48 * 65536)) ∧
    Reads s 0x010 (fun _ => BitVec.ofNat 64 (16 + 1024 * 2 ^ 16 + 1024 * 2 ^ 32 + 6 * 2 ^ 48)) ∧ Reads s 0x011 (fun _ => g.layer) ∧
    Reads s 0x012 (fun _ => BitVec.ofNat 64 (s.mirrorReg g)) ∧
    (k < 8 → Reads s (0x020 + k) (fun _ => Table.get 0 b.cwp k)) ∧ Reads s (0x030 + k) (fun _ => Table.get 0 (s.core g.core).evc k) ∧
    ∀ i, g.isSupervisor = true → 0x800 ≤ i → Machine.regListed i = true → Reads s i (fun _ =>
      if i = 0xE01 then s.privReg i ||| (if s.preempt.isSome then 1 else 0)
      else if i = 0xE02 then
        match (s.blocks.filter (fun e => decide (e.2.core = g.core ∧ e.2.ended = false))).head? with
        | none => 0
        | some e => BitVec.ofNat 64 (e.2.tenant + 16)
      else s.privReg i)

/-- R81, R124, R73, R196, R353, R354: SWR writes MODE of each slice from that slice's Sa, and every other register once, from a
uniform Sa; SXCH first hands back the old value.  A read-only or unlisted register raises ILLEGAL, as does a value that the register
does not take; a Sa that is not uniform raises UNIFORM, and the privileged set raises PRIV for a gang that is not the
supervisor's, behind ILLEGAL for such a value, which is the model's choice (log entry 46).  A fault writes nothing. -/
def Sys2Proof.Claims.RegisterWrites : Prop :=
  ∀ (s : State) (d a : BitVec 6) (i : BitVec 12) (k : Nat), s.here.grp.marker = none →
    let g := s.here
    let x := fun sl => g.sreg sl a.toNat
    let v := g.uniformS a.toNat
    let uniform := ∀ sl ∈ g.members, x sl = v
    let ro := i.toNat ∈ [2, 3, 4, 5, 6, 7, 8, 9, 10, 12, 15, 16, 18, 0x20, 0x21, 0x22, 0x23, 0x24, 0x25, 0x26, 0x27, 0xE01, 0xE02]
    let writes := fun (n : Nat) (h : Gang) =>
      exec (.swr a (BitVec.ofNat 12 n)) s = .next { s with here := { h with grp := (passed g []).grp } } ∧
      ∃ t, exec (.sxch d a (BitVec.ofNat 12 n)) s = .next t ∧ t = { s with here := { h with grp := (passed g []).grp, s := t.here.s } } ∧
        ∀ sl r, r < 64 → t.here.sreg sl r = if sl ∈ g.members ∧ r = d.toNat ∧ r ≠ 0 then s.readReg g sl n else g.sreg sl r
    ((∀ sl ∈ g.members, (x sl).toNat < 2 ^ 18 ∧ (x sl).toNat % 16 ≤ 13 ∧ (x sl).toNat / 2 ^ 8 % 8 ≤ 4 ∧ (x sl).toNat / 2 ^ 12 % 8 ≤ 4) →
      ∃ t, exec (.swr a 0) s = .next t ∧ t = { s with here := { passed g [] with mode := t.here.mode } } ∧
        ∀ sl, t.here.modeOf sl = if sl ∈ g.members then (x sl).truncate 32 else g.modeOf sl) ∧
    (uniform → g.members ≠ [] →
      (narrowOk v = true → writes 1 { g with narrow := v }) ∧ writes 11 { g with lfault := v } ∧ writes 13 { g with seed := v } ∧
      (v.toNat < 2 ^ 12 → writes 14 { g with wakewhy := v }) ∧
      (v.toNat < 2 ^ 33 → (2 ^ 32 ≤ v.toNat → v.toNat / 2 ^ 24 % 2 ^ 8 ≠ 0) → writes 17 { g with layer := v }) ∧
      (k < 16 → v.toNat < 2 ^ 57 → v.toNat / 2 ^ 48 % 256 ≤ 16 →
        ∃ t, exec (.swr a (BitVec.ofNat 12 (0x30 + k))) s = .next t ∧ t = { s with here := passed g [], cores := t.cores } ∧
          (∀ n, n ≠ g.core → t.core n = s.core n) ∧ t.core g.core = { s.core g.core with evc := (t.core g.core).evc, evcSet := k :: (s.core g.core).evcSet } ∧
          ∀ n, Table.get 0 (t.core g.core).evc n = if n = k then v else Table.get 0 (s.core g.core).evc n)) ∧
    (ro ∨ Machine.regListed i.toNat = false → Faults (.swr a i) s .illegal ∧ Faults (.sxch d a i) s .illegal) ∧
    (Machine.regListed i.toNat = false → Faults (.srd d i) s .illegal) ∧
    (Machine.regListed i.toNat = true → 0x800 ≤ i.toNat → g.isSupervisor = false →
      Faults (.srd d i) s .priv ∧ (i.toNat ≠ 0xE01 → i.toNat ≠ 0xE02 → (∀ sl ∈ g.members, s.writeOk i.toNat (x sl).toNat = true) →
        Faults (.swr a i) s .priv ∧ Faults (.sxch d a i) s .priv)) ∧
    ((∃ sl ∈ g.members, s.writeOk i.toNat (x sl).toNat = false) → Faults (.swr a i) s .illegal ∧ Faults (.sxch d a i) s .illegal) ∧
    (¬ uniform → i.toNat = 11 ∨ i.toNat = 13 → Faults (.swr a i) s .uniform ∧ Faults (.sxch d a i) s .uniform)

/-- R27, R74, R124, R199, R353, R354: what SRD reads of each register, in every slice: of the privileged ones in the supervisor
gang, PSTAT with BUSY while a save or restore is in progress, and CORETEN with the tenant of the core's blocks. R81, R124, R73,
R196, R353, R354: SWR writes MODE of each slice from that slice's Sa, and every other register once, from a uniform Sa; SXCH
first hands back the old value. A read-only or unlisted register raises ILLEGAL, as does a value that the register does not
take; a Sa that is not uniform raises UNIFORM, and the privileged set raises PRIV for a gang that is not the supervisor's,
behind ILLEGAL for such a value, which is the model's choice (log entry 46). A fault writes nothing. -/
def Obligations.RegisterReadsAndWrites : Prop := Claims.RegisterReads ∧ Claims.RegisterWrites

/-- The values that a privileged register without a side effect takes, by its place among a tenant's registers (R354). -/
def Sys2Proof.Claims.plainTakes (n x : Nat) : Prop :=
  match n with
  | 2 | 3 | 4 | 5 => True
  | 6 => x / 2 ^ 3 % 2 = 0 ∧ x / 2 ^ 7 % 2 = 0 ∧ x / 2 ^ 11 % 2 = 0 ∧ x < 2 ^ 15
  | 9 => x < 2 ^ 11 ∧ x % 2 ^ 5 + x / 2 ^ 5 ≤ 32
  | 0xA => x % 2 ^ 6 = 0 ∧ x < 2 ^ 49
  | 0xB => x < 2 ^ 32
  | 0xC => x = 0 ∨ (4 ≤ x % 2 ^ 4 ∧ x / 2 ^ 4 % 2 ^ 8 = 0 ∧ x < 2 ^ 52)
  | 0xE => x % 2 ^ 22 = 0 ∧ x < 2 ^ 52
  | 0xF => (x % 2 ^ 4 = 0 ∨ (4 ≤ x % 2 ^ 4 ∧ x % 2 ^ 4 ≤ 12)) ∧ x / 2 ^ 4 % 2 ^ 8 = 0 ∧ x < 2 ^ 49
  | _ => x % 2 ^ 12 = 0 ∧ x < 2 ^ 49

/-- R354, R363: SWR and SXCH of the supervisor gang write CMASK, QPRIO, WSPART, RINGBASE, RINGSIZE, FLOGBASE, CTXBASE, MSGBASE, HTBASE
and ARTAB of a tenant with no other effect; a write to PREEMPT starts a save or a restore, and for a save notes the set of blocks.  A
value that is not taken raises ILLEGAL.  Of a register with a side effect SWR does what its event does. -/
def Sys2Proof.Claims.SupervisorWrites : Prop :=
  ∀ (s : State) (a d : BitVec 6) (t n w r : Nat), t < 16 → w < 16 → r < 4 →
    let g := s.here
    let x := g.uniformS a.toNat
    let reg := fun k => 0x800 + 0x40 * t + k
    let swr := fun i => Instr.swr a (BitVec.ofNat 12 i)
    let sxch := fun i => Instr.sxch d a (BitVec.ofNat 12 i)
    let put := fun (u : State) i => ∀ k, u.privReg k = if k = i then x else s.privReg k
    let old := fun (u : State) i => ∀ sl q, q < 64 → u.here.sreg sl q =
      if sl ∈ g.members ∧ q = d.toNat ∧ q ≠ 0 then s.privReg i else g.sreg sl q
    g.isSupervisor = true → g.grp.marker = none → g.members ≠ [] → (∀ sl ∈ g.members, g.sreg sl a.toNat = x) →
    (n ∈ [2, 3, 4, 5, 6, 9, 0xA, 0xB, 0xC, 0xE, 0xF, 0x10, 0x11] →
      (plainTakes n x.toNat → (∃ u, exec (swr (reg n)) s = .next u ∧ put u (reg n) ∧ u = { s with here := passed g [], priv := u.priv }) ∧
        ∃ u, exec (sxch (reg n)) s = .next u ∧ put u (reg n) ∧ old u (reg n) ∧
          u = { s with here := { passed g [] with s := u.here.s }, priv := u.priv }) ∧
      (¬ plainTakes n x.toNat → Faults (swr (reg n)) s .illegal ∧ Faults (sxch (reg n)) s .illegal)) ∧
    (let takes := x.toNat < 2 ^ 16 ∧ x.toNat / 2 ^ 5 % 2 ^ 3 = 0 ∧ s.preempt = none
     (takes → ∃ u p, exec (swr 0xE00) s = .next u ∧ put u 0xE00 ∧ u = { s with here := passed g [], priv := u.priv, preempt := some p } ∧
        p.tenant = x.toNat % 2 ^ 4 ∧ p.core = x.toNat / 2 ^ 8 ∧ p.restore = x.getLsbD 4 ∧ p.since = s.cycle ∧
        ∀ k, k ∈ p.blocks ↔ ∃ b c e, (k, b) ∈ s.blocks ∧ b.ended = false ∧ (c, e) ∈ s.blocks ∧ e.ended = false ∧
          e.tenant = p.tenant ∧ e.core = p.core ∧ e.launch = b.launch ∧ e.job = b.job ∧ e.linear - e.rank ≤ b.linear) ∧
     (¬ takes → Faults (swr 0xE00) s .illegal ∧ Faults (sxch 0xE00) s .illegal)) ∧
    (s.coresRun = true →
      let same := fun (event : Instr) (i y : Nat) => x.toNat = y → s.writeOk i y = true → s.resumeWaits i y = false →
        ∀ u, exec event s = .next u → exec (swr i) s = .next { u with here := passed g [] }
      same (.tctlOff t) (reg 1) 0 ∧ same (.tctlRun t) (reg 1) 1 ∧ same (.tctlSuspend t) (reg 1) 2 ∧ same (.tctlTeardown t) (reg 1) 3 ∧
      same (.umbraRegionWrite t false x.toNat) (reg 7) x.toNat ∧ same (.umbraRegionWrite t true x.toNat) (reg 8) x.toNat ∧
      same (.flogptrWrite t x.toNat) (reg 0xD) x.toNat ∧ same (.formatWindowWrite w r x.toNat) (0xC00 + 4 * w + r) x.toNat ∧
      (s.writeOk (reg 0) x.toNat = true → ∀ u, exec (.trootWrite t x.toNat) s = .next u →
        (u.tenantDone t u.nextId = true → exec (swr (reg 0)) s = .next { u with here := passed g [], nextId := u.nextId + 1 }) ∧
        (u.tenantDone t u.nextId = false → exec (swr (reg 0)) s =
          .next { u with here := { g with grp := { g.grp with marker := some u.nextId, wait := .stalled } }, nextId := u.nextId + 1 })))

/-- R353, R354, R355, R114: the supervisor gang's writes to privileged registers that have a side effect, each a row of its own (log
entry 57), where the cores run; a value that the register does not take raises ILLEGAL.  That a write of RUN or SUSPENDED wakes a module
that is IDLE follows R413, for SUSPENDED by the model's choice (log entry 40). -/
def Sys2Proof.Claims.PrivilegedWrites : Prop :=
  ∀ (s : State) (t v w r : Nat), t < 16 → w < 16 → r < 4 → s.here.isSupervisor = true → s.coresRun = true →
    let reg := fun n => 0x800 + 0x40 * t + n
    let set := fun (u : State) (n x : Nat) => u = { s with priv := u.priv } ∧
      ∀ k, u.privReg k = if k = n then BitVec.ofNat 64 x else s.privReg k
    let state := (s.privReg (reg 1)).toNat % 4
    let active := fun (u : State) => u.mgmt = (if s.mgmt.power = .idle then { s.mgmt with power := .active, refresh := false } else s.mgmt)
    (state = 0 → ∃ u, exec (.tctlOff t) s = .next u ∧ set u (reg 1) 0) ∧
    (state ≠ 3 → s.ringStopped.contains t = false → ∃ u, exec (.tctlRun t) s = .next u ∧ active u ∧
      set { u with mgmt := s.mgmt } (reg 1) 1) ∧
    (state ≠ 3 → ∃ u, exec (.tctlSuspend t) s = .next u ∧ active u ∧ set { u with mgmt := s.mgmt } (reg 1) 2) ∧
    (∃ u, exec (.tctlTeardown t) s = .next u ∧ set u (reg 1) 3) ∧
    (state ≠ 0 → Faults (.tctlOff t) s .illegal) ∧ (state = 3 → Faults (.tctlRun t) s .illegal ∧ Faults (.tctlSuspend t) s .illegal) ∧
    (v % 2 ^ 13 = 0 → v < 2 ^ 52 → ∃ u, exec (.trootWrite t v) s = .next u ∧
      set { u with cores := s.cores, clusters := s.clusters } (reg 0) v ∧
      ∀ n k, k / 2 ^ 40 = t → (u.core n).tlb.find k = none ∧ (u.cluster n).tlb.find k = none) ∧
    (v % 2 ^ 16 = 0 → v < 2 ^ 52 → ∃ u, exec (.umbraRegionWrite t false v) s = .next u ∧
      set { u with umbra := s.umbra } (reg 7) v ∧ u.umbra = s.umbra.filter (fun e => e.tenant != t)) ∧
    (v < 2 ^ 32 → ∃ u, exec (.umbraRegionWrite t true v) s = .next u ∧
      set { u with umbra := s.umbra } (reg 8) v ∧ u.umbra = s.umbra.filter (fun e => e.tenant != t)) ∧
    (let old := (s.privReg (reg 0xD)).toNat
     ∃ u, exec (.flogptrWrite t v) s = .next u ∧ set u (reg 0xD)
      (old % 2 ^ 24 + v / 2 ^ 24 % 2 ^ 24 * 2 ^ 24 + (if v / 2 ^ 48 % 2 ^ 16 = 0 then 0 else old / 2 ^ 48 % 2 ^ 16 * 2 ^ 48))) ∧
    (s.windowOk w r v = true → ∃ u, exec (.formatWindowWrite w r v) s = .next u ∧ set u (0xC00 + 4 * w + r) v) ∧
    (s.windowOk w r v = false → Faults (.formatWindowWrite w r v) s .illegal)

/-! ## Barrier objects, waits, watches and the pool (13_control_sync.md) -/

namespace Sys2Proof.Claims

/-- The register holds the value `v` in every participating slice (R38). -/
def Same (g : Gang) (a : BitVec 6) (v : Nat) : Prop :=
  (∀ sl ∈ g.members, (g.sreg sl a.toNat).toNat = v) ∧ (g.uniformS a.toNat).toNat = v

/-- Sa is a barrier operand that names offset `off` of the carve-out `key`: the gang's own, or, with PEER, that of the block of the
cluster with some rank (R328). -/
def Operand (s : State) (a : BitVec 6) (off key : Nat) (peer : Bool) : Prop :=
  let g := s.here
  ∃ rank, Same g a (off + if peer then 2 ^ 22 + 2 ^ 20 * rank else 0) ∧ off % 16 = 0 ∧ off < 2 ^ 20 ∧ rank < 4 ∧ rank < (s.block g.block).ranks ∧
    if peer then g.isSupervisor = false ∧ key = s.peerKey g rank else rank = 0 ∧ key = g.carveKey

/-- Sa names the object at `off` of the carve-out `key`, which lies whole within it and holds no poison; its block has not ended; the
gang has no scratchpad access in progress, and no acquire or fence of it is pending (R232, R320, R328). -/
def ObjectAt (s : State) (a : BitVec 6) (off key : Nat) (peer : Bool) : Prop :=
  Operand s a off key peer ∧ off + 16 ≤ s.carveSize (carveAt key) ∧ s.carveEnded (carveAt key) = false ∧
    s.objectPoisoned key off 16 = false ∧ s.scratchOps s.here.key = [] ∧ s.wordHeld = false ∧ (peer = true → s.peerBusy s.here.key = false)

/-- Sa names an object of a peer whose block has ended (R328). -/
def ObjectGone (s : State) (a : BitVec 6) (off key : Nat) : Prop := Operand s a off key true ∧ s.carveEnded (carveAt key) = true

/-- LCAUSE after a form has met an ended peer's object: BARGONE, and one lane event (R328, R395). -/
def goneCause (g : Gang) : Word64 := laneEvent g.lcause .peergone ||| 0x20000#64

/-- A wait of the group on the pipe ends because the peer block has ended: SCC is 1 and the wait status OK, nothing is acquired, and
WAKEWHY takes PEEREND (R328, R334). -/
def GoneEnded (g h : Gang) : Prop :=
  h = { passed g [] with
    grp := { (passed g []).grp with why := 0 }, pts := g.ptsNow, ats := g.atsNow, owedRebases := 0
    scc := h.scc, lcause := goneCause g &&& ~~~(0x180000#64), wakewhy := g.wakewhy ||| BitVec.ofNat 64 (2048 ||| g.grp.why) } ∧
  ∀ sl < 16, h.sccOf sl = (g.sccOf sl || decide (sl ∈ g.members))

/-- MODE.SCOPE is `sc` in every participating slice (R38, R331). -/
def ScopeIs (g : Gang) (sc : Nat) : Prop := (∀ sl ∈ g.members, modeScope (g.modeOf sl) = sc) ∧ modeScope g.firstMode = sc

/-- Nothing stands ahead of a release of the gang on the pipe: its accesses are done, no acquire or fence of it is pending,
the dirty-line FIFO is empty, and nothing is unacknowledged (R230). -/
def NothingAhead (s : State) : Prop :=
  let g := s.here
  g.grp.run ≠ none ∧ g.grp.marker = none ∧ (∀ o ∈ s.ops, o.gang ≠ g.key) ∧ s.wordHeld = false ∧
    (s.core g.core).fifo = [] ∧ s.awaitsAck g.key = false

/-- Of cores, blocks and their scratchpads only the 16 bytes of one object change, with its phase timestamp and the note of
what completed its phase, and the mark of staged tiles that it meets; an update, unlike a plain write, ungates the object's core
(R318, R175). -/
def TouchesObject (s t : State) (c : Carve) (off : Nat) (update : Bool) : Prop :=
  let gated := fun n => if update ∧ n = s.carveCore c then false else (s.core n).gated
  t = { s with here := t.here, cores := t.cores, blocks := t.blocks, nextId := t.nextId } ∧
  (∀ n, t.block n = { s.block n with scratch := (t.block n).scratch, phaseTs := (t.block n).phaseTs, reason := (t.block n).reason }) ∧
  (∀ n, t.core n = { s.core n with
    supScratch := (t.core n).supScratch, phaseTs := (t.core n).phaseTs, reason := (t.core n).reason, rowBuffer := (t.core n).rowBuffer
    gated := gated n }) ∧
  (∀ n, n ≠ s.carveCore c → (t.core n).rowBuffer = (s.core n).rowBuffer) ∧
  ∀ c' x, (c' ≠ c ∨ x < off ∨ off + 16 ≤ x) → t.sbyte c' x = s.sbyte c' x

/-- Phase `p` is reached where PHASE holds `now` (R329). -/
def Reached (now p : Nat) : Prop := (now + 2 ^ 32 - p) % 2 ^ 32 < 2 ^ 31

/-- The gang `h` after a wait of the group on the pipe of `g` has ended on a completed phase: the rebases owed are taken, the
clocks acquire the phase's timestamp, SCC is 1, the wait status of LCAUSE is OK, WAKEWHY takes what ended the wait, and the
group is past its word (R242, R245, R331, R334). -/
def WaitEnded (g h : Gang) (ts why : Nat) : Prop :=
  h = { passed g [] with
    grp := { (passed g []).grp with why := 0 }, pts := max g.ptsNow ts, ats := max g.ptsNow ts, owedRebases := 0
    scc := h.scc, lcause := g.lcause &&& ~~~(0x180000#64), wakewhy := g.wakewhy ||| BitVec.ofNat 64 why } ∧
  ∀ sl < 16, h.sccOf sl = (g.sccOf sl || decide (sl ∈ g.members))

/-- A wait of the group on the pipe ends, and nothing else changes but that its core runs, without clean copies in its L1 after
an acquire at cluster scope. -/
def EndsWait (s t : State) (ts scope why : Nat) : Prop :=
  let g := s.here
  t = { s with cores := t.cores, here := t.here } ∧ WaitEnded g t.here ts why ∧ (∀ n, n ≠ g.core → t.core n = s.core n) ∧
  t.core g.core = { s.core g.core with gated := false, l1 := if scope = 2 then [] else (s.core g.core).l1 }

/-- The group on the pipe waits at its word, and its registers, clocks and SCC are as before. -/
def StillWaits (s t : State) (w : Wait) : Prop :=
  t.here.grp.wait = w ∧ t.here.grp.pc = s.here.grp.pc ∧ t.here.grp.run = s.here.grp.run ∧ t.here.s = s.here.s ∧
    t.here.scc = s.here.scc ∧ t.here.pts = s.here.pts ∧ t.here.ats = s.here.ats

/-- Sa and Sb name a line that can be watched and an object of the gang's own carve-out (R335). -/
def WatchAt (s u : State) (a b : BitVec 6) (va pa off : Nat) : Prop :=
  let g := s.here
  Same g a va ∧ Same g b off ∧ va % 64 = 0 ∧ off % 16 = 0 ∧ off < 2 ^ 20 ∧ off + 16 ≤ s.carveSize (carveAt g.carveKey) ∧
    s.carveEnded (carveAt g.carveKey) = false ∧ s.objectPoisoned g.carveKey off 16 = false ∧ s.wordHeld = false ∧ 1 ≤ (s.block g.block).ranks ∧
    s.walkWaits g va = false ∧ u = s.fillFor g va ∧ u.translate g va .load = .ok pa

end Sys2Proof.Claims

/-- R280, R281, R328, R330, R331, R245: BARINIT, BAREXP and BARARR on an object of the gang's own carve-out or of a peer's.  The
completion test follows each count: where both expectations are met the phase rises by 1, the arrivals start again from 0, and the bytes
landed fall by those expected.  An update ungates the object's core (R318).  On an object of an ended peer each completes with no effect
but LCAUSE.BARGONE and a lane event.  A misaligned offset raises MISALIGN, a reserved bit or a rank that is not there SHAPE. -/
def Obligations.BarrierUpdates : Prop :=
  (∀ (s : State) (a b : BitVec 6) (off key v sc : Nat), ObjectGone s a off key →
    let gone := fun i => exec i s = .next { s with here := { passed s.here [] with lcause := goneCause s.here } }
    (Same s.here b v → v < 2 ^ 48 → gone (.barinit a b) ∧ gone (.barexp a b)) ∧ (ScopeIs s.here sc → gone (.bararr a))) ∧
  (∀ (s : State) (a b : BitVec 6) (v w sc : Nat), Same s.here a v → Same s.here b w → ScopeIs s.here sc →
    let all := fun (t : State) => exec (.barinit a b) s = .next t ∧ exec (.barexp a b) s = .next t ∧ exec (.bararr a) s = .next t
    (v % 16 ≠ 0 → all (s.precise .misalign (v % 2 ^ 20))) ∧
    (v % 16 = 0 → (2 ^ 23 ≤ v ∨ (v / 2 ^ 22 = 0 ∧ v / 2 ^ 20 ≠ 0) ∨ (s.block s.here.block).ranks ≤ v / 2 ^ 20 % 4) → all (s.precise .shape))) ∧
  ∀ (s : State) (a b : BitVec 6) (off key v sc : Nat) (peer : Bool), ObjectAt s a off key peer →
    let g := s.here
    let c := carveAt key
    let o := s.barrier c off
    let test := fun (x : Barrier) => if x.arriveExpect ≤ x.arrived ∧ x.bytesExpect ≤ x.bytesLanded then
      { x with phase := (x.phase + 1) % 2 ^ 32, arrived := 0, bytesLanded := x.bytesLanded - x.bytesExpect } else x
    let becomes := fun (i : Instr) (update : Bool) (x : Barrier) (ts : Nat) => ∃ t, exec i s = .next t ∧ SameMemory s t ∧
      TouchesObject s t c off update ∧
      t.here = passed g [] ∧ t.barrier c off = x ∧ t.phaseTs c off = ts
    (Same g b v → v < 2 ^ 48 →
      becomes (.barinit a b) false ⟨0, v / 2 ^ 32 % 2 ^ 16, 0, v % 2 ^ 32, 0⟩ g.ptsNow ∧
      becomes (.barexp a b) true (test { o with arriveExpect := v / 2 ^ 32 % 2 ^ 16, bytesExpect := v % 2 ^ 32 }) (s.phaseTs c off)) ∧
    (ScopeIs g sc → NothingAhead s →
      becomes (.bararr a) true (test { o with arrived := min 65535 (o.arrived + g.members.length) }) (max (s.phaseTs c off) g.ptsNow))

/-- R328, R329, R330, R331, R333, R334, R245: BARTRY and BARWAIT of a phase that is reached acquire its timestamp, at cluster scope or
wider for a peer's object; BARTRY of one that is not answers 0, or 2 in an abandoned block; BARWAIT then waits, until BARWAIT_WAKE finds
the phase reached.  Without its N bit BARWAIT first arrives as BARARR does.  Once the peer block has ended both report the phase as
reached and acquire nothing.  Which WAKEWHY bits the note of a completed phase gives is the model's choice (log entry 18). -/
def Obligations.BarrierWaits : Prop :=
  ∀ (s : State) (d a b : BitVec 6) (off key p mode slice : Nat) (peer : Bool), ScopeIs s.here mode → s.awaitsAck s.here.key = false →
      InSlot s.here →
    let g := s.here
    let c := carveAt key
    let sc := if peer then max 2 mode else mode
    let now := (s.barrier c off).phase
    let ts := s.phaseTs c off
    let o := s.barrier c off
    let arrived := { o with arrived := min 65535 (o.arrived + g.members.length) }
    let next := if arrived.arriveExpect ≤ arrived.arrived ∧ arrived.bytesExpect ≤ arrived.bytesLanded then
      { arrived with phase := (arrived.phase + 1) % 2 ^ 32, arrived := 0, bytesLanded := arrived.bytesLanded - arrived.bytesExpect }
      else arrived
    (ObjectGone s a off key → Same g b p → p < 2 ^ 32 →
      (∃ t, exec (.bartry d a b) s = .next t ∧
        t = { s with here := { passed g [] with s := t.here.s, scc := t.here.scc, lcause := goneCause g &&& ~~~(0x180000#64) } } ∧
        (∀ sl r, r < 64 → t.here.sreg sl r = if sl ∈ g.members ∧ r = d.toNat ∧ r ≠ 0 then 1 else g.sreg sl r) ∧
        ∀ sl < 16, t.here.sccOf sl = (g.sccOf sl || decide (sl ∈ g.members))) ∧
      (LastWord g → ∀ n, ∃ t, exec (.barwait n a b) s = .next t ∧ t = { s with here := t.here } ∧ GoneEnded g t.here)) ∧
    (g.grp.wait = .barwait key off p sc → s.carveEnded c = true → g.halted = false → slice ∈ g.members → LastWord g →
      ∃ t, exec (.barwaitWake g.core g.slot slice) s = .next t ∧ t = { s with cores := t.cores, here := t.here } ∧ GoneEnded g t.here) ∧
    (ObjectAt s a off key peer → Same g b p → p < 2 ^ 32 →
      (Reached now p → ∃ t, exec (.bartry d a b) s = .next t ∧
        (∀ sl r, r < 64 → t.here.sreg sl r = if sl ∈ g.members ∧ r = d.toNat ∧ r ≠ 0 then 1 else g.sreg sl r) ∧
        (∀ sl < 16, t.here.sccOf sl = (g.sccOf sl || decide (sl ∈ g.members))) ∧
        t = { s with cores := t.cores, here := { passed g [] with
          s := t.here.s, scc := t.here.scc, pts := (raised g ts).pts, ats := (raised g ts).pts, owedRebases := (raised g ts).owedRebases } } ∧
        (∀ n, n ≠ g.core → t.core n = s.core n) ∧ t.core g.core = { s.core g.core with l1 := if sc = 2 then [] else (s.core g.core).l1 }) ∧
      (¬ Reached now p →
        WritesScalarScc (.bartry d a b) s d (fun _ => if (s.block g.block).abandoned ∧ g.isSupervisor = false then 2 else 0) (fun _ => false)) ∧
      (LastWord g → g.members ≠ [] → g.halted = false → (s.core g.core).gated = false →
        (Reached now p → ∃ t, exec (.barwait 1 a b) s = .next t ∧ EndsWait s t ts sc (s.reason c off)) ∧
        (¬ Reached now p → (s.block g.block).abandoned = false → ∃ t, exec (.barwait 1 a b) s = .next t ∧ SameMemory s t ∧
          StillWaits s t (.barwait key off p sc)) ∧
        (NothingAhead s → ∃ t, exec (.barwait 0 a b) s = .next t ∧ SameMemory s t ∧ t.barrier c off = next ∧
          t.phaseTs c off = max ts g.ptsNow ∧ (Reached next.phase p → WaitEnded g t.here (max ts g.ptsNow) (t.reason c off)) ∧
          (¬ Reached next.phase p → (s.block g.block).abandoned = false → StillWaits s t (.barwait key off p sc))))) ∧
    (g.grp.wait = .barwait key off p sc → s.carveEnded c = false → g.halted = false → slice ∈ g.members → p < 2 ^ 32 → LastWord g →
      (Reached now p → ∃ t, exec (.barwaitWake g.core g.slot slice) s = .next t ∧ EndsWait s t ts sc (s.reason c off ||| g.grp.why)) ∧
      (¬ Reached now p → (s.block g.block).abandoned = false → exec (.barwaitWake g.core g.slot slice) s = .next s))

/-- R332, R45, R47: BARARR.GRID counts the slices of the group once in the present grid phase, and the last arrival of the grid
completes the phase; BARWAIT.GRID of a phased kernel stops the group at the boundary of its phase, and of any other kernel it
arrives and waits, unless its arrival completes the phase; a wait for a phase that the grid has completed ends. -/
def Obligations.GridBarrier : Prop :=
  ∀ (s : State) (l : Launch) (desc : Descriptor) (slice n sc : Nat),
    let g := s.here
    let b := s.block g.block
    s.launches.find b.launch = some l → l.desc = some desc → desc.gridbar = true → b.job = none → g.isSupervisor = false →
    NothingAhead s → ScopeIs g sc →
    let key := 16 * b.linear + g.gangId
    let counted := { l with gridPts := max l.gridPts g.ptsNow
                            gridSlices := Table.set 0 l.gridSlices key (Table.get 0 l.gridSlices key ||| g.grp.slices.toNat) }
    let full := ({ s with launches := s.launches.insert b.launch counted }).gridFull b.launch
    let after := if full then { counted with gridPhase := l.gridPhase + 1, gridSlices := [], gridTs := counted.gridPts, gridPts := 0 }
      else counted
    let counts := fun (t : State) => t.launches = s.launches.insert b.launch after
    let running := l.stage = .running ∧ l.blocks ≠ 0 ∧ g.grp.slices ≠ 0 ∧ g.ended = false ∧ desc.phased = false
    (running → ∃ t, exec .bararrGrid s = .next t ∧ SameMemory s t ∧ counts t ∧
      t = { s with here := passed g [], cores := t.cores, launches := t.launches, nextId := t.nextId }) ∧
    (LastWord g → running → InSlot g → g.halted = false → ∃ t, exec .barwaitGrid s = .next t ∧ SameMemory s t ∧ counts t ∧
      (full = true → WaitEnded g t.here (max l.gridPts g.ptsNow) 64) ∧ (full = false → StillWaits s t (.grid (l.gridPhase + 1)))) ∧
    (desc.phased = true → Faults .bararrGrid s .illegal) ∧
    (LastWord g → desc.phased = true → ∃ t, exec .barwaitGrid s = .next t ∧ SameMemory s t ∧
      t = { s with cores := t.cores, nextId := t.nextId, here := { g with grp := { g.grp.fresh with wait := .grid (l.phase + 1), why := 0 } } }) ∧
    (LastWord g → g.grp.wait = .grid n → desc.phased = false → n ≤ l.gridPhase → g.halted = false → slice ∈ g.members → InSlot g →
      ∃ t, exec (.barwaitWake g.core g.slot slice) s = .next t ∧ EndsWait s t l.gridTs 3 (64 ||| g.grp.why)) ∧
    (LastWord g → g.grp.wait = .grid n → l.gridPhase < n → slice ∈ g.members → exec (.barwaitWake g.core g.slot slice) s = .next s)

/-- R335, R336, R337, R245: WATCH arms the line at its home, answers the line's wts and raises PTS to it; UNWATCH disarms it and
tells in SCC whether the entry stood; a line of host memory or of another device cannot be watched.  R318: a core's issue clock
runs again. -/
def Obligations.WatchForms : Prop :=
  ∀ (s u : State) (d a b : BitVec 6) (va pa off n : Nat),
    let g := s.here
    let w : Watch := ⟨pa / 64, g.carveKey, off⟩
    let core := s.core n
    (WatchAt s u a b va pa off → (regionOf pa = .hbm ∨ regionOf pa = .tier) →
      ((s.watches.filter (fun x => x.line == pa / 64)).length < 4 → (s.watches.filter (fun x => stopOf x.line == stopOf w.line)).length < 8192 → ∃ t, exec (.watch d a b) s = .next t ∧
        SameMemory s t ∧ OnlyTlbs s u ∧ t.watches = s.watches ++ [w] ∧ (t.home w.line).wts = (s.home w.line).wts ∧
        (∀ sl r, r < 64 → t.here.sreg sl r = if sl ∈ g.members ∧ r = d.toNat ∧ r ≠ 0 then BitVec.ofNat 64 (s.home w.line).wts else g.sreg sl r) ∧
        (∀ sl < 16, t.here.sccOf sl = (g.sccOf sl || decide (sl ∈ g.members))) ∧
        t = { u with watches := t.watches, homes := t.homes, clocks := t.clocks, here := { passed g [] with
          s := t.here.s, scc := t.here.scc, pts := (raised g (s.home w.line).wts).pts, ats := (raised g (s.home w.line).wts).ats
          owedRebases := (raised g (s.home w.line).wts).owedRebases } }) ∧
      ((∀ x ∈ s.arrivals, ¬ (x.line = w.line ∧ x.block = w.block ∧ x.offset = off)) → ∃ t, exec (.unwatch a b) s = .next t ∧
        SameMemory s t ∧ t = { u with watches := s.watches.erase w, here := { passed g [] with scc := t.here.scc } } ∧
        ∀ sl < 16, t.here.sccOf sl = if sl ∈ g.members then decide (w ∈ s.watches) else g.sccOf sl)) ∧
    (WatchAt s u a b va pa off → regionOf pa ≠ .hbm → regionOf pa ≠ .tier →
      (∃ t, exec (.watch d a b) s = .next t ∧ t = { u with here := { passed g [] with s := t.here.s, scc := t.here.scc } } ∧
        ∀ sl ∈ g.members, t.here.sccOf sl = false ∧ (d ≠ 0 → t.here.sreg sl d.toNat = 0)) ∧
      ∃ t, exec (.unwatch a b) s = .next t ∧ t = { u with here := { passed g [] with scc := t.here.scc } } ∧
        ∀ sl ∈ g.members, t.here.sccOf sl = false) ∧
    (∃ t, exec (.coreUngate n) s = .next t ∧ t = { s with cores := t.cores } ∧ t.core n = { core with gated := false } ∧
      ∀ m, m ≠ n → t.core m = s.core m)

/-- R40, R41, R43, R339: CLAIM takes granules from the core's pool at once where they are free and no other claim waits, and
the new registers read zero; a total above 31 raises CLAIM, and so does any claim of the supervisor gang (the model's choice: log entry
56); a claim that the pool cannot hold waits, and
CLAIM_GRANT gives it what it waits for; where another sub-gang's claim has been granted meanwhile, so that the total would pass
31, the waiting one raises CLAIM at its word (the model's choice: log entry 70).  GIVE returns the highest granules.  POOLQ reads the pool. -/
def Obligations.RegisterPool : Prop :=
  ∀ (s : State) (d a : BitVec 6) (n seq slice : Nat),
    let g := s.here
    let gains := fun (i : Instr) (why : Nat) => ∃ t, exec i s = .next t ∧ SameMemory s t ∧ t.here.granules = g.granules + n ∧
      t.here.grp.pc = (passed g []).grp.pc ∧ t.here.grp.run = (passed g []).grp.run ∧ t.here.grp.wait = .ready ∧ t.here.s = g.s ∧
      t.here.m = g.m ∧ t.here.mode = g.mode ∧ t.here.wakewhy = g.wakewhy ||| BitVec.ofNat 64 why ∧
      ∀ c l, l < 64 → t.here.vword c l = if 8 * g.granules ≤ c ∧ c < 248 then 0 else g.vword c l
    (LastWord g → Same g a n → n = 0 → exec (.claim a) s = .next { s with here := passed g [] }) ∧
    (LastWord g → Same g a n → 1 ≤ n → (31 < g.granules + n ∨ g.isSupervisor = true) → Faults (.claim a) s .claim) ∧
    (LastWord g → Same g a n → 1 ≤ n → g.granules + n ≤ 31 → g.isSupervisor = false → InSlot g → g.halted = false → g.members ≠ [] →
      s.claims g.core = [] → s.mirrored g.core = [] →
      (n ≤ s.freeGranules g.core → gains (.claim a) 0) ∧
      (s.freeGranules g.core < n → ∃ t, exec (.claim a) s = .next t ∧ SameMemory s t ∧ t.here.grp.wait = .claim n s.nextId ∧
        t.here.granules = g.granules ∧ t.here.v = g.v ∧ t.here.s = g.s)) ∧
    (LastWord g → g.grp.wait = .claim n seq → g.isSupervisor = false → InSlot g → g.halted = false → slice ∈ g.members →
      (s.claims g.core).length = 1 → g.granules + n ≤ 31 → s.mirrored g.core = [] →
      (n ≤ s.freeGranules g.core → gains (.claimGrant g.core g.slot slice) (8 ||| g.grp.why)) ∧
      (s.freeGranules g.core < n → ∃ t, exec (.claimGrant g.core g.slot slice) s = .next t ∧ t.here = g ∧ SameMemory s t)) ∧
    (LastWord g → g.grp.wait = .claim n seq → InSlot g → g.halted = false → slice ∈ g.members → (∀ p ∈ g.parted, p.slices.getLsbD slice = false) →
      31 < g.granules + n → exec (.claimGrant g.core g.slot slice) s =
        .next (({ s with here := { g with grp := { g.grp with wait := .ready } } }.precise .claim).ungate g.core)) ∧
    (Same g a n → n ≤ g.granules → n ≤ 31 → g.isSupervisor = false → (∀ o ∈ s.ops, o.gang ≠ g.key) →
      ∃ t, exec (.give a) s = .next t ∧ SameMemory s t ∧ t = { s with here := { passed g [] with granules := g.granules - n, v := t.here.v } } ∧
        ∀ c l, l < 64 → t.here.vword c l = if 8 * (g.granules - n) ≤ c ∧ c < 248 then 0 else g.vword c l) ∧
    (Same g a n → g.granules < n → Faults (.give a) s .claim) ∧
    WritesScalar (.poolq d) s d (fun _ => BitVec.ofNat 64 (s.freeGranules g.core + g.granules * 2 ^ 16 +
      ((s.claims g.core).map (fun c => c.1.slot)).eraseDups.length * 2 ^ 32))

/-! ## The walker, tasks, rings and messages (14_control_instructions.md) -/

namespace Sys2Proof.Claims

/-- Sa holds the virtual address `va` of a 64-byte record that the gang may access as `kind` says, at the physical address
`pa`; `u` is the state whose TLB holds its page, for which no walk waits for the host. -/
def RecordAt (s u : State) (a : BitVec 6) (kind : AccessKind) (va pa : Nat) : Prop :=
  Same s.here a va ∧ va % 64 = 0 ∧ s.walkWaits s.here va = false ∧ u = s.fillFor s.here va ∧ u.translate s.here va kind = .ok pa ∧ pa % 64 = 0

/-- No cache of the core holds the line, which is no other device's; no store to it is on its way, and its home holds it sound and for
the device alone. -/
def Uncached (s : State) (core line : Nat) : Prop :=
  regionOf (64 * line) ≠ .peer ∧ (s.core core).l1.find line = none ∧ (s.cluster (core / 4)).copies.find line = none ∧
  (∀ e ∈ s.clusterItems core, e.2.line ≠ line) ∧ (s.home line).poison = false ∧ (s.home line).host = .invalid

/-- The line is this device's and sound, the host does not own it, and no write of the device to it waits (R247, R398). -/
def SoundLine (s : State) (line : Nat) : Prop :=
  regionOf (64 * line) ≠ .peer ∧ s.hostOwns line = false ∧ (s.home line).poison = false ∧ ∀ w ∈ s.work, w.line ≠ some line

/-- No answer of another device is kept for the word on the pipe (R249). -/
def NoAnswers (s : State) : Prop := ∀ d ∈ s.peerData, s.here.grp.since ≠ some d.op

/-- The gang on the pipe has no access to the line in progress or unacknowledged and no acquire or fence pending, and the
line is sound (R232, R236, R238). -/
def LineFree (s : State) (line : Nat) : Prop := s.wordHeld = false ∧ s.lineBusy s.here.key line = false ∧ SoundLine s line

/-- The bytes of memory from `pa` become the `n` bytes of the number `x`; every other byte is as before. -/
def Wrote (s t : State) (pa n x : Nat) : Prop :=
  ∀ a, t.byte a = if pa ≤ a ∧ a < pa + n then BitVec.ofNat 8 (x / 2 ^ (8 * (a - pa))) else s.byte a

/-- SCC becomes `p` in every participating slice, and Sd, where one is named, becomes `v`; of the gang only clocks, rebases owed, floors
and the group's place change besides (R320). -/
def Answers (s t : State) (d : Option (BitVec 6)) (v : Nat) (p : Bool) : Prop :=
  let g := s.here
  (∀ sl r, r < 64 → t.here.sreg sl r = if sl ∈ g.members ∧ some r = d.map BitVec.toNat ∧ r ≠ 0 then BitVec.ofNat 64 v else g.sreg sl r) ∧
  (∀ sl < 16, t.here.sccOf sl = if sl ∈ g.members then p else g.sccOf sl) ∧
  t.here = { passed g [] with
    s := t.here.s, scc := t.here.scc, pts := t.here.pts, ats := t.here.ats, owedRebases := t.here.owedRebases, floors := t.here.floors }

/-- The cells that a launch's map shows in state `v` after a step from `s` to `t`; the two bits of any other cell, of the same bytes
too, and so every other bit of memory, are as before (R312). -/
def CellsBecome (s t : State) (l : Launch) (cells : List Nat) (v : Nat) : Prop :=
  (∀ n ∈ cells, ∀ a, s.deviceTranslate l.tenant (l.cellVa n) .atomic = .ok a → (t.byte a).toNat / 4 ^ (n % 4) % 4 = v) ∧
  ∀ a i, i < 4 → (∀ n ∈ cells, n % 4 = i → s.deviceTranslate l.tenant (l.cellVa n) .atomic ≠ .ok a) →
    (t.byte a).toNat / 4 ^ i % 4 = (s.byte a).toNat / 4 ^ i % 4

/-- Three consecutive scalar registers from Sd, and SCC, in every participating slice (R343). -/
def WalkAnswers (s t : State) (d : BitVec 6) (x y z : Nat) (p : Bool) : Prop :=
  let g := s.here
  (∀ sl r, r < 64 → t.here.sreg sl r = if sl ∈ g.members ∧ d.toNat ≤ r ∧ r < d.toNat + 3 then
      BitVec.ofNat 64 (if r = d.toNat then x else if r = d.toNat + 1 then y else z) else g.sreg sl r) ∧
  (∀ sl < 16, t.here.sccOf sl = if sl ∈ g.members then p else g.sccOf sl) ∧
  t.here = { passed g [] with s := t.here.s, scc := t.here.scc, pts := t.here.pts, ats := t.here.pts, owedRebases := t.here.owedRebases }

end Sys2Proof.Claims

/-- R310, R311, R342: EPHRD reads an Ephemeris register of the launch, and STATUS once the map lines that it looks at are sound; EPHWR writes a staging or user register, unchecked;
EPHCOMMIT installs the staged values under the same extents and grains, raises the generation, and refuses anything else. -/
def Sys2Proof.Claims.EphemerisForms : Prop :=
  ∀ (s : State) (d a b : BitVec 6) (l : Launch) (v : Nat),
    let g := s.here
    let key := (s.block g.block).launch
    let r := fun k => (Table.get 0 l.eph k).toNat
    let ok := r 8 = r 0 ∧ r 9 = r 1 ∧ ephemerisOk (r 8) (r 9) (r 10) (r 11) (r 12) (s.tenantClusters l.tenant) = true
    s.launches.find key = some l →
    (b.toNat < 16 → b.toNat ≠ 7 → WritesScalar (.ephrd d b) s d (fun _ => Table.get 0 l.eph b.toNat)) ∧
    (r 6 = 0 ∨ ((∀ n ∈ s.mapLines l (s.statusCells l l.cellCount 0), SoundLine s n) ∧
        s.mapWaits l (s.statusCells l l.cellCount 0) = false ∧ NoAnswers s) →
      WritesScalar (.ephrd d 7) s d (fun _ => BitVec.ofNat 64 (s.ephStatus l))) ∧
    (16 ≤ b.toNat → Faults (.ephrd d b) s .illegal ∧ Faults (.ephwr a b) s .illegal) ∧ (b.toNat < 8 → Faults (.ephwr a b) s .illegal) ∧
    (Same g a v → 8 ≤ b.toNat → b.toNat < 16 → ∃ t, exec (.ephwr a b) s = .next t ∧ SameMemory s t ∧
      t = { s with here := passed g [], launches := t.launches } ∧ (∀ k, k ≠ key → t.launches.find k = s.launches.find k) ∧
      t.launch key = { l with eph := (t.launch key).eph } ∧
      ∀ k, Table.get 0 (t.launch key).eph k = if k = b.toNat then BitVec.ofNat 64 v else Table.get 0 l.eph k) ∧
    (∃ t, exec (.ephcommit d) s = .next t ∧ SameMemory s t ∧ t.launch key = { l with eph := (t.launch key).eph } ∧
      (ok → Answers s t (some d) ((r 5 + 1) % 2 ^ 32) true ∧ ∀ k, Table.get 0 (t.launch key).eph k =
        if k < 5 then Table.get 0 l.eph (8 + k) else if k = 5 then BitVec.ofNat 64 ((r 5 + 1) % 2 ^ 32) else if k = 7 then 0 else Table.get 0 l.eph k) ∧
      (¬ ok → Answers s t (some d) (r 5) false ∧ ∀ k, Table.get 0 (t.launch key).eph k =
        if k = 7 then BitVec.ofNat 64 (2 ^ 33) else Table.get 0 l.eph k))

/-- R312 to R314, R343, R344, R345: WALK claims the cells of a fragment that the walker finds, under a new ticket of the
present generation; where it finds none, or the launch has no map, SCC is 0 and the three registers are 0.  WDONE makes the cells
of an outstanding ticket DONE; each leaves every other cell as it is.  COVQ reads the state of the cell that holds a point.  Each
acquires, at least as late as every map line that it has read was written (R315), and its lines are leased to its PTS or written past
it (R231). -/
def Sys2Proof.Claims.WalkerForms : Prop :=
  ∀ (s : State) (d a : BitVec 6) (l : Launch) (f : Fragment) (seen : List Nat) (x sc : Nat) (k : Ticket) (p : BitVec 6),
    let g := s.here
    let key := (s.block g.block).launch
    let map := (Table.get 0 l.eph 6).toNat
    let gen := (Table.get 0 l.eph 5).toNat
    let cells := l.fragmentCells f
    let sound := fun (c : List Nat) => (∀ n ∈ s.mapLines l c, SoundLine s n) ∧ s.mapWaits l c = false
    let acquires := fun (t : State) (c : List Nat) => t.here.ats = t.here.pts ∧
      ∀ n ∈ s.mapLines l c, (s.home n).wts ≤ t.here.ptsNow ∧ g.ptsNow ≤ (t.home n).rts
    s.launches.find key = some l → s.awaitsAck g.key = false → s.wordHeld = false → ScopeIs g sc →
    (d ≠ 0 → d.toNat ≤ 61 →
      (map = 0 → ∃ t, exec (.walk d) s = .next t ∧ SameMemory s t ∧ WalkAnswers s t d 0 0 0 false ∧ t.here.pts = g.pts) ∧
      (map ≠ 0 → NothingAhead s → s.walkChoice l = (seen, .ok none) → sound seen →
        ∃ t, exec (.walk d) s = .next t ∧ SameMemory s t ∧ WalkAnswers s t d 0 0 0 false ∧ acquires t seen) ∧
      (map ≠ 0 → NothingAhead s → s.walkChoice l = (seen, .ok (some f)) → sound seen → ∃ t, exec (.walk d) s = .next t ∧
        CellsBecome s t l cells 1 ∧ acquires t seen ∧
        WalkAnswers s t d (l.packOrigin f) (l.packExtent f) (l.nextTicket % 2 ^ 32 + gen * 2 ^ 32) true ∧
        (t.launch key).tickets = l.tickets ++ [⟨l.nextTicket, gen, cells, g.block, g.gangId⟩] ∧ (t.launch key).nextTicket = l.nextTicket + 1)) ∧
    (d = 0 ∨ 61 < d.toNat → Faults (.walk d) s .illegal) ∧
    (Same g a x → NothingAhead s →
      (l.tickets.find? (fun t => t.num == x % 2 ^ 32 && t.gen == x / 2 ^ 32 % 2 ^ 32) = none →
        ∃ t, exec (.wdone a) s = .next t ∧ SameMemory s t ∧ Answers s t none 0 false) ∧
      (l.tickets.find? (fun t => t.num == x % 2 ^ 32 && t.gen == x / 2 ^ 32 % 2 ^ 32) = some k → sound k.cells →
        (∀ n ∈ k.cells, ∃ v, s.cell l n .atomic = .ok v ∧ v ≠ 3) →
        ∃ t, exec (.wdone a) s = .next t ∧ CellsBecome s t l k.cells 2 ∧ Answers s t none 0 true ∧ acquires t k.cells ∧
          (t.launch key).tickets = l.tickets.filter (fun q => q.num != k.num))) ∧
    (Same g a x →
      let point := fun i => x / 2 ^ (16 * i) % 2 ^ 16
      let dims := fun i => (Table.get 0 l.eph 0).toNat / 2 ^ (16 * i) % 2 ^ 16
      let grain := fun i => 2 ^ ((Table.get 0 l.eph 1).toNat / 2 ^ (4 * i) % 16)
      let along := fun i => (dims i + grain i - 1) / grain i
      let cell := point 0 / grain 0 + along 0 * (point 1 / grain 1 + along 1 * (point 2 / grain 2 + along 2 * (point 3 / grain 3)))
      (map = 0 ∨ (∃ i < 4, dims i ≤ point i) → ∃ t, exec (.covq p a) s = .next t ∧ SameMemory s t ∧ Answers s t (some p) 0 false ∧ t.here.ats = g.pts) ∧
      (map ≠ 0 → (∀ i < 4, point i < dims i) → sound [cell] → ∀ v, v ≠ 3 → s.cell l cell .load = .ok v →
        ∃ t, exec (.covq p a) s = .next t ∧ SameMemory s t ∧ Answers s t (some p) v true ∧ acquires t [cell]))

/-- R310, R311, R342: EPHRD reads an Ephemeris register of the launch, and STATUS once the map lines that it looks at are sound;
EPHWR writes a staging or user register, unchecked; EPHCOMMIT installs the staged values under the same extents and grains,
raises the generation, and refuses anything else. R312 to R314, R343, R344, R345: WALK claims the cells of a fragment that the
walker finds, under a new ticket of the present generation; where it finds none, or the launch has no map, SCC is 0 and the
three registers are 0. WDONE makes the cells of an outstanding ticket DONE; each leaves every other cell as it is. COVQ reads
the state of the cell that holds a point. Each acquires, at least as late as every map line that it has read was written (R315),
and its lines are leased to its PTS or written past it (R231). -/
def Obligations.EphemerisAndWalkerForms : Prop := Claims.EphemerisForms ∧ Claims.WalkerForms

/-- R305, R306, R307, R341: POST and POSTN hand a job card, read at the address in Sa, to a cluster's task queue: the gang's
own, or the one that the card names, with the time of the release that comes first; a gang that belongs to no launch has no task
to give and is answered 0, which is the model's choice (log entry 45). -/
def Sys2Proof.Claims.PostForms : Prop :=
  ∀ (s u : State) (a : BitVec 6) (va pa sc : Nat), RecordAt s u a .load va pa → NothingAhead s → ScopeIs s.here sc → Uncached u s.here.core (pa / 64) →
    let g := s.here
    let b := s.block g.block
    let x := s.read pa 64
    let field := fun lo n => x / 2 ^ lo % 2 ^ n
    let id := s.nextId + (if g.grp.since.isSome then 1 else 2)
    let takes := fun (i : Instr) (cluster : Nat) =>
      b.launch ≠ 0 → s.ringWaits b.tenant = false → s.ringed cluster = [] → s.queued cluster < 512 →
      ∃ t j, exec i s = .next t ∧ SameMemory s t ∧ Answers s t none 0 true ∧ t.jobs.find id = some j ∧
        j = { tenant := b.tenant, cluster := cluster, place := .queue, order := id, descAddr := field 0 64, arg := field 64 64
              blocks := field 128 16, ranks := field 144 2 + 1, prio := field 146 3, depen := x.testBit 149, depphase := field 160 32
              depoff := field 192 20, donectr := field 256 64, launch := some b.launch, block := g.block, pts := g.ptsNow } ∧
        ∀ k, k ≠ id → t.jobs.find k = s.jobs.find k
    cardOk x (s.carveSize g.carve) = true →
    takes (.post a) (g.core / 4) ∧
    (bitOf (s.tenantClusters b.tenant) (field 150 6) = true → takes (.postn a) (field 150 6)) ∧
    (b.launch = 0 → ∃ t, exec (.post a) s = .next t ∧ SameMemory s t ∧ Answers s t none 0 false)

/-- R309, R340: RTKT hands out the next ticket of a reorder ring, or answers 0 where the ring is full; RFILL sets the full bit
of a ticket that is out; RHEAD counts the run of full slots from the head, over all N slots of the ring, frees up to Sb of them in one
step, and acquires; an Sb above N raises SHAPE. -/
def Sys2Proof.Claims.ReorderRings : Prop :=
  ∀ (s u : State) (d a b : BitVec 6) (va pa m bm sc : Nat) (r : Ring), RecordAt s u a .atomic va pa → LineFree s (pa / 64) → ScopeIs s.here sc →
    parseRing (s.read pa 64) = some r →
    let g := s.here
    (r.held < r.count → ∃ t, exec (.rtkt d a) s = .next t ∧ Answers s t (some d) r.ticket true ∧ Wrote s t pa 8 ((r.ticket + 1) % 2 ^ 64)) ∧
    (r.count ≤ r.held → ∃ t, exec (.rtkt d a) s = .next t ∧ Answers s t (some d) 0 false ∧ SameMemory s t) ∧
    (Same g b m → NothingAhead s → r.head ≤ m → m < r.ticket → s.walkWaits g (r.full + m % r.count / 8) = false →
      u.translate g (r.full + m % r.count / 8) .atomic = .ok bm → SoundLine s (bm / 64) →
      let bit := m % 8 % r.count
      ((s.byte bm).toNat.testBit bit = false → ∃ t, exec (.rfill a b) s = .next t ∧ Answers s t none 0 true ∧
        Wrote s t bm 1 ((s.byte bm).toNat + 2 ^ bit)) ∧
      ((s.byte bm).toNat.testBit bit = true → ∃ t, exec (.rfill a b) s = .next t ∧ Answers s t none 0 false ∧ SameMemory s t)) ∧
    (Same g b m → r.count < m → exec (.rhead d a b) s = .next (u.precise .shape)) ∧
    (∀ (phys : Nat → Nat) (c : Nat), Same g b m → m ≤ r.count → NothingAhead s →
      let ticket := fun i => (r.head + i) % 2 ^ 64
      let va := fun i => r.full + ticket i % r.count / 8
      let at_ := fun i => phys (va i)
      let bit := fun i => ticket i % 8 % r.count
      let full := fun i => (s.byte (at_ i)).toNat.testBit (bit i) = true
      (∀ i < r.count, s.walkWaits g (va i) = false ∧ u.translate g (va i) .atomic = .ok (at_ i) ∧ SoundLine s (at_ i / 64) ∧
        at_ i / 64 ≠ pa / 64 ∧ ∀ j < r.count, at_ i = at_ j → va i = va j) →
      c ≤ r.count → (∀ i < c, full i) → (c < r.count → ¬ full c) →
      ∃ t, exec (.rhead d a b) s = .next t ∧ Answers s t (some d) c (decide (c ≠ 0)) ∧ t.here.ats = t.here.pts ∧
        (s.home (pa / 64)).wts ≤ t.here.ptsNow ∧
        let k := min c m
        (k = 0 → SameMemory s t) ∧
        (k ≠ 0 → ∀ x, pa + 8 ≤ x → x < pa + 16 → t.byte x = BitVec.ofNat 8 (ticket k / 2 ^ (8 * (x - pa - 8)))) ∧
        (∀ i < k, (t.byte (at_ i)).toNat.testBit (bit i) = false) ∧
        ∀ x j, ¬ (pa + 8 ≤ x ∧ x < pa + 16) → (∀ i < k, ¬ (at_ i = x ∧ bit i = j)) → (t.byte x).toNat.testBit j = (s.byte x).toNat.testBit j)

/-- R305, R306, R307, R341: POST and POSTN hand a job card, read at the address in Sa, to a cluster's task queue: the gang's own, or
the one that the card names, with the time of the release that comes first; a gang that belongs to no launch has no task to give
and is answered 0, which is the model's choice (log entry 45). R309, R340: RTKT hands out the next ticket of a reorder ring, or
answers 0 where the ring is full; RFILL sets the full bit of a ticket that is out; RHEAD counts the run of full slots from the
head, over all N slots of the ring, frees up to Sb of them in one step, and acquires; an Sb above N raises SHAPE. -/
def Obligations.PostsAndReorderRings : Prop := Claims.PostForms ∧ Claims.ReorderRings

/-- R308, R346, R386, R387: AMSG to another device waits at its word with the message in progress; one to a tenant of this device that
is OFF or in teardown is answered TORNDOWN (2); that a message to the own device number is received at once is the model's choice (log
entry 27).  A message from another device to such a tenant is answered so; a ringed message
moves to its queue while its tenant runs; the first spilled card of a cluster is read again from its slot of the overflow ring and moves
to its queue, and none moves past one that cannot.  R347: ABUMP moves an arena's
pointer up by its size rounded to whole lines, within the limit. -/
def Obligations.MessagesAndArenas : Prop :=
  ∀ (s : State) (d a b : BitVec 6) (dest v t0 cl n src from0 sc : Nat) (payload : List Byte) (key : Nat) (j : Job) (pa arena size arg prio : Nat),
    let g := s.here
    let off := v % 2 ^ 20
    let len := v / 2 ^ 20 % 2 ^ 9
    let fab := s.barReg 0x14000 % 2 ^ 16
    (Same g a dest → Same g b v → NothingAhead s → ScopeIs g sc → off % 4 = 0 → dest < 2 ^ 32 → v < 2 ^ 29 → 1 ≤ len → len ≤ 256 →
      off + len ≤ s.carveSize g.carve → s.objectPoisoned g.carveKey off len = false → carveAt g.carveKey = g.carve →
      (dest / 2 ^ 16 ≠ 0xFFFF → dest / 2 ^ 16 ≠ fab → ∃ t o, exec (.amsg d a b) s = .next t ∧ SameMemory s t ∧
        t.ops = s.ops ++ [o] ∧ t.here.grp.wait = .op o.batch ∧ t.here.grp.run = g.grp.run ∧ t.here.s = g.s ∧
        o.kind = .message dest ((List.range len).map (fun k => s.sbyte g.carve (off + k))) d.toNat) ∧
      ((dest / 2 ^ 16 = 0xFFFF ∨ dest / 2 ^ 16 = fab) → s.tenantState (dest / 2 ^ 12 % 16) ∈ [0, 3] →
        ∃ t, exec (.amsg d a b) s = .next t ∧ SameMemory s t ∧ Answers s t (some d) 2 false)) ∧
    (s.tenantState (t0 % 16) ∈ [0, 3] →
      exec (.activeMessageReceive t0 cl n src from0 payload) s = .next { s with seen := (0x200000 + src % 2 ^ 16, 2) :: s.seen }) ∧
    (∀ d0 addr, s.handler (t0 % 16) (cl % 64) (n % 64) = .found d0 arg prio addr → s.tenantState (t0 % 16) = 1 →
      (∀ w ∈ s.saved, w.block.tenant ≠ t0 % 16) → (∀ e ∈ s.jobs, e.2.tenant = t0 % 16 → e.2.place ≠ .messages) →
      s.queued (cl % 64) < 512 → payload.length ≤ 256 →
      exec (.activeMessageReceive t0 cl n src from0 payload) s = .next { s with
        jobs := s.jobs.insert s.nextId
          { tenant := t0 % 16, cluster := cl % 64, place := .queue, order := s.nextId, descAddr := addr, arg := arg, blocks := 1, ranks := 1
            prio := prio, launch := none, pts := [0, 1, 2, 3].foldl (fun m i => max m (Table.get 0 s.clocks i)) 0, desc := some d0
            source := some src, payload := (List.range 8).map (fun k => BitVec.ofNat 8
              ((src % 2 ^ 16 + from0 % 16 * 2 ^ 16 + payload.length * 2 ^ 20) / 2 ^ (8 * k))) ++ List.replicate 56 0 ++ payload }
        nextId := s.nextId + 1, seen := (0x200000 + src % 2 ^ 16, 0) :: s.seen }) ∧
    (s.jobs.find? (fun e => e.2.tenant == t0 && e.2.place == .messages) = some (key, j) → s.tenantState t0 = 1 →
      (∀ w ∈ s.saved, w.block.tenant ≠ t0) → s.queued j.cluster < 512 →
      exec (.messageRingDrain t0) s = .next { s with jobs := s.jobs.insert key { j with place := .queue } }) ∧
    (∀ rest, s.ringed cl = (key, j) :: rest → s.jobs.find key = some j → (j.tenant ≠ t0 ∨ 512 ≤ s.queued cl) →
      exec (.overflowRingMove t0 cl) s = .next s) ∧
    (s.ringed cl = [(key, j)] → s.jobs.find key = some j → j.tenant = t0 → s.queued cl < 512 → s.counterWaits j = false →
      s.deviceHeld t0 ((s.privReg (0x800 + 0x40 * t0 + 0xA)).toNat +
        64 * (j.ringSlot % max 1 (s.privReg (0x800 + 0x40 * t0 + 0xB)).toNat)) 64 = false →
      s.ringSlotAddr t0 j.ringSlot = .ok pa → SoundLine s (pa / 64) →
      let field := fun lo n => s.read pa 64 / 2 ^ lo % 2 ^ n
      exec (.overflowRingMove t0 cl) s = .next { s with
        jobs := s.jobs.insert key { j with
          place := .queue, descAddr := field 0 64, arg := field 64 64, blocks := field 128 16, ranks := field 144 2 + 1, prio := field 146 3,
          depen := (s.read pa 64).testBit 149, depphase := field 160 32, depoff := field 192 20, donectr := field 256 64 }
        ringOut := Table.set 0 s.ringOut j.tenant (Table.get 0 s.ringOut j.tenant + 1) }) ∧
    (Same g a arena → Same g b size → arena < 16 → size < 2 ^ 32 →
      let blk := s.block g.block
      let entry := (s.privReg (0x800 + 0x40 * blk.tenant + 0x11)).toNat + 32 * arena
      s.walkHeld blk.tenant entry = false → s.deviceTranslate blk.tenant entry .atomic = .ok pa → LineFree s (pa / 64) →
      blk.launch ≠ 0 → (s.read (pa + 24) 8).testBit 32 = true → s.read (pa + 24) 8 % 2 ^ 32 = (s.launch blk.launch).lid → pa % 32 = 0 →
      let ptr := s.read (pa + 16) 8
      let bytes := (size + 63) / 64 * 64
      (size = 0 → ∃ t, exec (.abump d a b) s = .next t ∧ SameMemory s t ∧ Answers s t (some d) ptr true) ∧
      (1 ≤ size → ptr + bytes ≤ s.read (pa + 8) 8 → ∃ t, exec (.abump d a b) s = .next t ∧ Answers s t (some d) ptr true ∧
        Wrote s t (pa + 16) 8 (ptr + bytes)) ∧
      (1 ≤ size → s.read (pa + 8) 8 < ptr + bytes → ∃ t, exec (.abump d a b) s = .next t ∧ SameMemory s t ∧ Answers s t (some d) 0 false))

/-! ## Faults, requests and the supervisor's forms (15_isolation.md, 16_recovery.md) -/

namespace Sys2Proof.Claims

/-- What a release at system scope of the gang on the pipe waits for is done: its accesses begun so far, the entries of the core's FIFO so far, and
the acknowledgements of dirty bytes that it has read (R230, R234). -/
def AllReleased (s : State) : Prop :=
  (∀ o ∈ s.ops, o.gang = s.here.key → s.nextId ≤ o.id) ∧ (∀ e ∈ (s.core s.here.core).fifo, s.nextId ≤ e.id) ∧ ∀ i < 4, ∀ e ∈ (s.core (4 * (s.here.core / 4) + i)).fifo, s.here.key ∉ e.readers

/-- What the fault log of the record's tenant becomes (R362 step 3).  The release that the record makes ends at once where nothing is
outstanding, and the record then lands, or counts as dropped where the tenant has no log or the log is full; else it waits among the
device's writes, as it does while the host owns the log's line (R247). -/
def Logs (s t : State) (r : FaultRecord) : Prop :=
  let g := s.here
  let ptr := (s.privReg (0x800 + 0x40 * r.tenant + 0xD)).toNat
  let base := (s.privReg (0x800 + 0x40 * r.tenant + 0xC)).toNat
  let wr := ptr % 2 ^ 24
  let rd := ptr / 2 ^ 24 % 2 ^ 24
  let size := if base % 16 = 0 then 2 ^ 16 else 2 ^ (base % 16)
  let line := base / 2 ^ 12 % 2 ^ 40 * 64 + wr % size
  let full := base = 0 ∨ (wr + 2 ^ 24 - rd) % 2 ^ 24 = size
  let pointer := fun (v : Nat) => ∀ k, (t.privReg k).toNat = if k = 0x800 + 0x40 * r.tenant + 0xD then v else (s.privReg k).toNat
  (AllReleased s → full → SameMemory s t ∧ t.work = [] ∧ pointer (ptr % 2 ^ 48 + min 65535 (ptr / 2 ^ 48 % 2 ^ 16 + 1) * 2 ^ 48)) ∧
  (AllReleased s → ¬ full → regionOf (64 * line) ≠ .peer → s.hostOwns line = false → t.work = [] ∧
    (∀ a, t.byte a = if a / 64 = line then BitVec.ofNat 8 (r.bits / 2 ^ (8 * (a % 64))) else s.byte a) ∧
    (t.home line).wts = max ((s.home line).rts + 1) (g.ptsNow + 1) ∧ pointer (ptr / 2 ^ 24 * 2 ^ 24 + (wr + 1) % 2 ^ 24)) ∧
  (¬ AllReleased s ∨ (¬ full ∧ s.hostOwns line = true) → SameMemory s t ∧ t.priv = s.priv ∧
    t.work = [.log r.tenant (BitVec.ofNat 512 r.bits) (some g.key) s.nextId g.ptsNow])

/-- What taking a fault, an SVC or a TRAP leaves of a gang of a user slot that was not stopped (R361, R362): the gang is
stopped at its word with every register as it was; its mailbox entry holds the record with PENDING set, and the doorbell has one
arrival more; unless it is an SVC, the record goes to the tenant's fault log. -/
def TakesFault (s t : State) (r : FaultRecord) (dest : Nat) : Prop :=
  let g := s.here
  let c := Carve.supervisor g.core
  t.here = { g with stop := .fault r.kind r.cause g.grp.slices dest, grp := g.grp.fresh } ∧
  t.sread c (128 * g.slot) 64 = r.bits + 2 ^ (8 * 0x38) ∧ t.isPending g.core g.slot = true ∧
  t.barrier c 0x1800 = ((s.barrier c 0x1800).arrive 1).test ∧
  (∀ x, x < 128 * g.slot ∨ (128 * g.slot + 64 ≤ x ∧ x < 0x1800) ∨ 0x1810 ≤ x → t.sbyte c x = s.sbyte c x) ∧
  (t.core g.core).fifo = (if r.kind = 2 then id else List.map (fun e => { e with closed := true })) (s.core g.core).fifo ∧
  (r.kind = 2 → SameMemory s t ∧ t = { s with here := t.here, cores := t.cores }) ∧
  (r.kind ≠ 2 → s.work = [] → Logs s t r) ∧
  ((regionOf (64 * ((s.logLine r.tenant).getD 0)) ≠ .peer) → s.work = [] → t = { s with
    here := t.here, cores := t.cores, mem := t.mem, homes := t.homes, clocks := t.clocks, watches := t.watches, nextId := t.nextId
    arrivals := t.arrivals, dramPoison := t.dramPoison, priv := t.priv, work := t.work, mgmt := { s.mgmt with dies := t.mgmt.dies } })

/-- The record of a fault of the gang on the pipe at its word; INDEX is 0 where WORD is (R361). -/
def recordHere (s : State) (c : Cause) (kind addr code : Nat) : FaultRecord :=
  let g := s.here
  let b := s.block g.block
  { cause := c, tenant := b.tenant, slot := g.slot, slice := g.members.headD 0, core := g.core, kind := kind, pc := g.wordPc
    word := s.wordHere, index := if s.wordHere = 0 then 0 else g.wordIndex, addr := BitVec.ofNat 64 addr, lid := (s.launch b.launch).lid, block := b.linear
    code := code }

/-- SCC becomes `p` in every participating slice, the group moves past its word, and nothing else of the gang changes. -/
def SetsScc (s t : State) (p : Bool) : Prop :=
  (∀ sl < 16, t.here.sccOf sl = if sl ∈ s.here.members then p else s.here.sccOf sl) ∧ t.here = { passed s.here [] with scc := t.here.scc }

end Sys2Proof.Claims

/-- R361: the layout of a fault record.  Every field of a record whose numbers are in range stands at its place. -/
def Sys2Proof.Claims.FaultRecordLayout : Prop :=
  ∀ (r : FaultRecord), r.tenant < 16 → r.slot < 64 → r.slice < 16 → r.core < 256 → r.kind < 256 → r.index < 32 → r.lid < 2 ^ 32 →
    r.block < 2 ^ 32 → r.code < 2 ^ 16 →
    let field := fun off lo n => r.bits / 2 ^ (8 * off + lo) % 2 ^ n
    field 0x00 0 8 = r.cause.code ∧ field 0x00 8 4 = r.tenant ∧ field 0x00 12 4 = 0 ∧ field 0x00 16 6 = r.slot ∧ field 0x00 22 4 = r.slice ∧
    field 0x00 26 6 = 0 ∧ field 0x00 32 8 = r.core ∧ field 0x00 40 8 = r.kind ∧ field 0x00 48 16 = 0 ∧ field 0x08 0 64 = r.pc.toNat ∧
    field 0x10 0 32 = r.word.toNat ∧ field 0x10 32 5 = r.index ∧ field 0x10 37 27 = 0 ∧ field 0x18 0 64 = r.addr.toNat ∧
    field 0x20 0 32 = r.lid ∧ field 0x20 32 32 = r.block ∧ field 0x28 0 16 = r.code ∧ field 0x28 16 48 = 0 ∧ field 0x30 0 128 = 0

/-- R66, R362, R361: taking a precise fault, an SVC or a TRAP.  A gang that is stopped already waits at the word and meets the fault again after
the ERET (the model's choice, log entry 23); the supervisor gang's fault only stops it (R359, R407; the model's choice, log
entry 45). -/
def Sys2Proof.Claims.FaultEntry : Prop :=
  ∀ (s : State) (c : Cause) (addr code : Nat),
    let g := s.here
    let t := s.precise c addr code
    (g.stop = .none → g.slot < 48 → (s.block g.block).tenant < 16 → TakesFault s t (recordHere s c 0 addr code) 0) ∧
    (g.stop = .none → g.slot = 48 → t = { s with here := { g with
      stop := .fault 0 c g.grp.slices 0, grp := g.grp.fresh } }) ∧
    (g.stop ≠ .none → t = { s with here := { g with grp := { g.grp with wait := .held } } })

/-- R361: the layout of a fault record. Every field of a record whose numbers are in range stands at its place. R66, R362, R361:
taking a precise fault, an SVC or a TRAP. A gang that is stopped already waits at the word and meets the fault again after the
ERET (the model's choice, log entry 23); the supervisor gang's fault only stops it (R359, R407; the model's choice, log entry
45). -/
def Obligations.FaultRecordsAndEntry : Prop := Claims.FaultRecordLayout ∧ Claims.FaultEntry

/-- R368, R369: SVC copies its request record into the mailbox entry and takes the steps of R362 with KIND 2; TRAP takes them
with KIND 3 and its code.  In the supervisor gang both raise ILLEGAL. -/
def Obligations.SupervisorCalls : Prop :=
  ∀ (s u : State) (d a : BitVec 6) (va pa v : Nat), LastWord s.here →
    let g := s.here
    (g.isSupervisor = true → Faults (.svc d a) s .illegal ∧ Faults (.trap a) s .illegal) ∧
    (g.slot < 48 → g.stop = .none → (s.block g.block).tenant < 16 →
      (Same g a v → v < 2 ^ 16 → ∃ t, exec (.trap a) s = .next t ∧ TakesFault s t (recordHere s .trap 3 0 v) 0) ∧
      (Same g a v → 2 ^ 16 ≤ v → Faults (.trap a) s .shape) ∧
      (RecordAt s u a .load va pa → NothingAhead s → Uncached u g.core (pa / 64) →
        ∃ t, exec (.svc d a) s = .next t ∧ SameMemory s t ∧ t.here.stop = .fault 2 .svc g.grp.slices d.toNat ∧ t.here.ats = t.here.pts ∧
          (g.ended = false → (s.home (pa / 64)).wts ≤ t.here.ptsNow) ∧ t.priv = s.priv ∧
          t.here.s = g.s ∧ t.here.v = g.v ∧ t.here.m = g.m ∧ t.isPending g.core g.slot = true ∧
          t.sread (.supervisor g.core) (128 * g.slot + 0x40) 64 = s.read pa 64 ∧
          t.sread (.supervisor g.core) (128 * g.slot) 64 = (recordHere u .svc 2 0 0).bits + 2 ^ (8 * 0x38)))

/-- R370: ERET clears PENDING and resumes the gang of the slot at its saved point, at the run after its word with Sd := Sb for
an SVC, or ends it; RESUME takes a fault of any KIND, one that was deferred among them, after which the gang's later operations are discarded no
longer.  A gang that has been killed has left its slot, and only its entry is cleared (R400).  An entry that is not pending answers 0 in
SCC, and a mode or a slot that it does not take raises SHAPE.  That groups which met faults while the gang was stopped meet their words
again is the model's choice (log entry 23); a halted gang's groups do so after the WAKEG (R372). -/
def Obligations.ReturnFromFault : Prop :=
  ∀ (s : State) (a b : BitVec 6) (v kind dest : Nat) (x : Word64) (cause : Cause) (sl : SliceMask) (t0 : Gang) (r : RunPos),
    let g := s.here
    let slot := v % 64
    let mode := v / 64 % 4
    let at0 := 128 * slot + 0x38
    let entry := fun (t : State) => SetsScc s t true ∧ SameMemory s t ∧ t.isPending g.core slot = false ∧
      (∀ y, y ≠ at0 → t.sbyte (.supervisor g.core) y = s.sbyte (.supervisor g.core) y) ∧
      ∀ k, k ≠ 64 * g.core + slot → t.gangs.find k = s.gangs.find k
    LastWord g → g.isSupervisor = true → Same g a v → Same g b x.toNat →
    (2 ^ 8 ≤ v ∨ slot = 48 ∨ mode = 3 → Faults (.eret a b) s .shape) ∧
    (v < 2 ^ 8 → slot ≠ 48 → mode ≠ 3 → 48 < slot ∨ s.isPending g.core slot = false →
      ∃ t, exec (.eret a b) s = .next t ∧ SetsScc s t false ∧ t = { s with here := t.here }) ∧
    (v < 2 ^ 8 → slot < 48 → mode ≠ 3 → s.isPending g.core slot = true → (∀ t1, s.gangs.find (64 * g.core + slot) = some t1 → t1.stop = .none) →
      ∃ t, exec (.eret a b) s = .next t ∧ entry t ∧ t = { s with here := t.here, cores := t.cores }) ∧
    (v < 2 ^ 8 → slot < 48 → mode ≠ 3 → s.isPending g.core slot = true → s.gangs.find (64 * g.core + slot) = some t0 → t0.core = g.core →
      t0.slot = slot → t0.stop = .fault kind cause sl dest →
      let again := fun (p : Group) =>
        if p.wait = .held ∨ (p.slices = sl ∧ p.run ≠ none ∧ p.wait = .ready) then { p with wait := if t0.halted then .halt else .ready } else p
      (mode = 0 → ∃ t, exec (.eret a b) s = .next t ∧ entry t ∧ t.gangs.find (64 * g.core + slot) = some { t0 with
        stop := .none, taken := none, grp := again t0.grp, parted := t0.parted.map again }) ∧
      (t0.grp.slices = sl → sl ≠ 0 → t0.grp.run = some r → r.idx + 1 = r.len → mode = 1 → kind = 3 → ∃ t, exec (.eret a b) s = .next t ∧ entry t ∧
        t.gangs.find (64 * g.core + slot) = some { t0 with
          stop := .none, taken := none, grp := t0.grp.goTo (t0.grp.pc + BitVec.ofNat 64 (4 * (r.len + 1))), parted := t0.parted.map again }) ∧
      (t0.grp.slices = sl → sl ≠ 0 → t0.grp.run = some r → r.idx + 1 = r.len → mode = 1 → kind = 2 → ∃ t h, exec (.eret a b) s = .next t ∧ entry t ∧
        t.gangs.find (64 * g.core + slot) = some h ∧ h.stop = .none ∧ h.grp.run = none ∧
        h.grp.pc = t0.grp.pc + BitVec.ofNat 64 (4 * (r.len + 1)) ∧ h.v = t0.v ∧ h.m = t0.m ∧ h.scc = t0.scc ∧
        ∀ l k, k < 64 → h.sreg l k = if l < 16 ∧ sl.getLsbD l = true ∧ k = dest ∧ k ≠ 0 then x else t0.sreg l k) ∧
      (mode = 1 → kind < 2 → Faults (.eret a b) s .shape) ∧
      (mode = 2 → ∃ t h, exec (.eret a b) s = .next t ∧ entry t ∧
        t.gangs.find (64 * g.core + slot) = some h ∧ h.stop = .none ∧ h.exited = BitVec.allOnes 16 ∧ h.parted = [] ∧ h.grp.slices = 0 ∧
        h.deferred = [] ∧ h.s = t0.s ∧ h.v = t0.v))

/-- R371, R372: TLBINV drops the tenant's cached translation of a page, TLBINVA all of the tenant's; each completes once
everything that the tenant's cores have begun is done.  HALTG and WAKEG halt and release the gang that Sa names, and tell in SCC
whether there is one. -/
def Sys2Proof.Claims.InvalidateAndHalt : Prop :=
  ∀ (s : State) (a b : BitVec 6) (va ten v : Nat) (t0 : Gang),
    let g := s.here
    let quiet := g.grp.run ≠ none ∧ g.grp.marker = none ∧ s.ops = [] ∧ ∀ e ∈ s.cores, e.2.tenant = ten → e.2.fifo = [] ∧ e.2.cmds = [] ∧ e.2.mq = []
    let drops := fun (t : State) (gone : Nat → Translation → Prop) =>
      SameMemory s t ∧ t = { s with here := passed g [], nextId := s.nextId + 1, cores := t.cores, clusters := t.clusters } ∧
      (∀ n, t.core n = { s.core n with tlb := (t.core n).tlb } ∧ (t.cluster n).copies = (s.cluster n).copies) ∧
      ∀ n e, (e ∈ (t.core n).tlb ↔ e ∈ (s.core n).tlb ∧ ¬ gone e.1 e.2) ∧ (e ∈ (t.cluster n).tlb ↔ e ∈ (s.cluster n).tlb ∧ ¬ gone e.1 e.2)
    let slot := v % 64
    let core := v / 2 ^ 8 % 256
    let woken := fun (p : Group) =>
      if p.parked then { p with why := p.why ||| 128 } else if p.wait = .halt then { p with wait := .ready } else p
    g.isSupervisor = true →
    (Same g a va → Same g b ten → va < 2 ^ 49 → ten < 16 → quiet → ∃ t, exec (.tlbinv a b) s = .next t ∧
      drops t (fun k e => k / 2 ^ 40 = ten ∧ k % 2 ^ 40 * 2 ^ 19 / 2 ^ e.bits = va / 2 ^ e.bits)) ∧
    (Same g a ten → ten < 16 → quiet → ∃ t, exec (.tlbinva a) s = .next t ∧ drops t (fun k _ => k / 2 ^ 40 = ten)) ∧
    (Same g a va → Same g b ten → (2 ^ 49 ≤ va ∨ 16 ≤ ten) → g.grp.marker = none → Faults (.tlbinv a b) s .shape) ∧
    (Same g a ten → 16 ≤ ten → g.grp.marker = none → Faults (.tlbinva a) s .shape) ∧
    (Same g a v → v < 2 ^ 16 → v / 64 % 4 = 0 → slot ≠ 48 → s.gang core slot = none →
      ∃ t, exec (.haltg a) s = .next t ∧ exec (.wakeg a) s = .next t ∧ SetsScc s t false ∧ t = { s with here := t.here }) ∧
    (Same g a v → v < 2 ^ 16 → v / 64 % 4 = 0 → slot ≠ 48 → s.gangs.find (64 * core + slot) = some t0 → t0.core = core → t0.slot = slot →
      (∃ t, exec (.haltg a) s = .next t ∧ SetsScc s t true ∧ t = { s with here := t.here, gangs := t.gangs } ∧
        (∀ k, k ≠ 64 * core + slot → t.gangs.find k = s.gangs.find k) ∧ t.gangs.find (64 * core + slot) = some { t0 with halted := true }) ∧
      ∃ t h, exec (.wakeg a) s = .next t ∧ SetsScc s t true ∧ t = { s with here := t.here, gangs := t.gangs, cores := t.cores } ∧
        (t.core core).gated = false ∧ (∀ k, k ≠ 64 * core + slot → t.gangs.find k = s.gangs.find k) ∧
        t.gangs.find (64 * core + slot) = some h ∧ (t0.halted = false → h = t0) ∧
        (t0.halted = true → h = { t0 with halted := false, grp := woken t0.grp, parted := t0.parted.map woken })) ∧
    (Same g a v → (2 ^ 16 ≤ v ∨ v / 64 % 4 ≠ 0 ∨ slot = 48) → Faults (.haltg a) s .shape ∧ Faults (.wakeg a) s .shape)

/-- R353, R367: the supervisor's forms raise PRIV in every other gang. -/
def Sys2Proof.Claims.PrivilegedForms : Prop :=
  ∀ (s : State) (a b : BitVec 6), s.here.isSupervisor = false → s.here.grp.marker = none →
    (LastWord s.here → Faults (.eret a b) s .priv) ∧ Faults (.tlbinv a b) s .priv ∧ Faults (.tlbinva a) s .priv ∧
    Faults (.haltg a) s .priv ∧ Faults (.wakeg a) s .priv

/-- R354, R363: SWR and SXCH of the supervisor gang write CMASK, QPRIO, WSPART, RINGBASE, RINGSIZE, FLOGBASE, CTXBASE, MSGBASE,
HTBASE and ARTAB of a tenant with no other effect; a write to PREEMPT starts a save or a restore, and for a save notes the set
of blocks. A value that is not taken raises ILLEGAL. Of a register with a side effect SWR does what its event does. R353, R354,
R355, R114: the supervisor gang's writes to privileged registers that have a side effect, each a row of its own (log entry 57),
where the cores run; a value that the register does not take raises ILLEGAL. That a write of RUN or SUSPENDED wakes a module
that is IDLE follows R413, for SUSPENDED by the model's choice (log entry 40). R353, R367: the supervisor's forms raise PRIV in
every other gang. -/
def Obligations.PrivilegedRegistersAndForms : Prop := Claims.SupervisorWrites ∧ Claims.PrivilegedWrites ∧ Claims.PrivilegedForms

/-- R178, R288, R362: the oldest deferred fault of the gang on the pipe is taken at a run boundary, or at the phase boundary of a
phased kernel, with KIND 1 and the record of the word that issued the operation, SLICE among it.  The gang's later operations of that
queue or engine which have not started are discarded first: their flags fall, the ranges of the commands are released, and every other
operation stays. -/
def Sys2Proof.Claims.DeferredFault : Prop :=
  ∀ (s : State) (d : Deferred) (rest : List Deferred),
    let g := s.here
    let b := s.block g.block
    let c := s.core g.core
    let later := fun (block gangId id : Nat) => block = g.block ∧ gangId = g.gangId ∧ d.op < id
    let ops := c.mq.filter (fun o => decide (d.engine = false ∧ o.started = false ∧ later o.block o.gangId o.id))
    let cmds := c.cmds.filter (fun k => decide (d.engine = true ∧ k.started = false ∧ k.next = 0 ∧ later k.block k.gangId k.id))
    let record : FaultRecord :=
      { cause := d.cause, tenant := b.tenant, slot := g.slot, slice := d.slice, core := g.core, kind := 1, pc := d.pc, word := d.word
        index := if d.word = 0 then 0 else d.index, addr := d.addr, lid := (s.launch b.launch).lid, block := b.linear, code := d.code }
    g.deferred = d :: rest → (g.grp.run = none ∨ (s.phasedGang g = true ∧ ∃ p, g.grp.wait = .grid p)) → g.grp.slices ≠ 0 →
    (∀ p ∈ g.parted, p.slices &&& g.grp.slices = 0) → g.halted = false → g.stop = .none → g.slot < 48 → g.ended = false → b.tenant < 16 →
    ∃ s1 t, exec (.deferredFaultTaken g.core g.slot) s = .next t ∧ TakesFault s1 t record 0 ∧
      s1 = { s with here := { g with flags := s1.here.flags, deferred := rest, taken := some d }, cores := s1.cores } ∧
      (∀ n, s1.core n = if n = g.core then { c with
          mq := c.mq.filter (fun o => decide (o ∉ ops)), cmds := c.cmds.filter (fun k => decide (k ∉ cmds))
          locks := c.locks.filter (fun l => decide (∀ k ∈ cmds, k.id ≠ l.cmd)) } else s.core n) ∧
      ∀ n, s1.here.flag n = g.flag n - (ops.filter (fun o => o.flag == some n)).length - (cmds.filter (fun k => k.flag == some n)).length

/-- R371, R372: TLBINV drops the tenant's cached translation of a page, TLBINVA all of the tenant's; each completes once everything
that the tenant's cores have begun is done. HALTG and WAKEG halt and release the gang that Sa names, and tell in SCC whether
there is one. R178, R288, R362: the oldest deferred fault of the gang on the pipe is taken at a run boundary, or at the phase
boundary of a phased kernel, with KIND 1 and the record of the word that issued the operation, SLICE among it. The gang's later
operations of that queue or engine which have not started are discarded first: their flags fall, the ranges of the commands are
released, and every other operation stays. -/
def Obligations.InvalidationHaltsAndDeferredFaults : Prop := Claims.InvalidateAndHalt ∧ Claims.DeferredFault

/-! ## The matrix engine, the delta engine and the copy engine (07, 08 and 12) -/

namespace Sys2Proof.Claims

/-- A record address names 64 aligned bytes of global memory or of the gang's own carve-out (R164). -/
def RecordNamed (s : State) (v : Nat) : Prop :=
  v % 64 = 0 ∧ (v < 2 ^ 49 ∨ (2 ^ 63 ≤ v ∧ v < 2 ^ 63 + 2 ^ 20 ∧ v % 2 ^ 20 + 64 ≤ s.carveSize s.here.carve))

/-- The operation that a matrix word enters into the queue: its registers are read at issue (R177, R179). -/
def matOpOf (s : State) (kind : MatKind) (target record list : Nat) (f : BitVec 4) : MatOp :=
  let g := s.here
  { id := s.nextId, slot := g.slot, block := g.block, gangId := g.gangId, kind := kind, target := target, record := record, list := list
    layer := g.layer.toNat, narrow := g.narrow, seed := g.seed, mode := g.firstMode, flag := flagNamed f, pts := g.ptsNow, pc := g.wordPc
    word := s.wordHere, index := g.wordIndex, slice := g.members.headD 0 }

/-- The word enters the matrix queue wherever its flag and the queue have room (R177, R365): the operation stands last, is
counted into the flag, and the group moves on. -/
def Enters (i : Instr) (s : State) (kind : MatKind) (target record list : Nat) (f : BitVec 4) : Prop :=
  let g := s.here
  let o := matOpOf s kind target record list f
  FlagReady g f → (s.core g.core).admits o = true → ∃ t, exec i s = .next t ∧ SameMemory s t ∧
    t = { s with here := { passed g [] with flags := t.here.flags }, cores := t.cores, nextId := s.nextId + 1 } ∧
    (∀ n, t.here.flag n = counted g f n) ∧ (∀ n, n ≠ g.core → t.core n = s.core n) ∧
    t.core g.core = { s.core g.core with mq := (s.core g.core).mq ++ [o] }

/-- The word enters the copy engine wherever its registration read has its answers and its flag, the engine and the range-lock
table have room; the gang's earlier acquires, stores and scratchpad accesses are done (R277, R283, R289).  Where another device has
refused the read, the gang's report notes it (R385). -/
def EntersCopy (i : Instr) (s : State) (kind d a b : Nat) (f : BitVec 4) : Prop :=
  let g := s.here
  let c := s.core g.core
  let k : CopyCmd :=
    { id := g.grp.since.getD s.nextId, slot := g.slot, block := g.block, gangId := g.gangId, kind := kind, ctl := b, drec := d, srec := a, flag := flagNamed f
      ats := g.atsNow, pts := g.ptsNow, pc := g.wordPc, word := s.wordHere, index := g.wordIndex, slice := g.members.headD 0 }
  ∀ locks, s.copyLocks g.core k = some locks → s.wordHeld = false → s.unperformed g.key = [] → s.scratchOps g.key = [] →
  FlagReady g f → c.cmds.length < 64 → c.locks.length + locks.length ≤ 64 → ∃ t, exec i s = .next t ∧ SameMemory s t ∧
    t = { s with here := { passed g [] with flags := t.here.flags, lcause := t.here.lcause }, cores := t.cores, nextId := max s.nextId (k.id + 1)
                 peerData := s.peerData.filter (fun d => d.op != k.id) } ∧
    t.here.lcause = (if ∃ d ∈ s.peerData, d.op = k.id ∧ d.refused = true then laneEvent g.lcause .peergone else g.lcause) ∧
    (∀ n, t.here.flag n = counted g f n) ∧ (∀ n, n ≠ g.core → t.core n = s.core n) ∧
    t.core g.core = { c with cmds := c.cmds ++ [k], locks := c.locks ++ locks }

/-- A control word whose fields a command of the kind takes (R287, R294). -/
def ControlWord (s : State) (v kind : Nat) : Prop :=
  let size := s.carveSize s.here.carve
  let barrier := 16 * (v / 2 ^ 8 % 2 ^ 16)
  let index := v / 2 ^ 24 % 2 ^ 20
  let used := v / 2 ^ 3 % 4 ≠ 0
  v / 2 ^ 5 % 2 ^ 3 = 0 ∧ v / 2 ^ 44 % 2 ^ 20 = 0 ∧ (used → barrier + 16 ≤ size) ∧ (¬ used → barrier = 0) ∧
    (if kind = 1 ∨ kind = 2 then index % 4 = 0 ∧ index + 4 ≤ size else index = 0)

/-- The operation is the gang's on the pipe (R177). -/
def OwnedHere (g : Gang) (core slot block gangId : Nat) : Prop :=
  core = g.core ∧ slot = g.slot ∧ block = g.block ∧ gangId = g.gangId ∧ g.ended = false

/-- The operations, ranges and answers that the core holds have identifiers that have been given out. -/
def GivenOut (s : State) (core : Nat) : Prop :=
  (∀ o ∈ (s.core core).mq, o.id < s.nextId) ∧ (∀ l ∈ (s.core core).locks, l.cmd < s.nextId) ∧ ∀ d ∈ s.peerData, d.op < s.nextId

/-- The identifier that stands next once the word has noted its place among the gang's operations. -/
def notedId (s : State) : Nat := s.nextId + (if s.here.grp.since.isSome then 0 else 1)

end Sys2Proof.Claims

/-- R164, R169, R177, R182 to R188, R206: the matrix and delta words enter the queue of their core. -/
def Obligations.MatrixWords : Prop :=
  ∀ (s : State) (c : BitVec 5) (a b d : BitVec 6) (n t sp : BitVec 1) (f : BitVec 4) (va vb vd : Nat) (l : List Nat),
    Same s.here a va → Same s.here b vb → Same s.here d vd →
    let tile := c.toNat < (s.block s.here.block).accCount
    let slot := fun i kind => vd < 128 → RecordNamed s va → Enters i s kind vd va 0 f
    (slotList vb 8 = some l → tile → RecordNamed s va →
      Enters (.mma c a b n t sp f) s (.mma (decide (n = 1)) (decide (t = 1)) (decide (sp = 1))) c.toNat va vb f) ∧
    slot (.wload d a f) (.wload false) ∧ slot (.wloadw d a f) (.wload true) ∧ slot (.mcompS24 d a f) (.mcomp 1) ∧
    slot (.mcompS48 d a f) (.mcomp 2) ∧ (vd < 128 → Enters (.wclr d) s .wclr vd 0 0 15) ∧ (tile → Enters (.accz c) s .accz c.toNat 0 0 15) ∧
    (tile → RecordNamed s va → vb < 2 ^ 11 →
      ((∀ sl ∈ s.here.members, modeRnd (s.here.modeOf sl) = modeRnd s.here.firstMode) → Enters (.accrd c a b f) s .accrd c.toNat va vb f) ∧
      Enters (.accwr c a b f) s .accwr c.toNat va vb f) ∧
    (tile → RecordNamed s va → RecordNamed s vb → Enters (.dmma c a b f) s (.dmma false) c.toNat va vb f ∧
      Enters (.drefresh c a b f) s (.dmma true) c.toNat va vb f) ∧
    (¬ tile → f.toNat < 12 ∨ f = 15 → Faults (.accz c) s .shape ∧ (slotList vb 8 = some l → Faults (.mma c a b n t sp f) s .shape))

/-- R70, R171, R178, R181, R189: ACCCHK enters the matrix queue and waits there while an earlier operation is on its tile; then it
raises ACCSUM with the first failing row, or tells in SCC whether every row passes; after a faulting operation of its gang it is
discarded.  R196, R206: LAYER takes a legal value.  R207, R208: DINVAL makes entries absent and
their bytes of the Umbra region zero; DSTAT reads one; each waits only for delta operations issued before it.  Where an entry stands in
the region is the model's choice (log entry 67), as are the use of LAYER.ID and REFRESH whatever LAYER.EN holds and the tenant of the
supervisor gang's forms (log entry 81). -/
def Obligations.TileAndLayerForms : Prop :=
  ∀ (s : State) (c : BitVec 5) (a b d : BitVec 6) (v key : Nat) (m : Nat),
    let g := s.here
    let tile := s.accTile g.block c.toNat
    let rows := List.range 32
    let tenant := (s.block g.block).tenant
    let layer := g.layer.toNat % 2 ^ 16
    let mode := v / 2 ^ 16 % 4
    let named := fun (e : UmbraEntry) => decide (e.tenant = tenant ∧ (mode = 2 ∨ (e.layer = v % 2 ^ 16 ∧ (mode = 1 ∨ e.key = key))))
    let region := fun (e : UmbraEntry) => (s.privReg (0x800 + 0x40 * e.tenant + 7)).toNat / 2 ^ 16 % 2 ^ 36 * 65536 + e.place
    let mq := (s.core g.core).mq
    let check := matOpOf s .accchk c.toNat 0 0 15
    (c.toNat < (s.block g.block).accCount → g.grp.since = none → InSlot g → GivenOut s g.core → (s.core g.core).admits check = true →
      ((∀ o ∈ mq, o.tile ≠ some (g.block, c.toNat) ∧ (o.started = true ∨ o.kind = .accchk)) →
        ((∀ d ∈ g.deferred ++ g.taken.toList, d.engine = true ∨ s.nextId ≤ d.op) →
          (tile.failing rows = none → ∃ t, exec (.accchk c) s = .next t ∧ SetsScc s t (rows.all (fun m => tile.judge m == 0)) ∧
            t = { s with here := t.here, cores := t.cores, nextId := s.nextId + 1 } ∧ ∀ n, t.core n = s.core n) ∧
          (tile.failing rows = some m → ∃ u : State, exec (.accchk c) s = .next (u.precise .accsum 0 m) ∧ (∀ n, u.core n = s.core n) ∧
            u = { s with here := { g with grp := { g.grp with since := some s.nextId } }, cores := u.cores, nextId := s.nextId + 1 })) ∧
        ((∃ d ∈ g.deferred ++ g.taken.toList, d.engine = false ∧ d.op < s.nextId) → ∃ t, exec (.accchk c) s = .next t ∧
          t = { s with here := passed g [], cores := t.cores, nextId := s.nextId + 1 } ∧ ∀ n, t.core n = s.core n)) ∧
      ((∃ o ∈ mq, o.tile = some (g.block, c.toNat)) → ∃ t, exec (.accchk c) s = .next t ∧ SameMemory s t ∧
        t = { s with here := { g with grp := { g.grp with since := some s.nextId, wait := .stalled } }, cores := t.cores, nextId := s.nextId + 1 } ∧
        (∀ n, n ≠ g.core → t.core n = s.core n) ∧ t.core g.core = { s.core g.core with mq := mq ++ [check] })) ∧
    (Same g a v → v < 2 ^ 33 → (2 ^ 32 ≤ v → v / 2 ^ 24 % 2 ^ 8 ≠ 0) →
      exec (.layer a) s = .next { s with here := { passed g [] with layer := BitVec.ofNat 64 v } }) ∧
    (Same g a v → ¬ (v < 2 ^ 33 ∧ (2 ^ 32 ≤ v → v / 2 ^ 24 % 2 ^ 8 ≠ 0)) → Faults (.layer a) s .illegal) ∧
    (Same g a v → Same g b key → v < 2 ^ 18 → mode ≠ 3 → (∀ e ∈ s.cores, ∀ o ∈ e.2.mq, o.isDelta = false) → (∀ o ∈ mq, o.isDelta = false) →
      ∃ t, exec (.dinval a b) s = .next t ∧
        t = { s with here := passed g [], nextId := notedId s, umbra := s.umbra.filter (fun e => !named e), mem := t.mem } ∧
        ∀ x, t.byte x = if ∃ e ∈ s.umbra, named e = true ∧ region e ≤ x ∧ x < region e + 9216 + 12288 * e.slots.length then 0 else s.byte x) ∧
    (Same g a v → Same g b key → (2 ^ 18 ≤ v ∨ mode = 3) → Faults (.dinval a b) s .shape) ∧
    (Same g a key → (∀ o ∈ mq, o.isDelta = true → g.grp.since.getD s.nextId ≤ o.id) →
      let reads := fun (v : Nat) (p : Bool) => ∃ t, exec (.dstat d a) s = .next t ∧
        (∀ sl r, r < 64 → t.here.sreg sl r = if sl ∈ g.members ∧ r = d.toNat ∧ r ≠ 0 then BitVec.ofNat 64 v else g.sreg sl r) ∧
        (∀ sl < 16, t.here.sccOf sl = if sl ∈ g.members then p else g.sccOf sl) ∧
        t = { s with here := { passed g [] with s := t.here.s, scc := t.here.scc }, nextId := notedId s }
      (s.umbra.find? (fun e => decide (e.tenant = tenant ∧ e.layer = layer ∧ e.key = key)) = none →
        reads 0 false) ∧
      ∀ e, s.umbra.find? (fun e => decide (e.tenant = tenant ∧ e.layer = layer ∧ e.key = key)) = some e →
        let stale := (∃ p ∈ e.sources, Table.get 0 s.wsGen p.1 ≠ p.2) ∨ g.layer.toNat / 2 ^ 24 % 2 ^ 8 ≤ e.count
        (stale → reads (3 + (if e.cachedBy = some g.core then 4 else 0) +
          e.count % 256 * 2 ^ 8 + e.slots.length % 64 * 2 ^ 16 + e.lastCyc % 2 ^ 32 * 2 ^ 32) true) ∧
        (¬ stale → reads (1 + (if e.cachedBy = some g.core then 4 else 0) +
          e.count % 256 * 2 ^ 8 + e.slots.length % 64 * 2 ^ 16 + e.lastCyc % 2 ^ 32 * 2 ^ 32) true))

namespace Sys2Proof.Claims

/-- The value of a dyadic number. -/
def dyadic (x : Dy) : Rat := (x.m : Rat) * 2 ^ x.e

/-- The value of a finite number. -/
def finite : Sys2Proof.Machine.Num → Option Rat
  | .fin s n d => some ((Sys2Proof.Machine.Num.numer s n : Rat) / (d : Rat))
  | _ => none

/-- A rational number truncated toward zero. -/
def towardZero (x : Rat) : Int := x.num.tdiv x.den

/-- A group of elements aligned with the quantum 2 to the `q` (R166): for the integer formats it is 1, for the 4-bit ones a half, and else
that of the largest exponent of a finite element, at least emin, less the magnitude bits of the format. -/
def AlignsWith (fmt : Nat) (xs : List Sys2Proof.Machine.Num) (q : Int) : Prop :=
  if fmt = 12 ∨ fmt = 13 then q = 0
  else if fmt = 5 ∨ fmt = 6 then q = -1
  else
    let top := q + ((planesOf fmt).getD 0 : Nat) - 1
    eminOf fmt ≤ top ∧ (∀ s n d, Sys2Proof.Machine.Num.fin s n d ∈ xs → n ≠ 0 → d ≠ 0 → (n : Rat) / d < 2 ^ (top + 1)) ∧
      (top = eminOf fmt ∨ ∃ s n d, Sys2Proof.Machine.Num.fin s n d ∈ xs ∧ n ≠ 0 ∧ d ≠ 0 ∧ (2 : Rat) ^ top ≤ (n : Rat) / d)

/-- A line of an aligned operand holds elements (R166): those of one group share its quantum and its scale, each has its value over the
quantum, truncated toward zero, or 0 and a mark where it is not finite; a position without an element holds 0. -/
def HoldsLine (al : Aligned) (fmt line len depth : Nat) (els : List (Nat × Elem)) : Prop :=
  (∀ k < depth, (∀ e ∈ els, e.1 ≠ k) → al.at_ line k = 0 ∧ al.mark line k = 0) ∧
  ∀ e ∈ els, e.1 < depth →
    let group := els.filter (fun p => decide (p.1 / len = e.1 / len))
    ∃ q : Int, AlignsWith fmt (group.map (fun p => unitValue fmt p.2.bits p.2.rec_)) q ∧
      dyadic (al.scale line (e.1 / len)) = 2 ^ q * dyadic (scaleOf fmt ((group.head?.map (fun p => p.2.rec_)).getD 0)) ∧
      match unitValue fmt e.2.bits e.2.rec_ with
      | .nan => al.at_ line e.1 = 0 ∧ al.mark line e.1 = 3
      | .inf s => al.at_ line e.1 = 0 ∧ al.mark line e.1 = if s then 2 else 1
      | .fin s n d => d ≠ 0 → al.at_ line e.1 = towardZero ((Sys2Proof.Machine.Num.numer s n : Rat) / d / 2 ^ q) ∧ al.mark line e.1 ≠ 1 ∧ al.mark line e.1 ≠ 2 ∧
          al.mark line e.1 ≠ 3

end Sys2Proof.Claims

/-- R166, R167, R168, R182: what a K-step adds.  The elements of A's rows and of a dense slot's columns are aligned by groups.  A total
is the sum over the groups of the exact sums of products, each scaled and truncated toward zero in a window of 192 bits; products
with a NaN or an infinity decide it where there are any.  The K-step adds its total, which NEG negates, to each element of the tile with one
rounding to nearest even, from +0 in the first K-step of a form with AD; an exactly zero sum is +0 and a NaN is canonical.  That an
element which alignment takes to 0 is no zero beside an infinity is read from
R168 (the model's reading, log entry 85). -/
def Sys2Proof.Claims.KStepAddsToTile : Prop :=
  (∀ (t : AccTile) (a : Aligned) (b : BSlot) (neg first check : Bool) (m c : Nat), m < 32 → c < 64 →
    (t.addStep a b neg first check).el m c =
      accumulate (if first then 0 else t.el m c) (if neg then (kstepTotal a b m c).negate else kstepTotal a b m c)) ∧
  (∀ (old : Word) (x : Sys2Proof.Machine.Num),
    let was := Fmt.f32.decode old.toNat
    (∀ s n d s' n' d', was = .fin s n d → x = .fin s' n' d' →
      let sum : Int := Sys2Proof.Machine.Num.numer s n * d' + Sys2Proof.Machine.Num.numer s' n' * d
      accumulate old x = if sum = 0 then 0 else BitVec.ofNat 32 (Fmt.f32.round .rne false (.fin (decide (sum < 0)) sum.natAbs (d * d')))) ∧
    (was = .nan ∨ x = .nan ∨ (∃ s, was = .inf s ∧ x = .inf (!s)) → accumulate old x = 0x7FC00000) ∧
    ∀ s, (was = .inf s ∧ (x = .inf s ∨ finite x ≠ none)) ∨ (x = .inf s ∧ finite was ≠ none) →
      accumulate old x = if s then 0xFF800000 else 0x7F800000) ∧
  (∀ (a : Aligned) (b : BSlot) (m c : Nat),
    let x := fun k => a.at_ m (b.logical c k)
    let y := fun k => b.data.at_ c k
    let endless := fun (mark : Nat) => mark = 1 ∨ mark = 2
    let sign := fun (v : Int) (mark : Nat) => if mark = 1 ∨ mark = 4 then (1 : Int) else if mark = 2 ∨ mark = 5 then -1 else v.sign
    let mx := fun k => a.mark m (b.logical c k)
    let my := fun k => b.data.mark c k
    let signs := fun k => sign (x k) (mx k) * sign (y k) (my k)
    let wild := fun k => k < b.depth ∧ (endless (mx k) ∨ endless (my k) ∨ mx k = 3 ∨ my k = 3)
    let invalid := fun k => wild k ∧ (mx k = 3 ∨ my k = 3 ∨ signs k = 0)
    let grow := fun (p : Bool) => ∃ k, wild k ∧ ¬ invalid k ∧ signs k = if p then -1 else 1
    let term := fun q => (((List.range 16).map (fun i => x (16 * q + i) * y (16 * q + i))).sum : Rat) * dyadic (a.scale m q) * dyadic (b.data.scale c q)
    let terms := (List.range (b.depth / 16)).map term
    ((∃ k, invalid k) ∨ (grow true ∧ grow false) → kstepTotal a b m c = .nan) ∧
    (∀ p, (∀ k, ¬ invalid k) → grow p → ¬ grow (!p) → kstepTotal a b m c = .inf p) ∧
    ((∀ k, ¬ wild k) →
      ((∀ v ∈ terms, v = 0) → finite (kstepTotal a b m c) = some 0) ∧
      ∀ e : Int, (∀ v ∈ terms, v < 2 ^ (e + 1) ∧ -v < 2 ^ (e + 1)) → (∃ v ∈ terms, 2 ^ e ≤ v ∨ 2 ^ e ≤ -v) →
        finite (kstepTotal a b m c) = some ((terms.map (fun v => (towardZero (v / 2 ^ (e - 191)) : Rat) * 2 ^ (e - 191))).sum))) ∧
  ∀ (sh : Shape) (sp : Bool) (els : List (Nat × Nat × Elem)), (planesOf sh.fmt).isSome = true → (els.map (fun e => (e.1, e.2.1))).Nodup →
    (∀ i < sh.rows, HoldsLine (alignA sh sp els) sh.fmt i (if sp then 32 else 16) (depthOf sh.fmt * if sp then 2 else 1)
      ((els.filter (fun e => e.1 == i)).map (fun e => (e.2.1, e.2.2)))) ∧
    ∀ c < sh.cols, HoldsLine (denseB sh els) sh.fmt c 16 (depthOf sh.fmt) ((els.filter (fun e => e.2.1 == c)).map (fun e => (e.1, e.2.2)))

/-- R175, R176, R184, R186: the steps of the matrix queue, of an operation of the gang on the pipe.  WCLR and
ACCZ take effect as they start; a K-step is staged into an empty row buffer and then runs its planes; ACCUMULATOR_ADD makes the next
add, and the last one completes the operation: it leaves the queue and its flag falls.  A tile takes one add in a cycle (R419). -/
def Sys2Proof.Claims.MatrixSteps : Prop :=
  ∀ (s : State) (core id : Nat) (o : MatOp) (k : KStep) (r : Nat),
    let g := s.here
    let c := s.core core
    let leaves := fun (t : State) => SameMemory s t ∧ (t.core core).mq = c.mq.filter (fun p => p.id != id) ∧ t.here.s = g.s ∧ t.here.v = g.v ∧
      ∀ n, t.here.flag n = if o.flag = some n then g.flag n - 1 else g.flag n
    OwnedHere g core o.slot o.block o.gangId → o.id = id → c.mq.find? (fun p => p.id == id) = some o →
    (s.nextMat core = some o → s.matDiscarded core o = false →
      (o.kind = .wclr → ∃ t, exec (.matrixOpStart core id) s = .next t ∧ leaves t ∧
        (t.core core).slots.find (8 * (o.target % 8) + o.target / 8 % 8) = some clearedSlot) ∧
      (o.kind = .accz → (s.blocks.find o.block).isSome = true → ∃ t, exec (.matrixOpStart core id) s = .next t ∧ leaves t ∧
        t.accTile o.block o.target = {} ∧ (t.core core).slots = c.slots)) ∧
    (c.mq.head? = some o → o.steps = [k] →
      (k.staged = none → c.rowBuffer = [] → ∃ t, exec (.rowBufferStage core id 0) s = .next t ∧ SameMemory s t ∧ t = { s with cores := t.cores } ∧
        (t.core core).rowBuffer = [{
          block := o.block, record := o.record, step := 0, sp := o.sparse, tile := k.tile, spans := o.stepSpans 0, version := o.version
          ready := s.cycle + k.staging }] ∧
        (t.core core).mq = c.mq.map (fun p => if p.id = id then { o with steps := [{ k with staged := some (s.cycle + k.staging) }] } else p)) ∧
      (k.staged = some r → r ≤ s.cycle → k.planes = none → ∃ t, exec (.kstepPlanes core id 0) s = .next t ∧ SameMemory s t ∧
        t = { s with cores := t.cores } ∧
        (t.core core).mq = c.mq.map (fun p => if p.id = id then { o with steps := [{ k with planes := some (s.cycle + k.cost) }] } else p)) ∧
      (∀ neg ad sp, o.kind = .mma neg ad sp → o.started = true → o.entry = none → k.diff = none → k.added = false → o.mismatch = 0 →
        k.planes = some r → (s.blocks.find o.block).isSome = true →
        (r + 12 ≤ s.cycle → (s.cycle, o.block, o.target) ∉ c.adds → ∃ t, exec (.accumulatorAdd core id) s = .next t ∧ leaves t ∧ (t.core core).slots = c.slots ∧
          t.accTile o.block o.target = (s.accTile o.block o.target).addStep k.tile (s.slotOf core k.desc) neg ad (k.desc.testBit 6)) ∧
        (s.cycle < r + 12 ∨ (s.cycle, o.block, o.target) ∈ c.adds → exec (.accumulatorAdd core id) s = .next s)))

/-- R193, R194, R199: an Umbra cache writes an entry back and holds it no longer where the next operation of another core needs the
entry, and only there; the window of an unavailable bank of the weight store ends at the next multiple of 1,024 cycles. -/
def Sys2Proof.Claims.UmbraAndWindows : Prop :=
  ∀ (s : State) (tenant layer key : Nat),
    let same := fun (e : UmbraEntry) => decide (e.tenant = tenant ∧ e.layer = layer ∧ e.key = key)
    let wanted := ∃ e holder c, s.umbra.find? same = some e ∧ e.cachedBy = some holder ∧ c ∈ s.cores.keys ∧ c ≠ holder ∧
      s.needsEntry c tenant layer key = true
    (wanted → exec (.umbraEntryTransfer tenant layer key) s = .next { s with
      umbra := s.umbra.map (fun e => if same e then { e with cachedBy := none } else e) }) ∧
    (¬ wanted → exec (.umbraEntryTransfer tenant layer key) s = .next s) ∧
    (∀ c, s.needsEntry c tenant layer key = true → ∃ o ∈ (s.core c).mq, o.started = false ∧ o.isDelta = true ∧ o.layer / 2 ^ 32 % 2 = 1 ∧
      o.layer % 2 ^ 16 = layer ∧ (s.block o.block).tenant = tenant) ∧
    ∃ t, exec .weightStoreWindowClose s = .next t ∧ t.cycle = (s.cycle / 1024 + 1) * 1024 ∧ SameMemory s t ∧ t.here = s.here ∧ t.ops = s.ops

/-- R166, R167, R168, R182: what a K-step adds. The elements of A's rows and of a dense slot's columns are aligned by groups. A
total is the sum over the groups of the exact sums of products, each scaled and truncated toward zero in a window of 192 bits;
products with a NaN or an infinity decide it where there are any. The K-step adds its total, which NEG negates, to each element
of the tile with one rounding to nearest even, from +0 in the first K-step of a form with AD; an exactly zero sum is +0 and a
NaN is canonical. That an element which alignment takes to 0 is no zero beside an infinity is read from R168 (the model's
reading, log entry 85). R175, R176, R184, R186: the steps of the matrix queue, of an operation of the gang on the pipe. WCLR and
ACCZ take effect as they start; a K-step is staged into an empty row buffer and then runs its planes; ACCUMULATOR_ADD makes the
next add, and the last one completes the operation: it leaves the queue and its flag falls. A tile takes one add in a cycle
(R419). R193, R194, R199: an Umbra cache writes an entry back and holds it no longer where the next operation of another core
needs the entry, and only there; the window of an unavailable bank of the weight store ends at the next multiple of 1,024
cycles. -/
def Obligations.MatrixQueueSteps : Prop := Claims.KStepAddsToTile ∧ Claims.MatrixSteps ∧ Claims.UmbraAndWindows

/-- R277, R283, R287, R293, R294: the COPY forms enter the copy engine with their ranges registered; a control word or a record
address that they do not take raises SHAPE or MISALIGN. -/
def Sys2Proof.Claims.CopyWords : Prop :=
  ∀ (s : State) (d a b : BitVec 6) (f : BitVec 4) (vd va vb : Nat), Same s.here d vd → Same s.here a va → Same s.here b vb →
    let ready := fun kind => ControlWord s vb kind ∧ RecordNamed s vd ∧ (kind ≠ 3 → RecordNamed s va)
    (ready 0 → EntersCopy (.acopy d a b f) s 0 vd va vb f) ∧ (ready 1 → EntersCopy (.agath d a b f) s 1 vd va vb f) ∧
    (ready 2 → EntersCopy (.ascat d a b f) s 2 vd va vb f) ∧ (ready 3 → EntersCopy (.afill d a b f) s 3 vd va vb f) ∧
    (f.toNat < 12 ∨ f = 15 → (¬ ControlWord s vb 0 → Faults (.acopy d a b f) s .shape) ∧ (¬ ControlWord s vb 3 → Faults (.afill d a b f) s .shape) ∧
      (ControlWord s vb 0 → vd < 2 ^ 49 → vd % 64 ≠ 0 → exec (.acopy d a b f) s = .next (s.precise .misalign vd)))

namespace Sys2Proof.Claims

/-- A granule of a command of the gang on the pipe has landed, with the bytes `w` in the scratchpad `own`: its payload counts into CWPn,
its destination lock shrinks, with BAREN its bytes land at the barrier object; with the last one the command counts, arrives at the
object where ARRIVE asks for it, leaves the engine, releases its ranges and lowers its flag (R279, R281, R282, R284, R293). -/
def GranuleLands (s t : State) (core : Nat) (k : CopyCmd) (own : Carve) (w : List ByteWrite) : Prop :=
  let g := s.here
  let c := s.core core
  let n := k.payload (k.granule k.next).length
  let v := (Table.get 0 (s.block k.block).cwp k.chan).toNat
  let last := k.total ≤ (k.next + 1) * k.perGranule
  let after := { k with next := k.next + 1, sent := false, peerAcks := [] }
  let mine := (s.copyReader core k).carve
  let o := s.barrier mine k.barrier
  let o1 := if k.counts then ({ o with bytesLanded := min (2 ^ 32 - 1) (o.bytesLanded + n) } : Barrier).test else o
  let o2 := if last ∧ k.arrives then ({ o1 with arrived := min 65535 (o1.arrived + 1) } : Barrier).test else o1
  let updates := k.counts = true ∨ (last ∧ k.arrives = true)
  SameMemory s t ∧
  (t.core core).cmds = (if last then c.cmds.filter (fun p => p.id != k.id) else c.cmds.map (fun p => if p.id = k.id then after else p)) ∧
  (t.core core).locks = (if last then (c.shrinkLock after).locks.filter (fun l => l.cmd != k.id) else (c.shrinkLock after).locks) ∧
  (∀ b ∈ w, t.sbyte own b.addr = (s.sbyte own b.addr &&& ~~~b.mask) ||| (b.value &&& b.mask)) ∧
  (∀ z x, (z = own → ∀ b ∈ w, b.addr ≠ x) → (updates → z = mine → x < k.barrier ∨ k.barrier + 16 ≤ x) → t.sbyte z x = s.sbyte z x) ∧
  (updates → t.barrier mine k.barrier = o2 ∧ t.phaseTs mine k.barrier = max (s.phaseTs mine k.barrier) k.wts) ∧
  Table.get 0 (t.block k.block).cwp k.chan =
    BitVec.ofNat 64 ((v + n) % 2 ^ 48 + (v / 2 ^ 48 % 2 ^ 8 + if last then 1 else 0) % 256 * 2 ^ 48 + v / 2 ^ 56 * 2 ^ 56) ∧
  ∀ m, t.here.flag m = if last ∧ k.flag = some m then g.flag m - 1 else g.flag m

end Sys2Proof.Claims

/-- R277 to R279, R281, R282, R284, R288, R293: a command of the gang on the pipe, of any kind, starts once no earlier command of its channel is there and
its records read well; what its records and its index list show raises the gang's clock and floors, and nothing that it copies does (R244).  A
granule for a scratchpad lands at once; one for global memory enters the dirty-line FIFO as relaxed stores, and lands once they are
acknowledged.  With BAREN each granule's bytes count into the barrier object, and with ARRIVE the last one arrives there. -/
def Sys2Proof.Claims.CopySteps : Prop :=
  ∀ (s : State) (core id : Nat) (k k' : CopyCmd) (sc : Scan) (ds : Side) (ss : Option Side) (w : List ByteWrite) (own : Carve),
    let g := s.here
    let c := s.core core
    let r := { s.copyReader core k with weak := k.gathers }
    let mine := (s.copyReader core k).carve
    let writes := (match k.src with
        | none => some none
        | some x => (s.sideOf core k x).map some) = some ss ∧ k.dst.bind (s.sideOf core k) = some ds ∧ ds.gone = false ∧
      (∃ q, r.granuleWrites k ds ss { s := s } k.next = .ok q ∧ q = (w, { s := s })) ∧ (w.map ByteWrite.addr).Nodup
    OwnedHere g core k.slot k.block k.gangId → k.id = id → c.cmds.find? (fun p => p.id == id) = some k → k.stopping = false →
    (k.started = false → s.cmdHeld core k = false → (∀ d ∈ g.deferred ++ g.taken.toList, d.engine = false ∨ id ≤ d.op) →
      (∃ q, (s.recordReader core k).startCopy r s k = .ok q ∧ q = ((k', []), sc)) → sc.s = s → k'.id = id → sc.gone = false →
      ∃ t, exec (.engineCommandStart core id) s = .next t ∧
        t = { s with cores := t.cores, here := { raised g sc.wts with floors := t.here.floors } } ∧
        (∀ line, Table.get 0 g.floors line ≤ Table.get 0 t.here.floors line ∧
          ((∀ e ∈ sc.seen, e.1 ≠ line) → Table.get 0 t.here.floors line = Table.get 0 g.floors line)) ∧
        (∀ e ∈ sc.seen, e.2 ≤ Table.get 0 t.here.floors e.1) ∧
        (∀ n, n ≠ core → t.core n = s.core n) ∧ t.core core = { c with cmds := c.cmds.map (fun p => if p.id = id then k' else p) }) ∧
    (k.started = true → k.sent = false → s.enginesHeld k.block = false → writes → ds.carve = some own → g.slot ≠ 48 →
      (s.blocks.find k.block).isSome = true → (k.counts = true ∨ k.arrives = true → own = mine → ∀ b ∈ w, b.addr < k.barrier ∨ k.barrier + 16 ≤ b.addr) →
      ∃ t, exec (.granuleLand core id) s = .next t ∧ GranuleLands s t core k own w) ∧
    (k.started = true → k.sent = false → s.enginesHeld k.block = false → writes → ds.carve = none →
      (∀ b ∈ w, regionOf (64 * (b.addr / 64)) ≠ .peer ∧ s.hostOwns (b.addr / 64) = false) →
      ∃ t, exec (.granuleLand core id) s = .next t ∧ SameMemory s t ∧ t.here = g ∧ (t.core core).locks = c.locks ∧
        (t.core core).cmds = c.cmds.map (fun p => if p.id = id then { k with sent := true, peerAcks := [] } else p) ∧
        ∀ b ∈ w, ∃ e ∈ (t.core core).fifo, e.line = b.addr / 64 ∧ id ∈ e.engines ∧ k.pts ≤ e.pts ∧ e.reach = 0 ∧
          BitVec.ofNat 8 (e.data.toNat / 2 ^ (8 * (b.addr % 64))) &&& b.mask = b.value &&& b.mask) ∧
    (k.started = true → k.sent = true → k.peerAcks = [] → (∀ e ∈ c.fifo, id ∉ e.engines) → g.slot ≠ 48 → (s.blocks.find k.block).isSome = true →
      ∃ t, exec (.granuleLand core id) s = .next t ∧ GranuleLands s t core k mine [])

/-- R277, R283, R287, R293, R294: the COPY forms enter the copy engine with their ranges registered; a control word or a record
address that they do not take raises SHAPE or MISALIGN. R277 to R279, R281, R282, R284, R288, R293: a command of the gang on the
pipe, of any kind, starts once no earlier command of its channel is there and its records read well; what its records and its
index list show raises the gang's clock and floors, and nothing that it copies does (R244). A granule for a scratchpad lands at
once; one for global memory enters the dirty-line FIFO as relaxed stores, and lands once they are acknowledged. With BAREN each
granule's bytes count into the barrier object, and with ARRIVE the last one arrives there. -/
def Obligations.CopyEngineForms : Prop := Claims.CopyWords ∧ Claims.CopySteps

/-! ## Launches, dispatch and the ends of blocks (13_scheduling.md, 15_isolation.md) -/

namespace Sys2Proof.Claims

/-- Gang `i` of a block as a launch or a task starts it: at the kernel's entry with its role and granules, its block's registers
in S1 to S3 of every slice, EXEC and the slices that start exited by the block's lanes, and every other register zero: M1 to M15, the
vector registers, MODE, SCC, NARROW, SEED, LAYER, WAKEWHY, LFAULT and LCAUSE among them (R28, R31, R42, R94). -/
def FreshGang (h : Gang) (d : Descriptor) (i arg linear count pts ats : Nat) : Prop :=
  h.gangId = i ∧ (h.role, h.granules) = d.roles.getD i (0, 0) ∧ h.grp.pc = BitVec.ofNat 64 d.entry ∧ h.grp.run = none ∧ h.grp.wait = .ready ∧ h.parted = [] ∧ h.stop = .none ∧ h.v = [] ∧
  h.flags = [] ∧ h.mode = [] ∧ h.scc = 0 ∧ h.pts = pts ∧ h.ats = ats ∧ h.owedRebases = 0 ∧ h.narrow = 0 ∧ h.seed = 0 ∧ h.layer = 0 ∧ h.wakewhy = 0 ∧
  h.lfault = 0 ∧ h.lcause = 0 ∧ h.deferred = [] ∧ h.halted = false ∧ (∀ k, k ≠ 0 → k < 16 → h.mask k = 0) ∧
  (∀ sl r, sl < 16 → r < 64 → h.sreg sl r =
    BitVec.ofNat 64 (if r = 1 then arg else if r = 2 then linear else if r = 3 then count else 0)) ∧
  (∀ l < 64, (h.mask 0).getLsbD l = decide (64 * i + l < d.lanes)) ∧
  (∀ sl < 16, h.exited.getLsbD sl = decide (d.lanes ≤ 64 * i + 4 * sl)) ∧
  h.grp.slices = ~~~h.exited

/-- The gangs of a block that satisfy `p`, given a gang's place in the block, come to user slots of the core that were free;
the slots that held a gang keep it (R30). -/
def SeatsGangs (s t : State) (core key gangs : Nat) (p : Nat → Gang → Prop) : Prop :=
  (∀ i < gangs, ∃ n h, n < 48 ∧ s.gang core n = none ∧ t.gang core n = some h ∧ h.core = core ∧ h.slot = n ∧ h.block = key ∧ p i h) ∧
  ∀ m < 64, (s.gang core m).isSome = true → t.gang core m = s.gang core m

/-- A block starts on a core: its gangs stand in user slots that were free, the block is resident with its carve-out and tiles,
the core's clock runs, and it fetches anew (R30, R42, R222, R318). -/
def StartsBlock (s t : State) (core key : Nat) (d : Descriptor) (arg linear count pts ats : Nat) : Prop :=
  SeatsGangs s t core key (d.gm1 + 1) (fun i h => FreshGang h d i arg linear count pts ats) ∧
  (∃ b, t.blocks.find key = some b ∧ b.core = core ∧ b.linear = linear ∧ b.count = count ∧ b.gangCount = d.gm1 + 1 ∧
    b.live = 2 ^ (d.gm1 + 1) - 1 ∧ b.ended = false ∧ b.scratchSize = d.scratch ∧ b.accCount = d.accs) ∧
  (t.core core).gated = false ∧ (t.core core).icache = [] ∧ SameMemory s t

/-- A gang that comes back from the phase record `x` with the acquire of its grid phase: each register and field of the record
stands where R49 puts it, and each slice that has not exited goes on at its own program counter (R48, R49, R332). -/
def ReturnsFrom (h : Gang) (d : Descriptor) (x clock : Nat) : Prop :=
  let at0 := fun (byte n : Nat) => x / 2 ^ (8 * byte) % 2 ^ (8 * n)
  h.role = (d.roles.getD h.gangId (0, 0)).1 ∧ h.granules = max (d.roles.getD h.gangId (0, 0)).2 ((d.carry + 7) / 8) ∧
  h.exited.toNat = x / 2 ^ 39 % 2 ^ 16 ∧ h.narrow.toNat = at0 8 8 ∧ h.seed.toNat = at0 0x18 8 ∧ h.layer.toNat = at0 0x20 8 ∧
  h.pts = clock ∧ h.ats = clock ∧ h.wakewhy = 64 ∧ h.stop = .none ∧ h.flags = [] ∧
  (∀ k < 16, (h.mask k).toNat = at0 (0x140 + 8 * k) 8) ∧
  (∀ k l, l < 64 → (h.vword k l).toNat = if k < d.carry then at0 (0x2200 + 4 * (64 * k + l)) 4 else 0) ∧
  ∀ sl < 16, h.sccOf sl = x.testBit (8 * (0x4C + 16 * sl)) ∧ (h.modeOf sl).toNat = at0 (0x48 + 16 * sl) 4 ∧
    (∀ r < 64, (h.sreg sl r).toNat = if r = 0 then 0 else at0 (0x200 + 8 * (64 * sl + r)) 8) ∧
    (h.exited.getLsbD sl = false → ∃ p ∈ h.groups, p.slices.getLsbD sl = true ∧ p.run = none ∧ p.wait = .ready ∧
      p.pc.toNat = at0 (0x40 + 16 * sl) 8)

/-- The next stop on the ring by which a packet leaves a stop: rows and columns of the die's torus of 8 × 8 stops (R18). -/
def StopAfter (stop dir : Nat) : Nat :=
  if dir = 1 then stop / 8 * 8 + (stop + 1) % 8 else if dir = 2 then stop / 8 * 8 + (stop + 7) % 8
  else if dir = 3 then stop / 64 * 64 + (stop + 8) % 64 else stop / 64 * 64 + (stop + 56) % 64

/-- Whether a packet competes for a port: it wants it, and the bubble rule lets it advance, on its ring into a free buffer of the next
stop, or into a ring of which its stop has two free buffers, where the next stop has one for it (R19, R319). -/
def competes (s : State) (port : Nat) (p : Packet) : Bool :=
  let d := p.path.headD 0
  let free := fun (stop : Nat) => Config.ringBuffers - (s.packets.filter (fun q => q.stop == stop && q.input == d)).length
  8 * p.stop + d == port && (decide (p.path.length ≤ 1) || decide (1 ≤ free (StopAfter p.stop d) ∧ (p.input = d ∨ 2 ≤ free p.stop)))

/-- Whether a packet goes before another at a port (R319). -/
def GoesBefore (p q : Packet) : Prop :=
  if p.age = 255 ∨ q.age = 255 then p.age = 255 ∧ (q.age ≠ 255 ∨ p.input < q.input)
  else q.cls < p.cls ∨ (p.cls = q.cls ∧ (q.age < p.age ∨ (p.age = q.age ∧ p.input < q.input)))

end Sys2Proof.Claims

/-- R299, R377: a write to a launch window queues a launch record, or sets the sticky bit that says why not: BADADDR, OFF or FULL;
a write of the status register clears the sticky bits that it names.  R300, R301, R299: a record that passes every check becomes
a running launch whose gangs will start with the largest wts of its reads; one whose descriptor is malformed is rejected with
BADREC. -/
def Obligations.LaunchWindows : Prop :=
  ∀ (s s1 s2 s3 : State) (ten q va v key lo hi y w1 w2 w3 a a2 : Nat) (l : Launch) (d : Descriptor),
    let at0 := 0x100000 + 0x1000 * (4 * ten + q) + 8
    let sticky := fun (i : Instr) (bit : Nat) => ∃ t, exec i s = .next t ∧ t = { s with bar := t.bar } ∧
      t.barReg at0 = s.barReg at0 ||| 2 ^ bit ∧ ∀ off, off ≠ at0 → t.barReg off = s.barReg off
    let ok := va % 128 = 0 ∧ va < 2 ^ 49
    let on := s.tenantState ten = 1 ∨ s.tenantState ten = 2
    ten < 16 → q < 4 →
    (ok → on → s.depth ten q < 256 → exec (.launch ten q va) s = .next { s with
      launches := s.launches.insert s.nextId { tenant := ten, queue := q, order := s.nextId, record := va }, nextId := s.nextId + 1 }) ∧
    (¬ ok → sticky (.launch ten q va) 18) ∧ (ok → ¬ on → sticky (.launch ten q va) 17) ∧
    (ok → on → 256 ≤ s.depth ten q → sticky (.launch ten q va) 16) ∧
    (∃ t, exec (.launchWindowStatusWrite ten q v) s = .next t ∧ t = { s with bar := t.bar } ∧
      (∀ b, (t.barReg at0).testBit b = (decide (16 ≤ b ∧ b < 19) && (s.barReg at0).testBit b && !v.testBit b)) ∧
      ∀ off, off ≠ at0 → t.barReg off = s.barReg off) ∧
    (s.launches.find? (fun e => e.2.tenant == ten && e.2.queue == q && e.2.stage == .queued) = some (key, l) → s.tenantState ten = 1 →
      s.mgmt.error = none → s.arenaOwned ten = false → s.readTenant ten 0 l.record 64 = .ok (lo, w1, s1) →
      s1.walkHeld ten (lo / 2 ^ 320 % 2 ^ 64) = false → s1.walkHeld ten (lo % 2 ^ 64 + 127) = false →
      s1.deviceTranslate ten (lo / 2 ^ 320 % 2 ^ 64) .store = .ok a → s1.readTenant ten 0 (l.record + 64) 64 = .ok (hi, w2, s2) →
      s2.deviceTranslate ten (lo % 2 ^ 64 + 127) .load = .ok a2 → s2.readTenant ten 0 (lo % 2 ^ 64) 128 = .ok (y, w3, s3) →
      let x := lo + hi * 2 ^ 512
      let clock := max w1 (max w2 w3)
      let place := if d.ephv then d.eph.getD 4 0 else x / 2 ^ 768 % 2 ^ 64
      let ranks := lo / 2 ^ 196 % 4 + 1
      let cores := s3.allowedCores l.tenant place ranks
      (parseDescriptor y = some d → x % 2 ^ 64 % 128 = 0 → launchRecordOk x d (s3.tenantClusters l.tenant) = true → d.granules ≤ 252 →
        d.scratch ≤ 131072 * (lo / 2 ^ 192 % 8) → cores ≠ [] → (d.gridbar = false ∨ d.phased = true) →
        ∃ t, exec (.launchAdmit ten q) s = .next t ∧ t = { s3 with launches := t.launches } ∧
          (∀ k, k ≠ key → t.launches.find k = s3.launches.find k) ∧ (t.launch key).stage = .running ∧ (t.launch key).desc = some d ∧
          (t.launch key).pts = clock ∧ (t.launch key).largest = clock ∧ (t.launch key).arg = lo / 2 ^ 64 % 2 ^ 64 ∧
          (t.launch key).blocks = lo / 2 ^ 128 % 2 ^ 16 * (lo / 2 ^ 144 % 2 ^ 16) * (lo / 2 ^ 160 % 2 ^ 16) ∧
          (t.launch key).lid = lo / 2 ^ 224 % 2 ^ 32 ∧ (t.launch key).cpl = lo / 2 ^ 320 % 2 ^ 64) ∧
      (parseDescriptor y = none → ∃ t, exec (.launchAdmit ten q) s = .next t ∧ (t.launch key).stage = .complete ∧
        (t.launch key).status = 1))

/-- R30, R31, R42, R46, R94, R303 to R307, R387: the next block, or cluster, of a launch, of a task or of a handler starts on a core
that can take it and on which nothing precedes it; a launch listed with several cores starts a unit on each in turn.  The gangs of a task or handler start with
ATS the wts of the POST, and PTS that or the timestamp of the phase that met the card's dependence.  R47 to R49:
the next block, or cluster, of a later phase is placed from its records, each gang as its record says; where a record cannot be
read, or fails its check, the launch stops; rebases made since a record was written lower its clock (R242). -/
def Obligations.BlocksAndTasksStart : Prop :=
  ∀ (s : State) (key core i split dep : Nat) (ids cores : List Nat) (l : Launch) (j : Job) (d : Descriptor) (addr : Nat → Nat → Nat),
    (s.launches.find key = some l → l.desc = some d → l.phase = 0 → (l.atOnce = true → l.blocks = l.ranks) → l.nextUnit = some (i, ids) →
      s.launchReady key l = true → s.unitFits l core = true → s.outranked (s.launchRank l) (unitCores l.ranks [core]) = false →
      ∃ t, exec (.blockDispatch key [core]) s = .next t ∧ (t.launch key).started = i + l.ranks ∧ t.nextId = s.nextId + ids.length ∧
        ∀ n < ids.length, StartsBlock s t (l.coreOf core (ids.getD n 0)) (s.nextId + n) d l.arg (ids.getD n 0) l.blocks l.pts l.pts ∧
          (t.launch key).blockKeys.find (ids.getD n 0) = some (s.nextId + n)) ∧
    (s.launches.find key = some l → l.phase = 0 → (l.atOnce = true → cores.length * l.ranks = l.blocks) → s.launchReady key l = true →
      s.outranked (s.launchRank l) (unitCores l.ranks cores) = false →
      exec (.blockDispatch key cores) s = .next ((s.startUnits key cores).getD s)) ∧
    (s.jobs.find key = some j → j.place = .queue → s.dependence j = some dep → s.jobReady key j = true →
      s.jobDescriptor j = some (d, split) → s.jobFits j core = true → s.outranked j.rank (unitCores j.ranks [core]) = false →
      let starts := fun (i : Instr) => ∃ t m, exec i s = .next t ∧
        t.jobs.find key = some { j with
          place := .running, desc := some d, met := some dep, started := j.started + j.ranks, mirror := m } ∧
        (j.ranks = 1 → StartsBlock s t core s.nextId d j.arg j.started j.blocks (max j.pts dep) j.pts) ∧
        (2 ≤ j.ranks → ∀ n < j.ranks, StartsBlock s t (4 * j.cluster + (j.started + n) % j.ranks) (s.nextId + n) d j.arg (j.started + n) j.blocks
          (max j.pts dep) j.pts)
      (j.launch ≠ none → starts (.taskDispatch key core) ∧ exec (.handlerDispatch key core) s = .next s) ∧
      (j.launch = none → starts (.handlerDispatch key core) ∧ exec (.taskDispatch key core) s = .next s)) ∧
    (s.jobs.find key = some j → j.launch ≠ none → s.jobReady key j = true → s.jobDescriptor j = none →
      ∃ t, exec (.taskDispatch key core) s = .next t ∧ t.jobs.find key = none) ∧
    (s.launches.find key = some l → l.phase ≠ 0 → s.launchReady key l = true → s.unitFits l core = true →
      s.outranked (s.launchRank l) (unitCores l.ranks [core]) = false →
      let bytes := phaseBytes d.carry
      let va := fun id n => l.phbase + (id * (d.gm1 + 1) + n) * 0x8000
      let blockKey := fun id => (l.blockKeys.find id).getD 0
      let lines := fun id n => List.range' (addr id n / 64) ((addr id n + bytes + 63) / 64 - addr id n / 64)
      (l.desc = some d → l.nextUnit = some (i, ids) → (ids.map blockKey).Nodup →
        (∀ id ∈ ids, ∀ n ≤ d.gm1, s.walkHeld l.tenant (va id n) = false ∧ (∃ r, s.deviceTranslate l.tenant (va id n) .load = .ok r ∧ r = addr id n) ∧
          (∀ x ∈ lines id n, SoundLine s x) ∧
          recordCheck (s.read (addr id n) bytes) (checkedHalves d.carry) = s.read (addr id n) bytes / 2 ^ 496 % 2 ^ 16) →
        ∃ t, exec (.phaseRedispatch key core) s = .next t ∧ SameMemory s t ∧ (t.launch key).started = i + l.ranks ∧
          ∀ id ∈ ids, let c := l.coreOf core id
            (∃ b, t.blocks.find (blockKey id) = some b ∧ b.core = c ∧ b.linear = id ∧ b.launch = key ∧ b.ended = false ∧
              b.scratchSize = d.scratch ∧ b.accCount = d.accs) ∧
            ∀ n ≤ d.gm1, let x := s.read (addr id n) bytes
              x / 2 ^ 39 % 2 ^ 16 ≠ 0xFFFF → ∃ m h, m < 48 ∧ s.gang c m = none ∧ t.gang c m = some h ∧ h.block = blockKey id ∧ h.gangId = n ∧
                ReturnsFrom h d x (max (x / 2 ^ 128 % 2 ^ 32 - 0x80000000 * (s.rebases - Table.get 0 l.recordAge (id * (d.gm1 + 1) + n))) (max ((lines id n).foldl (fun w a => max w (s.home a).wts) 0) l.gridTs))) ∧
      (∀ c, (∃ r, s.resumeUnit key core = .error r ∧ r = c) → exec (.phaseRedispatch key core) s = .next (s.stopLaunch key c none)))

/-- R33, R302, R305: a gang whose slices have all exited, with nothing of it incomplete, leaves its slot; a block without live gangs or
engine work ends and leaves its core, and after the last block of a task its DONECTR rises by 1 once its stores are home; a launch whose blocks have ended and whose stores are home writes its completion record.
R47, R48, R326: a block of a phased kernel that stands whole at its boundary leaves its core with its records written and its watches
armed.  The bytes of an ended block's carve-out stay until it is given to another block (R215). -/
def Obligations.GangsAndBlocksEnd : Prop :=
  ∀ (s u : State) (core slot key a jk m : Nat) (g : Gang) (b : Block) (l : Launch) (d : Descriptor) (j : Job),
    (s.gang core slot = some g → slot < 48 → g.core = core → g.slot = slot → g.exited = BitVec.allOnes 16 → g.deferred = [] → g.stop = .none →
      (∀ o ∈ s.ops, o.gang ≠ g.key) → s.engineWork core g.block g.gangId = false → s.blocks.find g.block = some b →
      s.launches.find b.launch = some l →
      ∃ t, exec (.gangEnd core slot) s = .next t ∧ t.gang core slot = none ∧ SameMemory s t ∧
        t.blocks.find g.block = some { b with live := b.live &&& (2 ^ 16 - 1 - 2 ^ g.gangId), causes := Table.set 0 b.causes g.gangId g.lcause.toNat } ∧
        (t.launch b.launch).largest = max l.largest g.ptsNow) ∧
    (s.blocks.find key = some b → b.ended = false → b.live = 0 → (∀ k ∈ (s.core b.core).cmds, k.block ≠ key) →
      (∀ o ∈ (s.core b.core).mq, o.block ≠ key) → b.job = none → s.launches.find b.launch = some l →
      (∀ i, Table.get 0 b.causes i / 2 ^ 8 % 2 ^ 8 = 0) →
      ∃ t, exec (.blockEnd key) s = .next t ∧ SameMemory s t ∧ t.here = s.here ∧
        t.blocks.find key = some { b with ended := true, accs := [], accCount := 0 } ∧
        (∀ w ∈ t.watches, w.block ≠ key) ∧ (t.launch b.launch).ended = l.ended + 1 ∧ (t.launch b.launch).endedIds = l.endedIds ++ [b.linear]) ∧
    (s.blocks.find key = some b → b.ended = false → b.live = 0 → (∀ k ∈ (s.core b.core).cmds, k.block ≠ key) →
      (∀ o ∈ (s.core b.core).mq, o.block ≠ key) → b.job = some jk → s.jobs.find jk = some j →
      (∀ i, Table.get 0 b.causes i / 2 ^ 8 % 2 ^ 8 = 0) →
      ∃ t, exec (.blockEnd key) s = .next t ∧ SameMemory s t ∧ (∃ c, t.blocks.find key = some c ∧ c.ended = true) ∧
        t.jobs.find jk = some { j with ended := j.ended + 1, doneMark := if j.ended + 1 < j.blocks then none else some s.nextId }) ∧
    (s.blocks.find key = some b → b.ended = true → b.job = some jk → s.jobs.find jk = some j → j.doneMark = some m → s.counterWaits j = false →
      (∀ e ∈ s.cores, ∀ it ∈ e.2.fifo, m ≤ it.id ∨ j.launch.getD 0 ∉ it.launches) →
      ∃ t, exec (.blockEnd key) s = .next t ∧ t.jobs.find jk = none ∧ (j.donectr = 0 → SameMemory s t) ∧
        (j.donectr ≠ 0 → (∃ r, s.deviceTranslate j.tenant j.donectr .atomic = .ok r ∧ r = a) → a % 8 = 0 → SoundLine s (a / 64) → Wrote s t a 8 (s.read a 8 + 1))) ∧
    (s.blocks.find key = some b → b.ended = false → b.job = none → s.launches.find b.launch = some l → l.desc = some d → d.phased = true →
      s.gangsOf key ≠ [] → (∀ g ∈ s.gangsOf key, g.remaining ≠ 0 ∧ s.atPhaseEnd g l.phase = true) → (∀ k ∈ (s.core b.core).cmds, k.block ≠ key) →
      (∀ o ∈ (s.core b.core).mq, o.block ≠ key) → s.recordsHeld l b = false → (∃ q, s.writeRecords l b d.carry (s.gangsOf key) = .ok q ∧ q = u) →
      (∀ i, Table.get 0 b.causes i / 2 ^ 8 % 2 ^ 8 = 0) → (∀ g ∈ s.gangsOf key, g.lcause.toNat / 2 ^ 8 % 2 ^ 8 = 0) →
      ∃ t, exec (.phaseEnd key) s = .next t ∧ t.blocks.find key = none ∧ SameMemory u t ∧ t.watches = u.watches ∧ t.arrivals = u.arrivals ∧
        ∀ g ∈ s.gangsOf key, t.gang g.core g.slot = none) ∧
    (s.launches.find key = some l → l.stage = .running → l.aborted = false → l.stopping = none → l.fault = none → s.mgmt.error = none →
      l.ended = l.blocks → s.hasBlocks key = false → (∀ e ∈ s.jobs, e.2.launch ≠ some key) → s.storesDone key = true → s.arenaOwned l.tenant = false →
      l.ephReg 6 = 0 → s.clearArenas l = s → s.walkHeld l.tenant l.cpl = false → s.deviceTranslate l.tenant l.cpl .store = .ok a → a % 64 = 0 →
      SoundLine s (a / 64) →
      ∃ t, exec (.completionRecordWrite key) s = .next t ∧ (t.launch key).stage = .complete ∧ (t.launch key).status = 0 ∧
        Wrote s t a 64 (l.lid % 2 ^ 32 * 2 ^ 64 + l.ended % 2 ^ 64 * 2 ^ 128 + l.reruns % 2 ^ 32 * 2 ^ 192 + l.peerfail % 2 ^ 32 * 2 ^ 256 +
          l.laneflt % 2 ^ 32 * 2 ^ 288))

/-- R363, R364, R366: a save of a core's tenant takes each block of the set whole out of the core, gangs and all, and PREEMPT
tells how long it took; a restore brings a saved block back to a core that can take it, and tells whether some stay.  R355: a
teardown that is complete leaves the tenant OFF with no work of it. -/
def Obligations.PreemptionAndTeardown : Prop :=
  ∀ (s : State) (p : Preempt) (key core ten : Nat) (b : Block) (x : SavedBlock),
    let old := (s.privReg 0xE01).toNat
    (s.preempt = some p → p.restore = false → s.blocks.filter (fun e => !e.2.ended && s.inSet e.1) = [(key, b)] → s.blocks.find key = some b →
      (∀ g ∈ s.gangsOf key, s.quiet g = true) → (∀ o ∈ (s.core b.core).mq, o.block ≠ key) →
      (∀ k ∈ (s.core b.core).cmds, k.block = key → k.sent = false) →
      ∃ t e, exec .preemptSave s = .next t ∧ SameMemory s t ∧ t.preempt = none ∧ t.blocks.find key = none ∧ t.saved = s.saved ++ [e] ∧
        e.key = key ∧ e.area = p.core ∧ (∀ g, g ∈ e.gangs ↔ g ∈ s.gangsOf key) ∧
        (t.privReg 0xE01).toNat = old % 4 + (s.cycle - p.since) % 2 ^ 32 * 2 ^ 16) ∧
    (s.preempt = some p → p.restore = true → ∃ t, exec (.preemptRestore [core]) s = .next t ∧ t.preempt = none ∧
      ((t.privReg 0xE01).toNat / 2 % 2 = 1 ↔ ∃ y ∈ t.saved, y.area = p.core ∧ y.block.tenant = p.tenant) ∧
      (s.saved = [x] → x.area = p.core → x.block.tenant = p.tenant → x.block.ranks = 1 → s.savedFits x core = true →
        (s.launch x.block.launch).stopping = none → x.lost = [] → t.saved = [] ∧ ∃ y, t.blocks.find x.key = some y ∧ y.core = core)) ∧
    (ten < 16 → s.tenantState ten = 3 → s.mgmt.error = none →
      s.teardownWaits ten = false → (∀ e ∈ s.blocks, e.2.tenant = ten → e.2.ended = true) → (∀ e ∈ s.launches, e.2.tenant = ten → e.2.stage = .complete) →
      ∃ t, exec (.teardownComplete ten) s = .next t ∧ t.tenantState ten = 0 ∧ (∀ e ∈ t.jobs, e.2.tenant ≠ ten) ∧
        (∀ y ∈ t.saved, y.block.tenant ≠ ten) ∧ ten ∉ t.ringStopped ∧ Table.get 0 t.ringOut ten = Table.get 0 t.ringIn ten)

/-- R65, R36: a stalled word is tried again.  R319: of the packets that compete at a port the one that goes before all others goes on,
to the next stop of its way or out of the network, and the others age by one cycle; none competes against the bubble rule of R19.  R397, R408: a flit is sent again at most 64 times, and then the module stops dispatching. -/
def Obligations.RetriesAndArbitration : Prop :=
  ∀ (s : State) (slice port die stop times : Nat) (w : Packet),
    let g := s.here
    let rest := (s.packets.erase w).map (fun p => if competes s port p then { p with age := min 255 (p.age + 1) } else p)
    (g.ended = false → slice ∈ g.members → g.grp.wait = .stalled → (∀ p ∈ g.parted, p.slices.getLsbD slice = false) →
      exec (.stalledWordIssue g.core g.slot slice) s = .next { s with here := { g with grp := { g.grp with wait := .ready } } }) ∧
    (w ∈ s.packets → competes s port w = true → (∀ q ∈ s.packets, competes s port q = true → q ≠ w → GoesBefore w q) →
      exec (.networkArbitration port) s = .next { s with
        packets := rest ++ (if w.path.length ≤ 1 then [] else
          let dir := w.path.headD 0
          [{ w with stop := StopAfter w.stop dir, input := dir, path := w.path.tail }]) }) ∧
    (∃ t, exec (.linkResend die stop times) s = .next t ∧ t = { s with mgmt := t.mgmt } ∧ t.mgmt.resend = s.mgmt.resend + min times 64 ∧
      (times < 64 → t.mgmt.error = s.mgmt.error) ∧
      (64 ≤ times → s.mgmt.error = none → t.mgmt.error = some (2, die % 2, stop % 128, s.mgmt.time / 21)))

/-! ## The host and other devices (10_consistency.md, 16_host_fabric.md) -/

namespace Sys2Proof.Claims

/-- The registers of BAR0 become those of `s` but for one (R376). -/
def SetsBar (s t : State) (off v : Nat) : Prop :=
  t = { s with bar := t.bar } ∧ t.barReg off = v ∧ ∀ x, x ≠ off → t.barReg x = s.barReg x

/-- The values that the plain registers of BAR0 take: the weight-store command, FABID, peer windows and exports (R378, R383). -/
def BarValue (off v : Nat) : Prop :=
  (off = 0x10000 ∧ v < 2 ^ 52) ∨ (off = 0x10008 ∧ v < 2 ^ 31) ∨ (off = 0x10010 ∧ v < 2 ^ 32) ∨
  (off = 0x14000 ∧ v < 0xFFFF) ∨
  ∃ n < 64,
    (off = 0x18000 + 32 * n ∧ v < 2 ^ 52 ∧ v / 2 % 2 ^ 29 = 0 ∧ (v % 2 = 1 → regionOf (v / 2 ^ 30 * 2 ^ 30) = .peer)) ∨ (off = 0x18000 + 32 * n + 8 ∧ v < 2 ^ 52 ∧ v % 2 ^ 30 = 0) ∨
    (off = 0x18000 + 32 * n + 16 ∧ v < 2 ^ 52 ∧ v % 2 ^ 12 = 0) ∨
    (off = 0x18000 + 32 * n + 24 ∧ v < 2 ^ 22 ∧ v % 2 ^ 16 ≠ 0xFFFF ∧ (v / 2 ^ 17 % 2 = 1 → 2 ≤ v / 2 ^ 18 ∧ v / 2 ^ 18 ≤ 11)) ∨
    (off = 0x18800 + 32 * n ∧ v < 2 ^ 52 ∧ v / 2 % 2 ^ 11 = 0) ∨ (off = 0x18800 + 32 * n + 8 ∧ v < 2 ^ 52 ∧ v % 2 ^ 12 = 0) ∨
    (off = 0x18800 + 32 * n + 16 ∧ v < 2 ^ 17)

/-- A line that the host reaches: device memory, second-tier memory of an enabled window, or its own (R379, R382). -/
def HostReaches (s : State) (line : Nat) : Prop :=
  s.mgmt.recovery = false ∧
  (regionOf (64 * line) = .hbm ∨ regionOf (64 * line) = .host ∨ (regionOf (64 * line) = .tier ∧ (s.tierPort (64 * line)).isSome = true))

/-- A line that the host may reach now: its page has host bias and is not flipping (R379, R381). -/
def HostMay (s : State) (line : Nat) : Prop :=
  HostReaches s line ∧ line / 64 ∉ s.deviceBias ∧ ∀ f, s.flip = some f → f.page ≠ line / 64

/-- With HTS at `w`, the leases that the host holds of other lines go on, so that the bridge renews none (R247). -/
def LeasesLast (s : State) (line w : Nat) : Prop := ∀ e ∈ s.homes, e.2.host = .shared → e.1 = line ∨ w ≤ e.2.hostRts

/-- The byte of the bias table at BIASBASE that holds the bit of a page of HBM (R379, log entry 59). -/
def biasByte (s : State) (page : Nat) : Nat := s.barReg 0x12000 / 2 ^ 23 % 2 ^ 29 * 2 ^ 23 + (page - 2 ^ 26) / 8

/-- The flip of a page is over: its bias, its bit in the table and no other byte of memory change (R379, R381). -/
def Flipped (s t : State) (f : Flip) (bias : List Nat) : Prop :=
  let bit := (f.page - 2 ^ 26) % 8
  t = { s with flip := none, deviceBias := bias, mem := t.mem } ∧
  (∀ a, a ≠ biasByte s f.page → t.byte a = s.byte a) ∧
  (regionOf (biasByte s f.page) = .hbm → ∀ k < 8, (t.byte (biasByte s f.page)).getLsbD k =
    if k = bit then f.host else (s.byte (biasByte s f.page)).getLsbD k)

/-- Two windows of the second tier share no address, and the new one lies within the second tier (R382). -/
def WindowFits (s : State) (port base size : Nat) : Prop :=
  let lo := fun b => b / 2 ^ 30 % 2 ^ 22 * 2 ^ 30
  let hi := fun b z => lo b + z % 2 ^ 22 * 2 ^ 30
  base % 2 = 1 →
    regionOf (lo base) = .tier ∧ (size % 2 ^ 22 ≠ 0 → regionOf (hi base size - 1) = .tier) ∧
    ∀ p, 2 ≤ p → p ≤ 11 → p ≠ port → s.barReg (0x13000 + 16 * (p - 2)) % 2 = 1 →
      ∀ a, lo base ≤ a → a < hi base size →
        a < lo (s.barReg (0x13000 + 16 * (p - 2))) ∨ hi (s.barReg (0x13000 + 16 * (p - 2))) (s.barReg (0x13000 + 16 * (p - 2) + 8)) ≤ a

end Sys2Proof.Claims

/-- R247, R248: a host read is an acquire load at HTS, and one that asks for ownership leaves wts_h at rts_h + 1; a host write is a
release store at HTS + 1 and raises HTS to its wts; a back-invalidate takes the host's copy, and writes what the host modified.
R392: data that the host marks as poison leaves the line poisoned.  R379, R381: a host access to a page of device bias starts its flip to host bias and waits; a flip runs once the page is drained, or
once the host holds none of it. -/
def Obligations.HostAccesses : Prop :=
  ∀ (s : State) (line v : Nat) (own back : Bool) (mask : LaneMask) (data : Line) (f : Flip) (r : HostRequest),
    let h := s.home line
    let lease := if h.host = .shared ∧ h.written = false ∧ h.hinted = false then min (2 * h.lease) 4096 else h.lease
    let rts := max h.rts (max s.hts h.wts + (if s.rebasing then 8 else lease))
    let w := max (h.rts + 1) (s.hts + 1)
    let ask : HostRequest := { line := line, write := false, own := own }
    let put : HostRequest := { line := line, write := true, mask := mask, data := data }
    let page := v / 2 ^ 12 % 2 ^ 40
    (HostMay s line → h.host = .owned →
      exec (.hostRead line own) s = .next { s with seen := (line, (s.lineBytes line).toNat + if h.poison then 2 ^ 512 else 0) :: s.seen }) ∧
    (HostMay s line → h.host ≠ .owned → LeasesLast s line (max s.hts h.wts) →
      (regionOf (64 * line) = .host → ∀ e ∈ s.cores, ∀ x ∈ e.2.fifo, x.line ≠ line) →
      ∃ t, exec (.hostRead line own) s = .next t ∧ SameMemory s t ∧
      t = { s with homes := t.homes, clocks := t.clocks, hts := max s.hts h.wts
                   seen := (line, (s.lineBytes line).toNat + if h.poison then 2 ^ 512 else 0) :: s.seen } ∧
      t.home line = { h with rts := if own then rts + 1 else rts, wts := if own then rts + 1 else h.wts, lease := if s.rebasing then h.lease else lease
                             written := false, host := if own then .owned else .shared, hostRts := rts } ∧
      ∀ n, n ≠ line → t.homes.find n = s.homes.find n) ∧
    (HostMay s line → mask ≠ 0 → ∃ t, exec (.hostWrite line mask data) s = .next t ∧ t.hts = w ∧ (t.home line).wts = w ∧
      (∀ a, t.byte a = if a / 64 = line ∧ mask.getLsbD (a % 64) = true then byteAt data (a % 64) else s.byte a) ∧
      t.here = s.here ∧ t.gangs = s.gangs ∧ t.ops = s.ops ∧
      (h.host ≠ .shared → LeasesLast s line w → StoredAtHome s t line (s.hts + 1) mask data)) ∧
    (h.host = .invalid → exec (.backInvalidate line mask data) s = .next s) ∧
    (h.host = .shared ∨ (h.host = .owned ∧ mask = 0) → exec (.backInvalidate line mask data) s =
      .next { s with homes := s.homes.insert line { h with host := .invalid, hostRts := 0 } }) ∧
    (h.host = .owned → mask ≠ 0 → LeasesLast s line w → ∃ t, exec (.backInvalidate line mask data) s = .next t ∧
      StoredAtHome s t line (s.hts + 1) mask data ∧ (t.home line).host = .invalid) ∧
    (mask ≠ 0 → if back then h.host = .owned else HostMay s line →
      ∃ t u, s.turn exec (.hostPoison back line mask data) = .next u ∧
        exec (if back then .backInvalidate line mask data else .hostWrite line mask data) s = .next t ∧
        u.hts = t.hts ∧ (∀ a, u.byte a = t.byte a) ∧ (u.home line).wts = (t.home line).wts ∧ (u.home line).poison = true) ∧
    (HostReaches s line → mask ≠ 0 →
      (s.flip = none → line / 64 ∈ s.deviceBias →
        let held := fun (r : HostRequest) =>
          { s with heldHost := s.heldHost ++ [r], flip := some ⟨line / 64, true, true, s.nextId⟩, nextId := s.nextId + 1 }
        exec (.hostRead line own) s = .next (held ask) ∧ exec (.hostWrite line mask data) s = .next (held put)) ∧
      (s.flip = some f → line / 64 ∈ s.deviceBias ∨ f.page = line / 64 →
        exec (.hostRead line own) s = .next { s with heldHost := s.heldHost ++ [ask] } ∧
        exec (.hostWrite line mask data) s = .next { s with heldHost := s.heldHost ++ [put] })) ∧
    (v < 2 ^ 52 → v / 2 % 2 ^ 11 = 0 → regionOf (4096 * page) = .hbm → s.flip = none → s.mgmt.recovery = false →
      ∃ u, SetsBar s u 0x12008 v ∧ exec (.biasFlip v) s = .next (if v % 2 = 1 ↔ page ∈ s.deviceBias then
        { u with flip := some ⟨page, decide (v % 2 = 1), false, s.nextId⟩, nextId := s.nextId + 1 } else u)) ∧
    (s.flip ≠ none ∨ s.mgmt.recovery = true → exec (.biasFlip v) s = .next s) ∧
    (s.flip = some f → f.host = true → (∀ e ∈ s.cores, ∀ x ∈ e.2.fifo, x.line / 64 = f.page → f.marker ≤ x.id) →
      (s.heldHost = [] → ∃ t, exec .biasFlipComplete s = .next t ∧ Flipped s t f (s.deviceBias.filter (fun p => p != f.page))) ∧
      (s.heldHost = [r] → r.line / 64 = f.page → (s.home r.line).host = .invalid → biasByte s f.page / 64 ≠ r.line →
        regionOf (64 * r.line) = .hbm → ∃ t, exec .biasFlipComplete s = .next t ∧ t.heldHost = [] ∧ t.flip = none ∧
        (r.write = false → (t.home r.line).host = (if r.own then .owned else .shared) ∧ s.byte (64 * r.line) = t.byte (64 * r.line) ∧
          t.seen = (r.line, (s.lineBytes r.line).toNat + if (s.home r.line).poison then 2 ^ 512 else 0) :: s.seen) ∧
        (r.write = true → t.hts = (t.home r.line).wts ∧ ∀ a, a / 64 = r.line →
          t.byte a = if r.mask.getLsbD (a % 64) = true then byteAt r.data (a % 64) else s.byte a))) ∧
    (s.flip = some f → f.host = false → (∀ e ∈ s.homes, e.1 / 64 = f.page → e.2.host = .invalid) → s.heldHost = [] →
      ∃ t, exec .biasFlipComplete s = .next t ∧ Flipped s t f (s.deviceBias ++ [f.page]))

/-- R376, R378, R380, R382, R383, R415: the host's registers.  HREQ rings the doorbell of a core; a second-tier window, a peer
window, an export and the weight-store command's arguments take legal values; a new BIASBASE has the device write its bias table
there (the bit order of the table is the model's choice, log entry 59); a write of the mailbox's CMD is the command of its opcode, and one
that comes while the mailbox is busy is lost. -/
def Sys2Proof.Claims.HostRegisters : Prop :=
  ∀ (s : State) (v off port i : Nat),
    (v < 256 → s.mgmt.recovery = false → ∃ t, exec (.hreq v) s = .next t ∧ SameMemory s t ∧ t.here = s.here ∧
      t.barrier (.supervisor v) 0x1800 = ((s.barrier (.supervisor v) 0x1800).arrive 1).test ∧
      ∀ x, x < 0x1800 ∨ 0x1810 ≤ x → t.sbyte (.supervisor v) x = s.sbyte (.supervisor v) x) ∧
    (s.mgmt.recovery = false → 2 ≤ port → port ≤ 11 →
      (v < 2 ^ 52 → v / 2 % 2 ^ 29 = 0 → WindowFits s port v (s.barReg (0x13000 + 16 * (port - 2) + 8)) → ∃ t, exec (.tierWindowWrite port false v) s = .next t ∧ SetsBar s t (0x13000 + 16 * (port - 2)) v) ∧
      (v < 2 ^ 22 → WindowFits s port (s.barReg (0x13000 + 16 * (port - 2))) v → ∃ t, exec (.tierWindowWrite port true v) s = .next t ∧ SetsBar s t (0x13000 + 16 * (port - 2) + 8) v) ∧
      (2 ^ 22 ≤ v → exec (.tierWindowWrite port true v) s = .next s)) ∧
    (BarValue off v → s.mgmt.recovery = false → ∃ t, exec (.bar0RegisterWrite off v) s = .next t ∧ SetsBar s t off v) ∧
    (v = 0xFFFF ∨ 2 ^ 16 ≤ v → exec (.bar0RegisterWrite 0x14000 v) s = .next s) ∧
    (v % 2 ^ 23 = 0 → v < 2 ^ 52 → regionOf v = .hbm → s.mgmt.recovery = false → ∃ t, exec (.bar0RegisterWrite 0x12000 v) s = .next t ∧
      t = { s with bar := t.bar, mem := t.mem } ∧ t.barReg 0x12000 = v ∧ (∀ x, x ≠ 0x12000 → t.barReg x = s.barReg x) ∧
      (∀ a, a < v ∨ v + 2 ^ 23 ≤ a → t.byte a = s.byte a) ∧
      ∀ p < 2 ^ 26, (t.byte (v + p / 8)).getLsbD (p % 8) = decide (2 ^ 26 + p ∉ s.deviceBias)) ∧
    (s.mgmt.busy ≠ none → v < 256 → exec (.bar0RegisterWrite 0 v) s = .next (if v = 0x0E
        then { s with tick := s.tick + 1, mgmt := { s.mgmt with lost := true } } else { s with mgmt := { s.mgmt with lost := true } })) ∧
    (s.mgmt.busy = none → v < 256 → v = 0 ∨ 0x0E < v →
      exec (.bar0RegisterWrite 0 v) s = .next { s with mgmt := { s.mgmt with result := 1, rlen := 0 } }) ∧
    (∀ e ∈ [(1, Instr.getinfo), (2, .setcap), (3, .getpower), (4, .setwdog), (5, .loadsup), (6, .getlog), (7, .getcert), (8, .quote), (9, .geterr),
        (10, .diecnt), (11, .dierd), (12, .standby), (13, .wake)], exec (.bar0RegisterWrite 0 e.1) s = exec e.2 s) ∧
    (∃ fw sup, fw < 3 ∧ sup < 3 ∧ exec (.bar0RegisterWrite 0 0x0E) s = exec (.reset fw sup) { s with tick := s.tick + 1 }) ∧
    (0x100 ≤ off → off + 8 ≤ 0x8000 → ∃ t, exec (.bar0RegisterWrite off v) s = .next t ∧
      t = { s with mgmt := { s.mgmt with args := t.mgmt.args } } ∧
      Table.get 0 t.mgmt.args i = if off ≤ i + 0x100 ∧ i + 0x100 < off + 8 then BitVec.ofNat 8 (v / 2 ^ (8 * (i + 0x100 - off)))
        else Table.get 0 s.mgmt.args i) ∧
    exec (.mailboxStatusWrite v) s =
      .next (if v / 2 % 2 = 1 then { s with mgmt := { s.mgmt with lost := false } } else s)

/-- R198, R378: a weight-store command that passes its checks makes the store busy, and one that does not leaves its cause; once
its last byte is written the bytes of memory stand in the store, every region that they touch is one generation further, and BUSY
falls with CAUSE 0. -/
def Sys2Proof.Claims.WeightStoreWrites : Prop :=
  ∀ (s : State) (v : Nat) (w : WsCommand),
    let src := s.barReg 0x10000
    let dst := s.barReg 0x10008
    let len := s.barReg 0x10010
    let aligned := src % 64 = 0 ∧ dst % 64 = 0 ∧ len % 64 = 0 ∧ len ≠ 0
    let inside := (regionOf src = .hbm ∨ regionOf src = .host) ∧ regionOf (src + len - 1) = regionOf src
    let mine := s.inPartition v dst = true ∧ s.inPartition v ((dst + len - 1 : Nat) : Int) = true
    let refuses := fun (c : Cause) => ∃ t, exec (.weightStoreCommand v) s = .next t ∧ t.barReg 0x10020 = c.code * 256 ∧ t.wsBusy = none ∧ t.ws = s.ws
    (v < 16 → s.wsBusy = none → s.mgmt.recovery = false →
      (aligned → inside → mine → s.blockStarted v = false → ∃ t, exec (.weightStoreCommand v) s = .next t ∧
        t = { s with bar := t.bar, wsBusy := some ⟨v, src, dst, len⟩ } ∧ t.barReg 0x10020 = 1 ∧ ∀ x, x ≠ 0x10020 → t.barReg x = s.barReg x) ∧
      (¬ aligned → refuses .misalign) ∧ (aligned → ¬ inside → refuses .xlate) ∧ (aligned → inside → ¬ mine → refuses .perm) ∧
      (aligned → inside → mine → s.blockStarted v = true → refuses .wswrite)) ∧
    (s.wsBusy ≠ none → exec (.weightStoreCommand v) s = .next s) ∧
    (s.wsBusy = some w → s.hostOwnsRange w.src w.len = true → exec .weightStoreWriteDone s = .next s) ∧
    (s.wsBusy = some w → s.hostOwnsRange w.src w.len = false → w.src % 64 = 0 → w.dst % 64 = 0 → w.len % 64 = 0 → 0 < w.len →
      ∃ t, exec .weightStoreWriteDone s = .next t ∧ SameMemory s t ∧ t.wsBusy = none ∧ t.barReg 0x10020 = 0 ∧
        (∀ a, Table.get 0 t.ws a = if w.dst ≤ a ∧ a < w.dst + w.len then s.byte (w.src + (a - w.dst)) else Table.get 0 s.ws a) ∧
        ∀ r, Table.get 0 t.wsGen r = if w.dst / 2 ^ 26 ≤ r ∧ r ≤ (w.dst + w.len - 1) / 2 ^ 26 then (Table.get 0 s.wsGen r + 1) % 65536
          else Table.get 0 s.wsGen r)

/-- R376, R378, R380, R382, R383, R415: the host's registers. HREQ rings the doorbell of a core; a second-tier window, a peer
window, an export and the weight-store command's arguments take legal values; a new BIASBASE has the device write its bias table
there (the bit order of the table is the model's choice, log entry 59); a write of the mailbox's CMD is the command of its
opcode, and one that comes while the mailbox is busy is lost. R198, R378: a weight-store command that passes its checks makes
the store busy, and one that does not leaves its cause; once its last byte is written the bytes of memory stand in the store,
every region that they touch is one generation further, and BUSY falls with CAUSE 0. -/
def Obligations.HostRegistersAndWeightStore : Prop := Claims.HostRegisters ∧ Claims.WeightStoreWrites

/-- R249, R383: an access of another device that an export entry accepts is made at the home, and any other is refused.  R385,
R389, R390: a fire-and-forget store is answered once; one that is refused or never answered counts for its launch.  R384: a line that
a word waits for is answered, or given up after 2 ms, and the word then goes on. -/
def Obligations.DevicesAnswer : Prop :=
  ∀ (s : State) (source addr size mode data cmp op line n : Nat) (aop : AtomOp) (poison : Bool) (bytes : Line) (f : FfStore),
    let key := 2 ^ 64 + addr
    let bad := (s.home (addr / 64)).poison
    let old := s.read addr size
    let lane : LaneAcc := { lane := 0, addr := addr, size := size, data := data, cmp := cmp, mode := BitVec.ofNat 32 mode }
    let request := fun (k : Nat) => exec (.peerRequestReceive source addr size k mode data cmp) s
    (0 < size → addr % 64 + size ≤ 64 → s.mgmt.recovery = false → s.exported source addr size false = true →
      (s.home (addr / 64)).host = .owned → request 0 = .next s) ∧
    (0 < size → addr % 64 + size ≤ 64 → s.mgmt.recovery = false → (s.home (addr / 64)).host ≠ .owned →
      (s.exported source addr size false = true → request 0 = .next { s with seen := (key, (if bad then 2 else 0) + 4 * old) :: s.seen }) ∧
      (s.exported source addr size false = false → request 0 = .next { s with seen := (key, 1) :: s.seen }) ∧
      (s.exported source addr size true = true → ∃ t, request 1 = .next t ∧ Wrote s t addr size data ∧ t.seen = (key, 0) :: s.seen ∧
        t.here = s.here ∧ t.gangs = s.gangs ∧ t.ops = s.ops) ∧
      (s.exported source addr size true = false → request 1 = .next { s with seen := (key, 1) :: s.seen }) ∧
      (s.exported source addr size true = true → bad = false → peerAtomic n = some aop → ∃ t, request (n + 2) = .next t ∧
        Wrote s t addr size (aop.applyLane lane old) ∧ t.seen = (key, 4 * old) :: s.seen)) ∧
    (s.opAt op = none → op ≠ 0 → s.isEngine op = false → s.registers op = false → s.ff.find? (fun x => x.id == op) = some f →
      let rest := s.ff.filter (fun x => x.id != op)
      exec (.peerAccessAnswer op line false poison bytes) s = .next { s with ff := rest } ∧
      ∀ k l, f.launch = some k → s.launches.find k = some l →
        let t := { s with ff := rest, launches := s.launches.insert k { l with peerfail := l.peerfail + 1 } }
        exec (.peerAccessAnswer op line true poison bytes) s = .next t ∧ exec (.fabricTimeout op line) s = .next t) ∧
    (s.opAt op = none → op ≠ 0 → s.isEngine op = false → s.registers op = true → regionOf (64 * line) = .peer →
      (∀ d ∈ s.peerData, ¬ (d.op = op ∧ d.line = line)) →
      (∃ r ∈ s.sent, r.op = op ∧ s.peerTarget (64 * line) = some (r.device, r.cxl, r.port, r.addr)) →
      exec (.fabricTimeout op line) s = .next { s with peerData := s.peerData ++ [⟨op, line, 0, false, true⟩] } ∧
      ∀ refused, exec (.peerAccessAnswer op line refused poison bytes) s = .next { s with
        peerData := s.peerData ++ [⟨op, line, bytes, poison, refused⟩] })

/-! ## The management controller (17_recovery.md, 18_management.md) -/

namespace Sys2Proof.Claims

/-- A mailbox command ends with a result and the bytes of its response; of the management state `m` gives the rest (R415). -/
def Replies (i : Instr) (s : State) (m : Management) (result : Nat) (resp : List Byte) : Prop :=
  ∃ t, exec i s = .next t ∧ t = { s with tick := t.tick, mgmt := { m with result := result, rlen := resp.length, resp := t.mgmt.resp } } ∧
    (∀ k < resp.length, Table.get 0 t.mgmt.resp k = resp.getD k 0) ∧ ∀ k, resp.length ≤ k → Table.get 0 t.mgmt.resp k = Table.get 0 m.resp k

/-- The little-endian bytes of a number. -/
def leBytes (n x : Nat) : List Byte := (List.range n).map (fun k => BitVec.ofNat 8 (x / 2 ^ (8 * k)))

/-- The first eight bytes of the argument area, as a number. -/
def arg0 (m : Management) : Nat := ofBytes ((List.range 8).map (fun k => Table.get 0 m.args k))

/-- A machine after a module reset keeps its memories and nothing else of `s` (R414). -/
def AfterReset (s t : State) (log : List (BitVec 1024)) (recovery started : Bool) : Prop :=
  SameMemory s t ∧ t.ws = s.ws ∧ t.here = State.reset.here ∧ t.gangs = [] ∧ t.cores = [] ∧ t.clusters = [] ∧ t.blocks = [] ∧ t.launches = [] ∧
  t.jobs = [] ∧ t.priv = [] ∧ t.bar = [] ∧ t.homes = [] ∧ t.clocks = [] ∧ t.mts = [] ∧ t.hts = 0 ∧ t.ops = [] ∧ t.watches = [] ∧ t.umbra = [] ∧
  t.saved = [] ∧ t.deviceBias = [] ∧ t.mgmt.cap = 1800 ∧ t.mgmt.step = 0 ∧ t.mgmt.watchdog = 2400000000 ∧ t.mgmt.power = .active ∧
  t.mgmt.error = none ∧ t.mgmt.log = log ∧ t.mgmt.recovery = recovery ∧ t.mgmt.started = started ∧
  (∀ line h, s.homes.find line = some h → h.poison = true → line ∈ t.dramPoison)

end Sys2Proof.Claims

/-- R408, R412, R415, R416, R417: the mailbox commands that read and set the controller's own state.  The average power of GETPOWER
is a value that nothing fixes, at most the cap.  A command that comes while LOADSUP is in progress is lost. -/
def Obligations.MailboxCommands : Prop :=
  ∀ (s : State),
    (∀ i ∈ [Instr.getinfo, .setcap, .getpower, .setwdog, .loadsup, .getlog, .getcert, .quote, .geterr, .diecnt, .dierd, .standby, .wake, .reset 0 0],
      s.mgmt.busy ≠ none → exec i s = .next { s with mgmt := { s.mgmt with lost := true } }) ∧
    (s.mgmt.busy = none → s.mgmt.recovery = false →
    let m := s.mgmt
    let v := arg0 m
    let states := (List.range 16).foldl (fun n t => if s.tenantState t = 0 then n else n + 2 ^ t) 0
    let refuses := fun (i : Instr) => Replies i s m 2 []
    Replies .getinfo s m 0 (leBytes 16 (s.fabid + 256 * 2 ^ 16 + 64 * 2 ^ 32 + Config.lanes * 2 ^ 48 + m.step % 8 * 2 ^ 56 +
      (match m.power with | .idle => 1 | .standby => 2 | _ => 0) * 2 ^ 59 + states * 2 ^ 64)) ∧
    (300 ≤ v → v ≤ 1800 → Replies .setcap s { m with cap := v } 0 []) ∧ (v < 300 ∨ 1800 < v → refuses .setcap) ∧
    (∃ p, p ≤ m.cap ∧ Replies .getpower s m 0 (leBytes 8 (p + m.cap * 2 ^ 16 + m.step * 2 ^ 32))) ∧
    (v = 0 ∨ 2400000 ≤ v → Replies .setwdog s { m with watchdog := v } 0 []) ∧ (v ≠ 0 → v < 2400000 → refuses .setwdog) ∧
    Replies .geterr s m 0 (leBytes 8 ((m.error.map (fun e => e.1 + e.2.1 * 2 ^ 8 + e.2.2.1 * 2 ^ 9)).getD 0) ++
      leBytes 8 ((m.error.map (fun e => e.2.2.2)).getD 0) ++ leBytes 8 m.corr ++ leBytes 8 m.pois ++ leBytes 8 m.resend ++ leBytes 8 m.retry ++
      leBytes 4 m.restart ++ leBytes 4 m.unlogged) ∧
    (v / 2 % 2 ^ 7 = 0 → v / 2 ^ 14 % 4 = 0 → v / 2 ^ 16 % 2 ^ 8 ≤ 15 → v < 2 ^ 25 → Replies .diecnt s { m with
      dies := Table.set 0 m.dies (64 * (v % 2) + v / 2 ^ 8 % 64) (BitVec.ofNat 64 (v / 2 ^ 16 % 2 ^ 8 * 2 ^ 48 + v / 2 ^ 24 * 2 ^ 56)) } 0 []) ∧
    (v / 2 % 2 ^ 7 ≠ 0 ∨ 2 ^ 25 ≤ v → refuses .diecnt) ∧
    (v ≤ 1 → Replies .dierd s m 0 ((List.range 64).flatMap (fun j => leBytes 8 (Table.get 0 m.dies (64 * v + j)).toNat))) ∧
    (1 < v → refuses .dierd))

/-- R409 to R411, R414 to R416: LOADSUP measures an image, logs its verdict and makes an accepted one resident; a log that is full
refuses it, and while the host owns a line of the image it stays in progress; GETLOG, GETCERT and QUOTE read the log, the certificate and a signed quote.  A module without running firmware
answers no other command.  Digests are SHA-512 (`sha512`, from FIPS 180-4: log entry 9). -/
def Obligations.MeasurementCommands : Prop :=
  ∀ (s : State), s.mgmt.busy = none →
    let m := s.mgmt
    let v := arg0 m
    let len := ofBytes ((List.range 8).map (fun k => Table.get 0 m.args (8 + k)))
    let legal := v % 4096 = 0 ∧ v < 2 ^ 52 ∧ (regionOf v = .hbm ∨ regionOf v = .host) ∧ 4096 ≤ len ∧ len ≤ 2 ^ 26 ∧ len % 4096 = 0 ∧
      regionOf (v + len - 1) = regionOf v
    let image := s.bytes v len
    let verdict := Config.imageVerdict image % 3
    let entry : BitVec 1024 := BitVec.ofNat 1024 (m.log.length % 2 ^ 16 + 1 * 2 ^ 16 + verdict % 2 ^ 8 * 2 ^ 24 +
      Config.versionOf image % 2 ^ 64 * 2 ^ 64 + (sha512 image).toNat * 2 ^ 128)
    let first := v % 2 ^ 16
    let count := v / 2 ^ 16 % 2 ^ 9
    let body := leBytes 64 (ofBytes ((List.range 64).map (fun k => Table.get 0 m.args k))) ++ leBytes 64 m.run.toNat ++
      leBytes 64 (m.log.length + s.fabid * 2 ^ 32)
    (legal → m.log.length < 1024 → s.hostOwnsRange v len = true → exec .loadsup s = .next { s with mgmt := { m with busy := some (v, len) } }) ∧
    (legal → m.log.length < 1024 → s.hostOwnsRange v len = false → Replies .loadsup s { m with
      log := m.log ++ [entry], run := sha512 (leBytes 64 m.run.toNat ++ leBytes 128 entry.toNat)
      image := if verdict = 0 then (v, len) else m.image } 0 (leBytes 128 entry.toNat)) ∧
    (¬ legal → Replies .loadsup s m 2 []) ∧ (legal → 1024 ≤ m.log.length → Replies .loadsup s m 3 []) ∧
    (first ≤ 1023 → 1 ≤ count → count ≤ 256 → v < 2 ^ 25 →
      Replies .getlog s m 0 (((m.log.drop first).take count).flatMap (fun e => leBytes 128 e.toNat))) ∧
    (1023 < first ∨ count = 0 ∨ 256 < count ∨ 2 ^ 25 ≤ v → Replies .getlog s m 2 []) ∧
    Replies .getcert s m 0 (Config.certificate.take 32768) ∧
    Replies .quote s m 0 (body ++ leBytes 512 (Config.signature body).toNat) ∧
    (m.recovery = true → ∀ i ∈ [Instr.getinfo, .setcap, .getpower, .setwdog, .geterr, .diecnt, .dierd, .standby, .wake], Replies i s m 1 [])

/-- R412, R413: power and clocks.  STANDBY is refused while some tenant is not OFF; WAKE starts the cores again; without power
nothing runs; the clock moves one step at a time, at most every 100 µs, and further down at once in a surge; a module whose tenants
have all been OFF for 1 ms, with every supervisor gang parked in BARWAIT, gates its cores and becomes IDLE, and its memories refresh themselves 10 ms later. -/
def Sys2Proof.Claims.PowerAndClocks : Prop :=
  ∀ (s : State) (step : Nat),
    let m := s.mgmt
    let off := ∀ t < 16, s.tenantState t = 0
    let runs := m.power = .active ∨ m.power = .idle
    let parked := ∀ c < 256, ∃ g, s.gang c 48 = some g ∧ g.stop = .none ∧ ∀ p ∈ g.groups, ∃ block off phase sc, p.wait = .barwait block off phase sc
    (m.busy = none → m.recovery = false → (off → Replies .standby s { m with power := .standby, started := false, refresh := true } 0 []) ∧
      (¬ off → Replies .standby s m 3 []) ∧ (m.power ≠ .standby → Replies .wake s m 0 []) ∧
      (m.power = .standby → ∃ t, exec .wake s = .next t ∧ SameMemory s t ∧ t.mgmt.power = .active ∧ (t.mgmt.started = true ↔ ∃ e ∈ m.log, e.toNat / 2 ^ 16 % 256 = 1 ∧ e.toNat / 2 ^ 24 % 256 = 0) ∧ t.mgmt.log = m.log ∧
        t.mgmt.cap = 1800 ∧ t.mgmt.step = 0 ∧ t.mgmt.result = 0 ∧ t.blocks = [] ∧ t.homes = [] ∧ t.here.slot = 48 ∧ t.here.stop = .none)) ∧
    exec .powerRemoval s = .next { s with mgmt := { m with power := .off, started := false } } ∧
    (step ≤ 4 → (step = m.step + 1 ∨ m.step = step + 1) → m.stepAt + 21 * 240000 ≤ m.time → runs →
      exec (.clockStepChange step) s = .next { s with mgmt := { m with step := step, stepAt := m.time } }) ∧
    (m.time < m.stepAt + 21 * 240000 → exec (.clockStepChange step) s = .next s) ∧
    (step ≤ 4 → m.step < step → runs → exec (.currentLimit step) s = .next { s with mgmt := { m with step := step } }) ∧
    (m.power = .active → off → m.offSince + 21 * 2400000 ≤ m.time → parked → ∃ t, exec .idleEntry s = .next t ∧
      t.mgmt = { m with power := .idle, idleSince := m.time } ∧ SameMemory s t ∧
      ∀ c < 256, (∀ g ∈ s.gangsOn c, g.allWait = true) → (t.core c).gated = true) ∧
    (m.time < m.offSince + 21 * 2400000 ∨ ¬ off ∨ ¬ parked → exec .idleEntry s = .next s) ∧
    (m.power = .idle → m.idleSince + 21 * 24000000 ≤ m.time → exec .hbmSelfRefresh s = .next { s with mgmt := { m with refresh := true } })

/-- R414, R409, R410: a cold reset and the RESET command leave the machine of step 5 with its memories kept, and a log of what was
measured: with both images accepted the supervisors start; with firmware that fails only the recovery commands answer. -/
def Sys2Proof.Claims.ResetForms : Prop :=
  ∀ (s : State) (sup : Nat),
    let entry := fun (i verdict : Nat) => BitVec.ofNat 1024 (i + i * 2 ^ 16 + verdict * 2 ^ 24 +
      Config.imageVersion i % 2 ^ 64 * 2 ^ 64 + (Config.imageDigest i).toNat * 2 ^ 128)
    (∃ t, exec (.coldReset 0 0) s = .next t ∧ AfterReset s t [entry 0 0, entry 1 0] false true ∧
      (s.mgmt.busy = none → s.mgmt.recovery = false → exec (.reset 0 0) s = .next t)) ∧
    (sup = 1 ∨ sup = 2 → ∃ t, exec (.coldReset 0 sup) s = .next t ∧ AfterReset s t [entry 0 0, entry 1 sup] false false) ∧
    ∃ t, exec (.coldReset 1 0) s = .next t ∧ AfterReset s t [entry 0 1] true false

/-- R412, R413: power and clocks. STANDBY is refused while some tenant is not OFF; WAKE starts the cores again; without power
nothing runs; the clock moves one step at a time, at most every 100 µs, and further down at once in a surge; a module whose
tenants have all been OFF for 1 ms, with every supervisor gang parked in BARWAIT, gates its cores and becomes IDLE, and its
memories refresh themselves 10 ms later. R414, R409, R410: a cold reset and the RESET command leave the machine of step 5 with
its memories kept, and a log of what was measured: with both images accepted the supervisors start; with firmware that fails
only the recovery commands answer. -/
def Obligations.PowerAndResetForms : Prop := Claims.PowerAndClocks ∧ Claims.ResetForms

/-- R407, R408: a supervisor gang that has stopped at a fault is restarted: it begins its image anew with its scratchpad above the
doorbell zero and the mailbox kept, and the restart is counted; so is one whose mailbox entry has been pending longer than the
watchdog period.  A failure of the root of trust is a module error, and the first module error is the one that is kept. -/
def Obligations.SupervisorRecovery : Prop :=
  ∀ (s : State) (core : Nat) (g : Gang),
    let m := s.mgmt
    let restarts := fun (i : Instr) => ∃ t, exec i s = .next t ∧ t.mgmt.restart = m.restart + 1 ∧
      (t.gang core 48).map Gang.stop = some .none ∧ (t.gang core 48).map Gang.s = some [] ∧ (t.gang core 48).map Gang.v = some [] ∧
      (∀ x, 0x1810 ≤ x → t.sbyte (.supervisor core) x = 0) ∧
      ∀ x, x < 0x1800 → t.sbyte (.supervisor core) x = s.sbyte (.supervisor core) x
    (core < 256 → m.started = true → s.gang core 48 = some g → g.stop ≠ .none → restarts (.supervisorRestart core)) ∧
    (s.gang core 48 = some g → g.stop = .none → exec (.supervisorRestart core) s = .next s) ∧
    (core < 256 → m.started = true → m.watchdog ≠ 0 → s.overdue core ≠ [] → restarts (.watchdogExpiry core)) ∧
    (m.watchdog = 0 → exec (.watchdogExpiry core) s = .next s) ∧
    (m.error = none → exec .rootOfTrustFailure s = .next { s with mgmt := { m with error := some (3, 0, 0, m.time / 21) } }) ∧
    (m.error ≠ none → exec .rootOfTrustFailure s = .next s)

/-! ## The whole machine (02_execution_model.md, 03_encoding.md, 18_management.md) -/

namespace Sys2Proof.Claims

/-- The word is that of the instruction, both ways. -/
def Spells (w : Word) (i : Instr) : Prop := decode w = .ok i ∧ encode i = some w.toNat

/-- With nothing on the agenda, the next step of `s` issues the word or header of the group that is on the pipe in `u`: the first
word of a run follows its header at once; else a group that wins a pipe issues, in this cycle or the next, and between runs the
device first takes the steps that it can (R316; the order is the model's, log entry 1). -/
def IssuesAt (s u : State) : Prop :=
  let v := s.upkeep
  let first := v.here.grp.bound = true ∧ v.mayIssue = true
  s.agenda = [] ∧ s.mgmt.power ≠ .off ∧
  ((first ∧ u = v) ∨
   (¬ first ∧ ((v.mayIssue = true ∧ v.here.grp.run ≠ none) ∨ v.firstMove v.ownSteps = none) ∧
    (v.pick = some u ∨ (v.pick = none ∧ v.newCycle.pick = some u))))

/-- The instruction is executed at `u`; where its word has issued it is counted at a counter source of its core, and has taken an
issue slot of its pipe, but for the first word of a run (R316, R417). -/
noncomputable def issuesAs (i : Instr) (u : State) (source : Nat) : Host.Outcome State Fault Refusal :=
  match exec i u with
  | .next t =>
    if u.here.core = t.here.core ∧ u.here.slot = t.here.slot ∧ u.here.stop = t.here.stop ∧ t.here.killed = false ∧ t.here.grp.wait ≠ .stalled then
      .next { t.count u.here.core source 1 with used := (if u.here.grp.bound then [] else [2 * u.here.core + u.here.grp.pipe]) ++ t.used }
    else .next t
  | r => r

end Sys2Proof.Claims

/-- R53, R61, R65, R81: a step of a machine without a pending turn, in which the group on the pipe stands in a run and issues,
fetches the word at the group's position, and is the instruction that the word decodes to; the word is counted where it has
issued.  A word that decodes to none raises ILLEGAL.  At a run boundary the same holds of a header.  R316, R359: the group that
issues wins a pipe: no supervisor gang, and no older candidate, of its core that might issue there gives way to it.  A turn that
names an event is that event; without power nothing moves.  The fetch fills the TLBs first, and changes nothing else (R358). -/
def Obligations.StepRunsDecodedWord : Prop :=
  ∀ (s u : State) (w : Word) (i : Instr) (rest : List Turn),
    let ready := fun (u : State) => u.here.badRegs = [] ∧ u.here.mismatch = 0
    (IssuesAt s u → u.here.grp.run ≠ none → ready u → (∃ x, u.filled.fetch = .ok x ∧ x = some w) → w.toNat / 2 ^ 26 ≠ 0 →
      (runEnding w = true → u.here.lastWord = true) →
        ((∃ x, decode w = .ok x ∧ x = i) → step s = issuesAs i u.filled 4) ∧ ((∀ x, decode w ≠ .ok x) → step s = .next (u.filled.precise .illegal))) ∧
    (IssuesAt s u → u.here.grp.run = none →
      let v := if u.here.owedRebases = 0 then u else u.onHere Gang.payRebases
      v.here.deferred = [] → v.here.grp.run = none → ready v → (∃ x, v.filled.fetch = .ok x ∧ x = some w) → w.toNat / 2 ^ 26 = 0 →
      1 ≤ w.toNat / 2 ^ 21 % 2 ^ 5 → w.toNat / 2 ^ 21 % 2 ^ 5 ≤ 24 → w.toNat % 2 ^ 8 = 0 → (∃ x, decode w = .ok x ∧ x = i) → step s = issuesAs i v.filled 3) ∧
    OnlyTlbs u u.filled ∧ (u.walkWaits u.here u.here.wordPc.toNat = true → u.filled.fetch = .ok none) ∧
    (s.pick = some u → ∃ e ∈ s.inTurn, ∃ p ∈ s.pipesFor e.2.2.2, s.candidate e.2.2.2 = true ∧ 2 * e.1 + p ∉ s.used ∧
      u = (s.focus e.1 e.2.1 e.2.2.1).onHere (fun g => { g with grp := { g.grp with pipe := p } }) ∧
      ∀ x ∈ s.inTurn, x.1 = e.1 → s.candidate x.2.2.2 = true → p ∈ s.pipesFor x.2.2.2 →
        (x.2.2.2.isSupervisor = true → e.2.2.2.isSupervisor = true) ∧
        (x.2.2.2.isSupervisor = e.2.2.2.isSupervisor → e.2.2.2.grp.age.getD 0 ≤ x.2.2.2.grp.age.getD 0)) ∧
    (s.agenda = .event i :: rest → s.mgmt.power ≠ .off → encode i = none → step s = exec i { s with agenda := rest }.upkeep) ∧
    (s.agenda = [] → s.mgmt.power = .off → step s = .fault .powerOff)

/-- R414, R353, R379, R413, R198: the state that a reset leaves.  Every tenant is OFF, every privileged register zero, the format
windows disabled, the weight-store generations and the event counters zero, every page has host bias, no gang stands in a user
slot and a supervisor gang in slot 48 of each of the 256 cores.  That memory reads zero, that homes start at time 0, and the entry and first
registers of the supervisor image are the model's choices (log entries 3, 4 and 6). -/
def Sys2Proof.Claims.ResetState : Prop :=
  let s := State.reset
  (∀ t, s.tenantState t = 0) ∧ (∀ k, s.privReg k = 0) ∧ (∀ w a, s.inWindow w a = false) ∧ (∀ r, Table.get 0 s.wsGen r = 0) ∧
  s.deviceBias = [] ∧ s.cycle = 0 ∧ (∀ n k, Table.get 0 (s.core n).evc k = 0) ∧ (∀ k, Table.get 0 s.mgmt.dies k = 0) ∧
  s.mgmt.watchdog = 2400000000 ∧ s.mgmt.cap = 1800 ∧ s.mgmt.step = 0 ∧ s.mgmt.power = .active ∧ s.mgmt.error = none ∧ s.mgmt.log.length = 2 ∧
  (∀ n k, k < 48 → s.gang n k = none) ∧
  (∀ n, 256 ≤ n → s.gang n 48 = none) ∧
  (∀ n, n < 256 → ∃ g, s.gang n 48 = some g ∧ g.core = n ∧ g.slot = 48 ∧ g.stop = .none ∧ g.grp.pc = BitVec.ofNat 64 Config.supervisorEntry ∧
    (∀ l r, g.sreg l r = 0) ∧ (∀ k, g.mask k = 0) ∧ g.granules = 4) ∧
  (∀ a, s.byte a = 0) ∧ ∀ line, (s.home line).wts = 0 ∧ (s.home line).rts = 0 ∧ (s.home line).lease = 16 ∧ (s.home line).poison = false

/-- R79, R190, R209, R296, R373: the words of the sample lines. -/
def Obligations.SampleWords : Prop :=
  Spells 0x1C000000 .nop ∧ Spells 0x04000102 (.setmode 0x102) ∧ Spells 0x20518700 (.sadd 5 6 7) ∧
  Spells 0xC0651702 (.mma 3 10 11 1 0 0 2) ∧ Spells 0xFFFFFFFF .illegal ∧
  Spells 0xC00106C0 (.mma 0 2 3 0 1 1 0) ∧ Spells 0xC4518030 (.wload 5 6 3) ∧ Spells 0xC4518031 (.wloadw 5 6 3) ∧
  Spells 0xC4500002 (.wclr 5) ∧ Spells 0xC4518133 (.mcompS48 5 6 3) ∧ Spells 0xC8700000 (.accz 7) ∧
  Spells 0xC8730D41 (.accrd 7 12 13 4) ∧ Spells 0xC8700003 (.accchk 7) ∧
  Spells 0xCC010000 (.layer 4) ∧ Spells 0xCC214631 (.dmma 2 5 6 3) ∧ Spells 0xCC214632 (.drefresh 2 5 6 3) ∧
  Spells 0xCC01C803 (.dinval 7 8) ∧ Spells 0xCC928004 (.dstat 9 10) ∧
  Spells 0xD0414620 (.acopy 4 5 6 2) ∧ Spells 0xD0414621 (.agath 4 5 6 2) ∧ Spells 0xD04146F2 (.ascat 4 5 6 15) ∧
  Spells 0xD0720903 (.afill 7 8 9 0) ∧
  Spells 0xE8310000 (.svc 3 4) ∧ Spells 0xE8014001 (.trap 5) ∧ Spells 0xE8018702 (.eret 6 7) ∧
  Spells 0xE8020903 (.tlbinv 8 9) ∧ Spells 0xE8020004 (.tlbinva 8) ∧ Spells 0xE8028005 (.haltg 10) ∧
  Spells 0xE8028006 (.wakeg 10)

/-- R54, R75 to R78, R80: every well-formed instruction that has a word is what its word decodes to, whatever its operands. -/
def Obligations.DecodeOfEncode : Prop :=
  ∀ (i : Instr) (w : Nat), wellFormed i = true → encode i = some w → w < 2 ^ 32 ∧ decode (BitVec.ofNat 32 w) = .ok i

/-- R6, R228, R398: memory reads back what was written, byte by byte and line by line, and keeps its canonical form; a store at a
home writes the bytes under its mask and no other.  The canonical form is the model's own (Memory.wf). -/
def Obligations.MemoryReadsBack : Prop :=
  ∀ (s : State) (a x line pts : Nat) (b : Byte) (l : List Byte) (mask : LaneMask) (data : Line) (poison : Bool),
    (s.setByte a b).byte x = (if x = a then b else s.byte x) ∧
    (s.setBytes a l).byte x = (if a ≤ x ∧ x < a + l.length then l.getD (x - a) 0 else s.byte x) ∧
    (s.homeStore line pts mask data poison).byte x =
      (if x / 64 = line ∧ mask.getLsbD (x % 64) = true then BitVec.ofNat 8 (data.toNat / 2 ^ (8 * (x % 64)) % 256) else s.byte x) ∧
    (Memory.wf s.mem = true → Memory.wf (s.setByte a b).mem = true ∧ Memory.wf (s.setBytes a l).mem = true ∧
      Memory.wf (s.homeStore line pts mask data poison).mem = true)

/-- The memory of the machine keeps its canonical form, addresses strictly rising and no entry that reads as an unlisted address
does, over every step. -/
def Obligations.MemoryStaysCanonical : Prop :=
  ∀ (s t : State), Memory.wf s.mem = true → step s = .next t → Memory.wf t.mem = true

/-- The reset state's memory has the canonical form. -/
def Sys2Proof.Claims.ResetMemoryCanonical : Prop := Memory.wf State.reset.mem = true
/-- R414, R353, R379, R413, R198: the state that a reset leaves. Every tenant is OFF, every privileged register zero, the format
windows disabled, the weight-store generations and the event counters zero, every page has host bias, no gang stands in a user
slot and a supervisor gang in slot 48 of each of the 256 cores. That memory reads zero, that homes start at time 0, and the
entry and first registers of the supervisor image are the model's choices (log entries 3, 4 and 6). The reset state's memory has
the canonical form. -/
def Obligations.ResetStateIsCanonical : Prop := Claims.ResetState ∧ Claims.ResetMemoryCanonical
end

