-- ==== Sys2Proof/Laws/Table.lean ====
section
/-! SUPPORT. Sparse tables: what a read finds after a write, and the canonical form that every write keeps. -/

namespace Sys2Proof.Machine

variable {α : Type}

theorem Table.find_insert_self (t : Table α) (k : Nat) (v : α) : (t.insert k v).find k = some v := by
  induction t with
  | nil => simp [Table.insert, Table.find]
  | cons e rest ih =>
    obtain ⟨k', v'⟩ := e
    simp only [Table.insert]
    split
    · simp [Table.find]
    · split
      · simp [Table.find]
      · rename_i h; simp [Table.find, h, ih]

theorem Table.find_insert_ne (t : Table α) {j k : Nat} (v : α) (h : j ≠ k) : (t.insert k v).find j = t.find j := by
  induction t with
  | nil => simp [Table.insert, Table.find, Ne.symm h]
  | cons e rest ih =>
    obtain ⟨k', v'⟩ := e
    simp only [Table.insert]
    split
    · simp [Table.find, Ne.symm h]
    · split
      · subst_vars; simp [Table.find, Ne.symm h]
      · simp only [Table.find, ih]

theorem Table.find_erase_self (t : Table α) (k : Nat) : (t.erase k).find k = none := by
  induction t with
  | nil => rfl
  | cons e rest ih =>
    obtain ⟨k', v'⟩ := e
    simp only [Table.erase]
    split
    · exact ih
    · rename_i h; simp [Table.find, h, ih]

theorem Table.find_erase_ne (t : Table α) {j k : Nat} (h : j ≠ k) : (t.erase k).find j = t.find j := by
  induction t with
  | nil => rfl
  | cons e rest ih =>
    obtain ⟨k', v'⟩ := e
    simp only [Table.erase]
    split
    · subst_vars; simp [Table.find, Ne.symm h, ih]
    · simp only [Table.find, ih]

/-- A read after a write: the value written at its key, the old value elsewhere. -/
theorem Table.find_insert (t : Table α) (j k : Nat) (v : α) : (t.insert k v).find j = if j = k then some v else t.find j := by
  split
  · subst_vars; exact t.find_insert_self _ v
  · exact t.find_insert_ne v ‹_›

theorem Table.find_erase (t : Table α) (j k : Nat) : (t.erase k).find j = if j = k then none else t.find j := by
  split
  · subst_vars; exact t.find_erase_self _
  · exact t.find_erase_ne ‹_›

/-- A read after a write of a sparse table. -/
theorem Table.get_set [DecidableEq α] (d : α) (t : Table α) (j k : Nat) (v : α) :
    Table.get d (Table.set d t k v) j = if j = k then v else Table.get d t j := by
  unfold Table.get Table.set
  split
  · subst_vars; rw [Table.find_erase]; split <;> simp
  · rw [Table.find_insert]; split <;> simp

theorem Table.get_set_self [DecidableEq α] (d : α) (t : Table α) (k : Nat) (v : α) :
    Table.get d (Table.set d t k v) k = v := by simp [Table.get_set]

theorem Table.get_set_ne [DecidableEq α] (d : α) (t : Table α) {j k : Nat} (v : α) (h : j ≠ k) :
    Table.get d (Table.set d t k v) j = Table.get d t j := by simp [Table.get_set, h]

@[simp] theorem Table.get_nil (d : α) (k : Nat) : Table.get d [] k = d := rfl

/-! ## The canonical form -/

/-- Every key of a table is at least `n`. -/
def Table.from (t : Table α) (n : Nat) : Prop := ∀ e ∈ t, n ≤ e.1

theorem Table.rising_cons (k : Nat) (v : α) (t : Table α) :
    Table.rising ((k, v) :: t) = true ↔ t.from (k + 1) ∧ t.rising = true := by
  induction t generalizing k v with
  | nil => simp [Table.rising, Table.from]
  | cons e rest ih =>
    obtain ⟨k', v'⟩ := e
    have h1 : Table.rising ((k, v) :: (k', v') :: rest) = (decide (k < k') && Table.rising ((k', v') :: rest)) := rfl
    rw [h1, Bool.and_eq_true, decide_eq_true_eq]
    constructor
    · rintro ⟨hk, hr⟩
      refine ⟨?_, hr⟩
      intro e he
      rcases List.mem_cons.1 he with rfl | he
      · exact hk
      · have := ((ih k' v').1 hr).1 e he; omega
    · rintro ⟨hf, hr⟩
      exact ⟨hf _ (List.mem_cons_self ..), hr⟩

theorem Table.from_erase {t : Table α} {n : Nat} (k : Nat) (h : t.from n) : (t.erase k).from n := by
  induction t with
  | nil => simp [Table.erase, Table.from]
  | cons e rest ih =>
    obtain ⟨k', v'⟩ := e
    have hr : Table.from rest n := fun e he => h e (List.mem_cons_of_mem _ he)
    simp only [Table.erase]
    split
    · exact ih hr
    · intro e he
      rcases List.mem_cons.1 he with rfl | he
      · exact h _ (List.mem_cons_self ..)
      · exact ih hr e he

theorem Table.from_insert {t : Table α} {n k : Nat} (v : α) (h : t.from n) (hk : n ≤ k) : (t.insert k v).from n := by
  induction t with
  | nil => intro e he; rcases List.mem_cons.1 he with rfl | he; exact hk; cases he
  | cons e rest ih =>
    obtain ⟨k', v'⟩ := e
    have hr : Table.from rest n := fun e he => h e (List.mem_cons_of_mem _ he)
    simp only [Table.insert]
    split
    · intro e he
      rcases List.mem_cons.1 he with rfl | he
      · exact hk
      · exact h e he
    · split
      · intro e he
        rcases List.mem_cons.1 he with rfl | he
        · exact hk
        · exact hr e he
      · intro e he
        rcases List.mem_cons.1 he with rfl | he
        · exact h _ (List.mem_cons_self ..)
        · exact ih hr e he

theorem Table.rising_erase {t : Table α} (k : Nat) (h : t.rising = true) : (t.erase k).rising = true := by
  induction t with
  | nil => rfl
  | cons e rest ih =>
    obtain ⟨k', v'⟩ := e
    obtain ⟨hf, hr⟩ := (Table.rising_cons k' v' rest).1 h
    simp only [Table.erase]
    split
    · exact ih hr
    · exact (Table.rising_cons ..).2 ⟨Table.from_erase k hf, ih hr⟩

theorem Table.rising_insert {t : Table α} (k : Nat) (v : α) (h : t.rising = true) : (t.insert k v).rising = true := by
  induction t with
  | nil => rfl
  | cons e rest ih =>
    obtain ⟨k', v'⟩ := e
    obtain ⟨hf, hr⟩ := (Table.rising_cons k' v' rest).1 h
    simp only [Table.insert]
    split
    · refine (Table.rising_cons ..).2 ⟨?_, h⟩
      intro e he
      rcases List.mem_cons.1 he with rfl | he
      · show k + 1 ≤ k'; omega
      · have := hf e he; omega
    · split
      · subst_vars; exact (Table.rising_cons ..).2 ⟨hf, hr⟩
      · exact (Table.rising_cons ..).2 ⟨Table.from_insert v hf (by omega), ih hr⟩

theorem Table.mem_erase {t : Table α} {k : Nat} {e : Nat × α} (h : e ∈ t.erase k) : e ∈ t := by
  induction t with
  | nil => exact h
  | cons e' rest ih =>
    obtain ⟨k', v'⟩ := e'
    simp only [Table.erase] at h
    split at h
    · exact List.mem_cons_of_mem _ (ih h)
    · rcases List.mem_cons.1 h with rfl | h
      · exact List.mem_cons_self ..
      · exact List.mem_cons_of_mem _ (ih h)

theorem Table.mem_insert {t : Table α} {k : Nat} {v : α} {e : Nat × α} (h : e ∈ t.insert k v) : e = (k, v) ∨ e ∈ t := by
  induction t with
  | nil => left; simpa [Table.insert] using h
  | cons e' rest ih =>
    obtain ⟨k', v'⟩ := e'
    simp only [Table.insert] at h
    split at h
    · rcases List.mem_cons.1 h with rfl | h
      · exact .inl rfl
      · exact .inr h
    · split at h
      · rcases List.mem_cons.1 h with rfl | h
        · exact .inl rfl
        · exact .inr (List.mem_cons_of_mem _ h)
      · rcases List.mem_cons.1 h with rfl | h
        · exact .inr (List.mem_cons_self ..)
        · rcases ih h with h | h
          · exact .inl h
          · exact .inr (List.mem_cons_of_mem _ h)

/-- Writing a sparse table keeps its canonical form. -/
theorem Table.wf_set [DecidableEq α] (d : α) {t : Table α} (k : Nat) (v : α) (h : Table.wf d t = true) :
    Table.wf d (Table.set d t k v) = true := by
  unfold Table.wf Table.set at *
  rw [Bool.and_eq_true, List.all_eq_true] at *
  obtain ⟨hr, ha⟩ := h
  split
  · exact ⟨Table.rising_erase k hr, fun e he => ha e (Table.mem_erase he)⟩
  · refine ⟨Table.rising_insert k v hr, fun e he => ?_⟩
    rcases Table.mem_insert he with rfl | he
    · simpa using ‹_›
    · exact ha e he

theorem Table.wf_nil [DecidableEq α] (d : α) : Table.wf d ([] : Table α) = true := rfl

/-- A fold of writes keeps the canonical form. -/
theorem Table.wf_foldl [DecidableEq α] {β : Type} (d : α) (key : β → Nat) (val : β → α) (l : List β) {t : Table α}
    (h : Table.wf d t = true) : Table.wf d (l.foldl (fun t x => Table.set d t (key x) (val x)) t) = true := by
  induction l generalizing t with
  | nil => exact h
  | cons x rest ih => exact ih (Table.wf_set d _ _ h)

/-- So does a fold of writes from the right. -/
theorem Table.wf_foldr [DecidableEq α] {β : Type} (d : α) (key : β → Nat) (val : β → α) (l : List β) {t : Table α}
    (h : Table.wf d t = true) : Table.wf d (l.foldr (fun x t => Table.set d t (key x) (val x)) t) = true := by
  induction l with
  | nil => exact h
  | cons x rest ih => exact Table.wf_set d _ _ ih

/-- Entries left out keep the keys rising. -/
theorem Table.rising_filter {t : Table α} (p : Nat × α → Bool) (h : t.rising = true) : Table.rising (t.filter p) = true := by
  induction t with
  | nil => exact h
  | cons e rest ih =>
    obtain ⟨hf, hr⟩ := (Table.rising_cons e.1 e.2 rest).1 h
    rw [List.filter_cons]
    split
    · exact (Table.rising_cons e.1 e.2 _).2 ⟨fun x hx => hf x (List.mem_filter.1 hx).1, ih hr⟩
    · exact ih hr

/-- Entries left out keep the canonical form. -/
theorem Table.wf_filter [DecidableEq α] (d : α) {t : Table α} (p : Nat × α → Bool) (h : Table.wf d t = true) :
    Table.wf d (t.filter p) = true := by
  unfold Table.wf at *
  rw [Bool.and_eq_true, List.all_eq_true] at *
  exact ⟨Table.rising_filter p h.1, fun e he => h.2 e (List.mem_filter.1 he).1⟩

end Sys2Proof.Machine
end

