-- ==== Sys2Proof/Laws/Gang.lean ====
section
/-! SUPPORT. Register files of a gang: what a read gives after a write, and what a write leaves alone. -/

namespace Sys2Proof.Machine

/-! ## Lists of bits -/

theorem mem_bitsSet {n m i : Nat} : i ∈ bitsSet n m ↔ i < n ∧ m.testBit i = true := by
  have h : bitOf m i = m.testBit i := by
    unfold bitOf
    rw [Nat.testBit_eq_decide_div_mod_eq, Bool.beq_eq_decide_eq]
  simp [bitsSet, h]

theorem testBit_foldl_or (l : List Nat) (m i : Nat) :
    (l.foldl (fun m i => m ||| 2 ^ i) m).testBit i = (m.testBit i || decide (i ∈ l)) := by
  induction l generalizing m with
  | nil => simp
  | cons x rest ih =>
    simp only [List.foldl_cons, ih, Nat.testBit_or, Nat.testBit_two_pow, List.mem_cons]
    by_cases h : i = x
    · subst h; simp
    · simp [h, Ne.symm h]

/-- A mask has exactly the listed bits. -/
theorem testBit_maskOf (l : List Nat) (i : Nat) : (maskOf l).testBit i = decide (i ∈ l) := by
  unfold maskOf
  rw [testBit_foldl_or]; simp

/-- The participating slices are the bits of the group's slice mask (R37). -/
theorem Gang.mem_members {g : Gang} {sl : Nat} : sl ∈ g.members ↔ g.grp.slices.getLsbD sl = true := by
  unfold Gang.members
  rw [mem_bitsSet]
  constructor
  · exact fun h => h.2
  · intro h
    exact ⟨BitVec.lt_of_getLsbD h, h⟩

theorem Gang.member_lt {g : Gang} {sl : Nat} (h : sl ∈ g.members) : sl < 16 := (mem_bitsSet.1 h).1

theorem Gang.mem_groupLanes {g : Gang} {l : Nat} : l ∈ g.groupLanes ↔ l < 64 ∧ l / 4 ∈ g.members := by
  simp [Gang.groupLanes, Gang.inGroup, Gang.mem_members]

/-! ## Scalar registers -/

theorem Gang.setS_eq (g : Gang) (sl r : Nat) (v : Word64) : g.setS sl r v = { g with s := (g.setS sl r v).s } := by
  unfold Gang.setS; split <;> rfl

/-- A scalar register after a write: S0 is discarded (R56). -/
theorem Gang.sreg_setS (g : Gang) {sl r sl' r' : Nat} (v : Word64) (hr : r < 64) (hr' : r' < 64) :
    (g.setS sl r v).sreg sl' r' = if sl' = sl ∧ r' = r ∧ r' ≠ 0 then v else g.sreg sl' r' := by
  unfold Gang.setS Gang.sreg
  by_cases h0 : r' = 0
  · simp [h0]
  · by_cases hr0 : r = 0
    · simp [h0, hr0]
    · simp only [hr0, h0, if_false, Table.get_set]
      by_cases h : sl' = sl ∧ r' = r
      · obtain ⟨rfl, rfl⟩ := h; simp [h0]
      · have : 64 * sl' + r' ≠ 64 * sl + r := by omega
        simp only [this, if_false]
        rw [if_neg (fun hc => h ⟨hc.1, hc.2.1⟩)]

theorem Gang.writeS_eq (g : Gang) (l : List Nat) (r : Nat) (f : Nat → Word64) :
    g.writeS l r f = { g with s := (g.writeS l r f).s } := by
  unfold Gang.writeS
  induction l generalizing g with
  | nil => rfl
  | cons x rest ih =>
    rw [List.foldl_cons, ih]
    rw [Gang.setS_eq]

/-- A scalar register after a write in each listed slice (R118). -/
theorem Gang.sreg_writeS (g : Gang) (l : List Nat) {r r' : Nat} (f : Nat → Word64) (sl' : Nat) (hr : r < 64) (hr' : r' < 64) :
    (g.writeS l r f).sreg sl' r' = if sl' ∈ l ∧ r' = r ∧ r' ≠ 0 then f sl' else g.sreg sl' r' := by
  unfold Gang.writeS
  induction l generalizing g with
  | nil => simp
  | cons x rest ih =>
    rw [List.foldl_cons, ih, Gang.sreg_setS _ _ hr hr']
    by_cases hx : sl' = x
    · subst hx
      by_cases hm : sl' ∈ rest <;> by_cases h : r' = r ∧ r' ≠ 0 <;> simp [hm, h] <;> intros <;> simp_all
    · simp [hx]

/-! ## SCC -/

theorem Gang.setScc_eq (g : Gang) (sl : Nat) (v : Bool) : g.setScc sl v = { g with scc := (g.setScc sl v).scc } := rfl

theorem getLsbD_ofNat_pow {n sl i : Nat} (hi : i < n) : (BitVec.ofNat n (2 ^ sl)).getLsbD i = decide (i = sl) := by
  rw [BitVec.getLsbD_ofNat, Nat.testBit_two_pow]
  by_cases h : i = sl
  · subst h; simp [hi]
  · simp [h, Ne.symm h]

/-- SCC of a slice after a write. -/
theorem Gang.sccOf_setScc (g : Gang) (sl : Nat) (v : Bool) {i : Nat} (hi : i < 16) :
    (g.setScc sl v).sccOf i = if i = sl then v else g.sccOf i := by
  cases v
  · show (g.scc &&& ~~~(BitVec.ofNat 16 (2 ^ sl))).getLsbD i = if i = sl then false else g.scc.getLsbD i
    rw [BitVec.getLsbD_and, BitVec.getLsbD_not, getLsbD_ofNat_pow hi]
    by_cases h : i = sl
    · simp [h]
    · rw [if_neg h, decide_eq_false h, decide_eq_true hi]; simp
  · show (g.scc ||| BitVec.ofNat 16 (2 ^ sl)).getLsbD i = if i = sl then true else g.scc.getLsbD i
    rw [BitVec.getLsbD_or, getLsbD_ofNat_pow hi]
    by_cases h : i = sl <;> simp [h]

theorem Gang.writeScc_eq (g : Gang) (l : List Nat) (f : Nat → Bool) :
    g.writeScc l f = { g with scc := (g.writeScc l f).scc } := by
  unfold Gang.writeScc
  induction l generalizing g with
  | nil => rfl
  | cons x rest ih =>
    rw [List.foldl_cons, ih]
    rw [Gang.setScc_eq]

theorem Gang.sccOf_writeScc (g : Gang) (l : List Nat) (f : Nat → Bool) {i : Nat} (hi : i < 16) :
    (g.writeScc l f).sccOf i = if i ∈ l then f i else g.sccOf i := by
  unfold Gang.writeScc
  induction l generalizing g with
  | nil => simp
  | cons x rest ih =>
    rw [List.foldl_cons, ih, Gang.sccOf_setScc _ _ _ hi]
    by_cases hx : i = x
    · subst hx; by_cases hm : i ∈ rest <;> simp [hm]
    · simp [hx]

/-! ## Masks -/

theorem Gang.setMask_eq (g : Gang) (i : Nat) (v : LaneMask) : g.setMask i v = { g with m := (g.setMask i v).m } := rfl

@[simp] theorem Gang.mask_setMask (g : Gang) (i j : Nat) (v : LaneMask) :
    (g.setMask i v).mask j = if j = i then v else g.mask j := by
  unfold Gang.setMask Gang.mask; exact Table.get_set ..

theorem Gang.writeMask_eq (g : Gang) (i : Nat) (l : List Nat) (v : LaneMask) :
    g.writeMask i l v = { g with m := (g.writeMask i l v).m } := rfl

theorem getLsbD_maskOf (l : List Nat) {i : Nat} (hi : i < 64) : (BitVec.ofNat 64 (maskOf l)).getLsbD i = decide (i ∈ l) := by
  rw [BitVec.getLsbD_ofNat, testBit_maskOf]; simp [hi]

/-- A bit of a mask register after some lanes of one are written (R57). -/
theorem Gang.mask_writeMask (g : Gang) (i : Nat) (l : List Nat) (v : LaneMask) (j : Nat) {b : Nat} (hb : b < 64) :
    ((g.writeMask i l v).mask j).getLsbD b = if j = i ∧ b ∈ l then v.getLsbD b else (g.mask j).getLsbD b := by
  unfold Gang.writeMask
  rw [Gang.mask_setMask]
  by_cases hj : j = i
  · subst hj
    rw [if_pos rfl, BitVec.getLsbD_or, BitVec.getLsbD_and, BitVec.getLsbD_and, BitVec.getLsbD_not, getLsbD_maskOf _ hb]
    by_cases hl : b ∈ l <;> simp only [hl, hb, decide_true, decide_false, Bool.not_true, Bool.not_false, Bool.and_false,
      Bool.and_true, Bool.or_false, Bool.false_or, and_self, and_false, if_true, if_false]
  · simp [hj]

/-! ## MODE -/

theorem Gang.setMode_eq (g : Gang) (sl : Nat) (v : Word) : g.setMode sl v = { g with mode := (g.setMode sl v).mode } := rfl

@[simp] theorem Gang.modeOf_setMode (g : Gang) (sl i : Nat) (v : Word) :
    (g.setMode sl v).modeOf i = if i = sl then v else g.modeOf i := by
  unfold Gang.setMode Gang.modeOf; exact Table.get_set ..

theorem Gang.foldl_setMode (g : Gang) (l : List Nat) (f : Nat → Word) :
    l.foldl (fun acc sl => acc.setMode sl (f sl)) g = { g with mode := (l.foldl (fun acc sl => acc.setMode sl (f sl)) g).mode } := by
  induction l generalizing g with
  | nil => rfl
  | cons x rest ih => rw [List.foldl_cons, ih]; rfl

theorem Gang.modeOf_foldl_setMode (g : Gang) (l : List Nat) (f : Nat → Word) (i : Nat) :
    (l.foldl (fun acc sl => acc.setMode sl (f sl)) g).modeOf i = if i ∈ l then f i else g.modeOf i := by
  induction l generalizing g with
  | nil => simp
  | cons x rest ih =>
    rw [List.foldl_cons, ih, Gang.modeOf_setMode]
    by_cases hx : i = x
    · subst hx; by_cases hm : i ∈ rest <;> simp [hm]
    · simp [hx]

/-! ## V and T registers -/

theorem Gang.setV_eq (g : Gang) (c l : Nat) (v : Word) : g.setV c l v = { g with v := (g.setV c l v).v } := rfl

theorem Gang.vword_setV (g : Gang) {c l c' l' : Nat} (v : Word) (hl : l < 64) (hl' : l' < 64) :
    (g.setV c l v).vword c' l' = if c' = c ∧ l' = l then v else g.vword c' l' := by
  unfold Gang.setV Gang.vword
  rw [Table.get_set]
  by_cases h : c' = c ∧ l' = l
  · obtain ⟨rfl, rfl⟩ := h; simp
  · rw [if_neg h, if_neg (fun hk => h (by omega))]

theorem Gang.setOperand_eq (g : Gang) (w : Bool) (c l x : Nat) :
    g.setOperand w c l x = { g with v := (g.setOperand w c l x).v } := by
  unfold Gang.setOperand; split <;> rfl

/-- A lane's words after its operand is written: one word, or the pair (R60). -/
theorem Gang.vword_setOperand (g : Gang) (w : Bool) {c l c' l' : Nat} (x : Nat) (hl : l < 64) (hl' : l' < 64) :
    (g.setOperand w c l x).vword c' l' =
      if l' = l ∧ c' = c then BitVec.ofNat 32 x
      else if l' = l ∧ w = true ∧ c' = c + 1 then BitVec.ofNat 32 (x / 2 ^ 32)
      else g.vword c' l' := by
  unfold Gang.setOperand
  cases w
  · rw [if_neg (by simp), Gang.vword_setV _ _ hl hl']
    by_cases h : l' = l <;> by_cases hc : c' = c <;> simp [h, hc]
  · rw [if_pos rfl, Gang.vword_setV _ _ hl hl', Gang.vword_setV _ _ hl hl']
    by_cases h : l' = l <;> by_cases hc : c' = c <;> by_cases hc1 : c' = c + 1 <;> simp [h, hc, hc1] <;> omega

theorem Gang.foldl_setOperand_eq (g : Gang) (l : List Nat) (w : Nat → Bool) (d : Nat) (f : Nat → Nat) :
    l.foldl (fun acc x => acc.setOperand (w x) d x (f x)) g =
      { g with v := (l.foldl (fun acc x => acc.setOperand (w x) d x (f x)) g).v } := by
  induction l generalizing g with
  | nil => rfl
  | cons x rest ih =>
    rw [List.foldl_cons, ih]
    rw [Gang.setOperand_eq]

/-- Words of V and T registers after the listed lanes of one operand are written. -/
theorem Gang.vword_foldl_setOperand (g : Gang) (l : List Nat) (w : Nat → Bool) (d : Nat) (f : Nat → Nat) (c : Nat) {i : Nat}
    (hl : ∀ x ∈ l, x < 64) (hi : i < 64) :
    (l.foldl (fun acc x => acc.setOperand (w x) d x (f x)) g).vword c i =
      if i ∈ l ∧ c = d then BitVec.ofNat 32 (f i)
      else if i ∈ l ∧ w i = true ∧ c = d + 1 then BitVec.ofNat 32 (f i / 2 ^ 32)
      else g.vword c i := by
  induction l generalizing g with
  | nil => simp
  | cons x rest ih =>
    rw [List.foldl_cons, ih _ (fun y hy => hl y (List.mem_cons_of_mem _ hy)),
      Gang.vword_setOperand _ _ _ (hl x (List.mem_cons_self ..)) hi]
    by_cases hx : i = x
    · subst hx
      by_cases hm : i ∈ rest <;> by_cases hc : c = d <;> by_cases hc1 : c = d + 1 <;> by_cases hw : w i = true <;>
        simp_all
    · simp [hx]

theorem Gang.writeLanes_eq (g : Gang) (l : List Nat) (d : Nat) (f : Nat → Nat) :
    g.writeLanes l d f = { g with v := (g.writeLanes l d f).v } := Gang.foldl_setOperand_eq ..

theorem Gang.vword_writeLanes (g : Gang) (l : List Nat) (d : Nat) (f : Nat → Nat) (c : Nat) {i : Nat}
    (hl : ∀ x ∈ l, x < 64) (hi : i < 64) :
    (g.writeLanes l d f).vword c i =
      if i ∈ l ∧ c = d then BitVec.ofNat 32 (f i)
      else if i ∈ l ∧ g.wideLane i = true ∧ c = d + 1 then BitVec.ofNat 32 (f i / 2 ^ 32)
      else g.vword c i := Gang.vword_foldl_setOperand g l g.wideLane d f c hl hi

theorem Gang.active_lt {g : Gang} {l : Nat} (h : l ∈ g.active) : l < 64 :=
  (Gang.mem_groupLanes.1 (List.mem_filter.1 h).1).1

theorem Gang.execLanes_lt {g : Gang} {l : Nat} (h : l ∈ g.execLanes) : l < 64 :=
  (Gang.mem_groupLanes.1 (List.mem_filter.1 h).1).1

/-- The lane condition active() of R9: a lane of the group whose EXEC bit is 1 and that the guard selects. -/
theorem Gang.mem_active {g : Gang} {l : Nat} :
    l ∈ g.active ↔ (l < 64 ∧ l / 4 ∈ g.members) ∧ (g.mask 0).getLsbD l = true ∧ g.guardSelects l = true := by
  simp [Gang.active, Gang.mem_groupLanes]

/-! ## The group's place -/

/-- Moving past a word changes only the group's place. -/
theorem Gang.advance_eq (g : Gang) : g.advance = { g with grp := g.advance.grp } := by
  unfold Gang.advance
  split
  · rfl
  · split <;> rfl

/-- Moving past a word depends on the group alone. -/
theorem Gang.advance_grp {g h : Gang} (e : h.grp = g.grp) : h.advance.grp = g.advance.grp := by
  unfold Gang.advance
  rw [e]
  split
  · exact e
  · split <;> simp

/-- A gang that differs from another outside the group, moved past its word. -/
theorem Gang.advance_of {g h : Gang} (e : h.grp = g.grp) : h.advance = { h with grp := g.advance.grp } := by
  rw [Gang.advance_eq, Gang.advance_grp e]

@[simp] theorem Gang.markT_nil (g : Gang) : g.markT [] = g := rfl

theorem Gang.markT_eq (g : Gang) (l : List Nat) : g.markT l = { g with grp := (g.markT l).grp } := rfl

end Sys2Proof.Machine
end

