-- ==== Sys2Proof/Laws/State.lean ====
section
/-! SUPPORT. What each named update of the state, and of a gang, leaves as it was: one lemma for each field, so that no proof
unfolds an update; and what the tables of the state hold after a write. -/

namespace Sys2Proof.Machine


/-! ### State.setByte -/

@[simp] theorem State.setByte_here (s : State) (a : Nat) (b : Byte) : (s.setByte a b).here = s.here := rfl
@[simp] theorem State.setByte_gangs (s : State) (a : Nat) (b : Byte) : (s.setByte a b).gangs = s.gangs := rfl
@[simp] theorem State.setByte_cores (s : State) (a : Nat) (b : Byte) : (s.setByte a b).cores = s.cores := rfl
@[simp] theorem State.setByte_clusters (s : State) (a : Nat) (b : Byte) : (s.setByte a b).clusters = s.clusters := rfl
@[simp] theorem State.setByte_blocks (s : State) (a : Nat) (b : Byte) : (s.setByte a b).blocks = s.blocks := rfl
@[simp] theorem State.setByte_launches (s : State) (a : Nat) (b : Byte) : (s.setByte a b).launches = s.launches := rfl
@[simp] theorem State.setByte_jobs (s : State) (a : Nat) (b : Byte) : (s.setByte a b).jobs = s.jobs := rfl
@[simp] theorem State.setByte_priv (s : State) (a : Nat) (b : Byte) : (s.setByte a b).priv = s.priv := rfl
@[simp] theorem State.setByte_bar (s : State) (a : Nat) (b : Byte) : (s.setByte a b).bar = s.bar := rfl
@[simp] theorem State.setByte_homes (s : State) (a : Nat) (b : Byte) : (s.setByte a b).homes = s.homes := rfl
@[simp] theorem State.setByte_dramPoison (s : State) (a : Nat) (b : Byte) : (s.setByte a b).dramPoison = s.dramPoison := rfl
@[simp] theorem State.setByte_mts (s : State) (a : Nat) (b : Byte) : (s.setByte a b).mts = s.mts := rfl
@[simp] theorem State.setByte_clocks (s : State) (a : Nat) (b : Byte) : (s.setByte a b).clocks = s.clocks := rfl
@[simp] theorem State.setByte_hts (s : State) (a : Nat) (b : Byte) : (s.setByte a b).hts = s.hts := rfl
@[simp] theorem State.setByte_rebasing (s : State) (a : Nat) (b : Byte) : (s.setByte a b).rebasing = s.rebasing := rfl
@[simp] theorem State.setByte_rebases (s : State) (a : Nat) (b : Byte) : (s.setByte a b).rebases = s.rebases := rfl
@[simp] theorem State.setByte_work (s : State) (a : Nat) (b : Byte) : (s.setByte a b).work = s.work := rfl
@[simp] theorem State.setByte_watches (s : State) (a : Nat) (b : Byte) : (s.setByte a b).watches = s.watches := rfl
@[simp] theorem State.setByte_arrivals (s : State) (a : Nat) (b : Byte) : (s.setByte a b).arrivals = s.arrivals := rfl
@[simp] theorem State.setByte_ops (s : State) (a : Nat) (b : Byte) : (s.setByte a b).ops = s.ops := rfl
@[simp] theorem State.setByte_peerData (s : State) (a : Nat) (b : Byte) : (s.setByte a b).peerData = s.peerData := rfl
@[simp] theorem State.setByte_ws (s : State) (a : Nat) (b : Byte) : (s.setByte a b).ws = s.ws := rfl
@[simp] theorem State.setByte_wsGen (s : State) (a : Nat) (b : Byte) : (s.setByte a b).wsGen = s.wsGen := rfl
@[simp] theorem State.setByte_wsPoison (s : State) (a : Nat) (b : Byte) : (s.setByte a b).wsPoison = s.wsPoison := rfl
@[simp] theorem State.setByte_wsBusy (s : State) (a : Nat) (b : Byte) : (s.setByte a b).wsBusy = s.wsBusy := rfl
@[simp] theorem State.setByte_umbra (s : State) (a : Nat) (b : Byte) : (s.setByte a b).umbra = s.umbra := rfl
@[simp] theorem State.setByte_saved (s : State) (a : Nat) (b : Byte) : (s.setByte a b).saved = s.saved := rfl
@[simp] theorem State.setByte_preempt (s : State) (a : Nat) (b : Byte) : (s.setByte a b).preempt = s.preempt := rfl
@[simp] theorem State.setByte_ringIn (s : State) (a : Nat) (b : Byte) : (s.setByte a b).ringIn = s.ringIn := rfl
@[simp] theorem State.setByte_ringOut (s : State) (a : Nat) (b : Byte) : (s.setByte a b).ringOut = s.ringOut := rfl
@[simp] theorem State.setByte_ringStopped (s : State) (a : Nat) (b : Byte) : (s.setByte a b).ringStopped = s.ringStopped := rfl
@[simp] theorem State.setByte_ff (s : State) (a : Nat) (b : Byte) : (s.setByte a b).ff = s.ff := rfl
@[simp] theorem State.setByte_packets (s : State) (a : Nat) (b : Byte) : (s.setByte a b).packets = s.packets := rfl
@[simp] theorem State.setByte_deviceBias (s : State) (a : Nat) (b : Byte) : (s.setByte a b).deviceBias = s.deviceBias := rfl
@[simp] theorem State.setByte_flip (s : State) (a : Nat) (b : Byte) : (s.setByte a b).flip = s.flip := rfl
@[simp] theorem State.setByte_heldHost (s : State) (a : Nat) (b : Byte) : (s.setByte a b).heldHost = s.heldHost := rfl
@[simp] theorem State.setByte_sent (s : State) (a : Nat) (b : Byte) : (s.setByte a b).sent = s.sent := rfl
@[simp] theorem State.setByte_mgmt (s : State) (a : Nat) (b : Byte) : (s.setByte a b).mgmt = s.mgmt := rfl
@[simp] theorem State.setByte_seen (s : State) (a : Nat) (b : Byte) : (s.setByte a b).seen = s.seen := rfl
@[simp] theorem State.setByte_nextId (s : State) (a : Nat) (b : Byte) : (s.setByte a b).nextId = s.nextId := rfl
@[simp] theorem State.setByte_used (s : State) (a : Nat) (b : Byte) : (s.setByte a b).used = s.used := rfl
@[simp] theorem State.setByte_agenda (s : State) (a : Nat) (b : Byte) : (s.setByte a b).agenda = s.agenda := rfl
@[simp] theorem State.setByte_tick (s : State) (a : Nat) (b : Byte) : (s.setByte a b).tick = s.tick := rfl
@[simp] theorem State.setByte_cycle (s : State) (a : Nat) (b : Byte) : (s.setByte a b).cycle = s.cycle := rfl

/-! ### State.setBar -/

@[simp] theorem State.setBar_here (s : State) (o v : Nat) : (s.setBar o v).here = s.here := rfl
@[simp] theorem State.setBar_gangs (s : State) (o v : Nat) : (s.setBar o v).gangs = s.gangs := rfl
@[simp] theorem State.setBar_cores (s : State) (o v : Nat) : (s.setBar o v).cores = s.cores := rfl
@[simp] theorem State.setBar_clusters (s : State) (o v : Nat) : (s.setBar o v).clusters = s.clusters := rfl
@[simp] theorem State.setBar_blocks (s : State) (o v : Nat) : (s.setBar o v).blocks = s.blocks := rfl
@[simp] theorem State.setBar_launches (s : State) (o v : Nat) : (s.setBar o v).launches = s.launches := rfl
@[simp] theorem State.setBar_jobs (s : State) (o v : Nat) : (s.setBar o v).jobs = s.jobs := rfl
@[simp] theorem State.setBar_priv (s : State) (o v : Nat) : (s.setBar o v).priv = s.priv := rfl
@[simp] theorem State.setBar_mem (s : State) (o v : Nat) : (s.setBar o v).mem = s.mem := rfl
@[simp] theorem State.setBar_homes (s : State) (o v : Nat) : (s.setBar o v).homes = s.homes := rfl
@[simp] theorem State.setBar_dramPoison (s : State) (o v : Nat) : (s.setBar o v).dramPoison = s.dramPoison := rfl
@[simp] theorem State.setBar_mts (s : State) (o v : Nat) : (s.setBar o v).mts = s.mts := rfl
@[simp] theorem State.setBar_clocks (s : State) (o v : Nat) : (s.setBar o v).clocks = s.clocks := rfl
@[simp] theorem State.setBar_hts (s : State) (o v : Nat) : (s.setBar o v).hts = s.hts := rfl
@[simp] theorem State.setBar_rebasing (s : State) (o v : Nat) : (s.setBar o v).rebasing = s.rebasing := rfl
@[simp] theorem State.setBar_rebases (s : State) (o v : Nat) : (s.setBar o v).rebases = s.rebases := rfl
@[simp] theorem State.setBar_work (s : State) (o v : Nat) : (s.setBar o v).work = s.work := rfl
@[simp] theorem State.setBar_watches (s : State) (o v : Nat) : (s.setBar o v).watches = s.watches := rfl
@[simp] theorem State.setBar_arrivals (s : State) (o v : Nat) : (s.setBar o v).arrivals = s.arrivals := rfl
@[simp] theorem State.setBar_ops (s : State) (o v : Nat) : (s.setBar o v).ops = s.ops := rfl
@[simp] theorem State.setBar_peerData (s : State) (o v : Nat) : (s.setBar o v).peerData = s.peerData := rfl
@[simp] theorem State.setBar_ws (s : State) (o v : Nat) : (s.setBar o v).ws = s.ws := rfl
@[simp] theorem State.setBar_wsGen (s : State) (o v : Nat) : (s.setBar o v).wsGen = s.wsGen := rfl
@[simp] theorem State.setBar_wsPoison (s : State) (o v : Nat) : (s.setBar o v).wsPoison = s.wsPoison := rfl
@[simp] theorem State.setBar_wsBusy (s : State) (o v : Nat) : (s.setBar o v).wsBusy = s.wsBusy := rfl
@[simp] theorem State.setBar_umbra (s : State) (o v : Nat) : (s.setBar o v).umbra = s.umbra := rfl
@[simp] theorem State.setBar_saved (s : State) (o v : Nat) : (s.setBar o v).saved = s.saved := rfl
@[simp] theorem State.setBar_preempt (s : State) (o v : Nat) : (s.setBar o v).preempt = s.preempt := rfl
@[simp] theorem State.setBar_ringIn (s : State) (o v : Nat) : (s.setBar o v).ringIn = s.ringIn := rfl
@[simp] theorem State.setBar_ringOut (s : State) (o v : Nat) : (s.setBar o v).ringOut = s.ringOut := rfl
@[simp] theorem State.setBar_ringStopped (s : State) (o v : Nat) : (s.setBar o v).ringStopped = s.ringStopped := rfl
@[simp] theorem State.setBar_ff (s : State) (o v : Nat) : (s.setBar o v).ff = s.ff := rfl
@[simp] theorem State.setBar_packets (s : State) (o v : Nat) : (s.setBar o v).packets = s.packets := rfl
@[simp] theorem State.setBar_deviceBias (s : State) (o v : Nat) : (s.setBar o v).deviceBias = s.deviceBias := rfl
@[simp] theorem State.setBar_flip (s : State) (o v : Nat) : (s.setBar o v).flip = s.flip := rfl
@[simp] theorem State.setBar_heldHost (s : State) (o v : Nat) : (s.setBar o v).heldHost = s.heldHost := rfl
@[simp] theorem State.setBar_sent (s : State) (o v : Nat) : (s.setBar o v).sent = s.sent := rfl
@[simp] theorem State.setBar_mgmt (s : State) (o v : Nat) : (s.setBar o v).mgmt = s.mgmt := rfl
@[simp] theorem State.setBar_seen (s : State) (o v : Nat) : (s.setBar o v).seen = s.seen := rfl
@[simp] theorem State.setBar_nextId (s : State) (o v : Nat) : (s.setBar o v).nextId = s.nextId := rfl
@[simp] theorem State.setBar_used (s : State) (o v : Nat) : (s.setBar o v).used = s.used := rfl
@[simp] theorem State.setBar_agenda (s : State) (o v : Nat) : (s.setBar o v).agenda = s.agenda := rfl
@[simp] theorem State.setBar_tick (s : State) (o v : Nat) : (s.setBar o v).tick = s.tick := rfl
@[simp] theorem State.setBar_cycle (s : State) (o v : Nat) : (s.setBar o v).cycle = s.cycle := rfl

/-! ### State.setPriv -/

@[simp] theorem State.setPriv_here (s : State) (i : Nat) (v : Word64) : (s.setPriv i v).here = s.here := rfl
@[simp] theorem State.setPriv_gangs (s : State) (i : Nat) (v : Word64) : (s.setPriv i v).gangs = s.gangs := rfl
@[simp] theorem State.setPriv_cores (s : State) (i : Nat) (v : Word64) : (s.setPriv i v).cores = s.cores := rfl
@[simp] theorem State.setPriv_clusters (s : State) (i : Nat) (v : Word64) : (s.setPriv i v).clusters = s.clusters := rfl
@[simp] theorem State.setPriv_blocks (s : State) (i : Nat) (v : Word64) : (s.setPriv i v).blocks = s.blocks := rfl
@[simp] theorem State.setPriv_launches (s : State) (i : Nat) (v : Word64) : (s.setPriv i v).launches = s.launches := rfl
@[simp] theorem State.setPriv_jobs (s : State) (i : Nat) (v : Word64) : (s.setPriv i v).jobs = s.jobs := rfl
@[simp] theorem State.setPriv_bar (s : State) (i : Nat) (v : Word64) : (s.setPriv i v).bar = s.bar := rfl
@[simp] theorem State.setPriv_mem (s : State) (i : Nat) (v : Word64) : (s.setPriv i v).mem = s.mem := rfl
@[simp] theorem State.setPriv_homes (s : State) (i : Nat) (v : Word64) : (s.setPriv i v).homes = s.homes := rfl
@[simp] theorem State.setPriv_dramPoison (s : State) (i : Nat) (v : Word64) : (s.setPriv i v).dramPoison = s.dramPoison := rfl
@[simp] theorem State.setPriv_mts (s : State) (i : Nat) (v : Word64) : (s.setPriv i v).mts = s.mts := rfl
@[simp] theorem State.setPriv_clocks (s : State) (i : Nat) (v : Word64) : (s.setPriv i v).clocks = s.clocks := rfl
@[simp] theorem State.setPriv_hts (s : State) (i : Nat) (v : Word64) : (s.setPriv i v).hts = s.hts := rfl
@[simp] theorem State.setPriv_rebasing (s : State) (i : Nat) (v : Word64) : (s.setPriv i v).rebasing = s.rebasing := rfl
@[simp] theorem State.setPriv_rebases (s : State) (i : Nat) (v : Word64) : (s.setPriv i v).rebases = s.rebases := rfl
@[simp] theorem State.setPriv_work (s : State) (i : Nat) (v : Word64) : (s.setPriv i v).work = s.work := rfl
@[simp] theorem State.setPriv_watches (s : State) (i : Nat) (v : Word64) : (s.setPriv i v).watches = s.watches := rfl
@[simp] theorem State.setPriv_arrivals (s : State) (i : Nat) (v : Word64) : (s.setPriv i v).arrivals = s.arrivals := rfl
@[simp] theorem State.setPriv_ops (s : State) (i : Nat) (v : Word64) : (s.setPriv i v).ops = s.ops := rfl
@[simp] theorem State.setPriv_peerData (s : State) (i : Nat) (v : Word64) : (s.setPriv i v).peerData = s.peerData := rfl
@[simp] theorem State.setPriv_ws (s : State) (i : Nat) (v : Word64) : (s.setPriv i v).ws = s.ws := rfl
@[simp] theorem State.setPriv_wsGen (s : State) (i : Nat) (v : Word64) : (s.setPriv i v).wsGen = s.wsGen := rfl
@[simp] theorem State.setPriv_wsPoison (s : State) (i : Nat) (v : Word64) : (s.setPriv i v).wsPoison = s.wsPoison := rfl
@[simp] theorem State.setPriv_wsBusy (s : State) (i : Nat) (v : Word64) : (s.setPriv i v).wsBusy = s.wsBusy := rfl
@[simp] theorem State.setPriv_umbra (s : State) (i : Nat) (v : Word64) : (s.setPriv i v).umbra = s.umbra := rfl
@[simp] theorem State.setPriv_saved (s : State) (i : Nat) (v : Word64) : (s.setPriv i v).saved = s.saved := rfl
@[simp] theorem State.setPriv_preempt (s : State) (i : Nat) (v : Word64) : (s.setPriv i v).preempt = s.preempt := rfl
@[simp] theorem State.setPriv_ringIn (s : State) (i : Nat) (v : Word64) : (s.setPriv i v).ringIn = s.ringIn := rfl
@[simp] theorem State.setPriv_ringOut (s : State) (i : Nat) (v : Word64) : (s.setPriv i v).ringOut = s.ringOut := rfl
@[simp] theorem State.setPriv_ringStopped (s : State) (i : Nat) (v : Word64) : (s.setPriv i v).ringStopped = s.ringStopped := rfl
@[simp] theorem State.setPriv_ff (s : State) (i : Nat) (v : Word64) : (s.setPriv i v).ff = s.ff := rfl
@[simp] theorem State.setPriv_packets (s : State) (i : Nat) (v : Word64) : (s.setPriv i v).packets = s.packets := rfl
@[simp] theorem State.setPriv_deviceBias (s : State) (i : Nat) (v : Word64) : (s.setPriv i v).deviceBias = s.deviceBias := rfl
@[simp] theorem State.setPriv_flip (s : State) (i : Nat) (v : Word64) : (s.setPriv i v).flip = s.flip := rfl
@[simp] theorem State.setPriv_heldHost (s : State) (i : Nat) (v : Word64) : (s.setPriv i v).heldHost = s.heldHost := rfl
@[simp] theorem State.setPriv_sent (s : State) (i : Nat) (v : Word64) : (s.setPriv i v).sent = s.sent := rfl
@[simp] theorem State.setPriv_mgmt (s : State) (i : Nat) (v : Word64) : (s.setPriv i v).mgmt = s.mgmt := rfl
@[simp] theorem State.setPriv_seen (s : State) (i : Nat) (v : Word64) : (s.setPriv i v).seen = s.seen := rfl
@[simp] theorem State.setPriv_nextId (s : State) (i : Nat) (v : Word64) : (s.setPriv i v).nextId = s.nextId := rfl
@[simp] theorem State.setPriv_used (s : State) (i : Nat) (v : Word64) : (s.setPriv i v).used = s.used := rfl
@[simp] theorem State.setPriv_agenda (s : State) (i : Nat) (v : Word64) : (s.setPriv i v).agenda = s.agenda := rfl
@[simp] theorem State.setPriv_tick (s : State) (i : Nat) (v : Word64) : (s.setPriv i v).tick = s.tick := rfl
@[simp] theorem State.setPriv_cycle (s : State) (i : Nat) (v : Word64) : (s.setPriv i v).cycle = s.cycle := rfl

/-! ### State.setCore -/

@[simp] theorem State.setCore_here (s : State) (n : Nat) (c : Core) : (s.setCore n c).here = s.here := rfl
@[simp] theorem State.setCore_gangs (s : State) (n : Nat) (c : Core) : (s.setCore n c).gangs = s.gangs := rfl
@[simp] theorem State.setCore_clusters (s : State) (n : Nat) (c : Core) : (s.setCore n c).clusters = s.clusters := rfl
@[simp] theorem State.setCore_blocks (s : State) (n : Nat) (c : Core) : (s.setCore n c).blocks = s.blocks := rfl
@[simp] theorem State.setCore_launches (s : State) (n : Nat) (c : Core) : (s.setCore n c).launches = s.launches := rfl
@[simp] theorem State.setCore_jobs (s : State) (n : Nat) (c : Core) : (s.setCore n c).jobs = s.jobs := rfl
@[simp] theorem State.setCore_priv (s : State) (n : Nat) (c : Core) : (s.setCore n c).priv = s.priv := rfl
@[simp] theorem State.setCore_bar (s : State) (n : Nat) (c : Core) : (s.setCore n c).bar = s.bar := rfl
@[simp] theorem State.setCore_mem (s : State) (n : Nat) (c : Core) : (s.setCore n c).mem = s.mem := rfl
@[simp] theorem State.setCore_homes (s : State) (n : Nat) (c : Core) : (s.setCore n c).homes = s.homes := rfl
@[simp] theorem State.setCore_dramPoison (s : State) (n : Nat) (c : Core) : (s.setCore n c).dramPoison = s.dramPoison := rfl
@[simp] theorem State.setCore_mts (s : State) (n : Nat) (c : Core) : (s.setCore n c).mts = s.mts := rfl
@[simp] theorem State.setCore_clocks (s : State) (n : Nat) (c : Core) : (s.setCore n c).clocks = s.clocks := rfl
@[simp] theorem State.setCore_hts (s : State) (n : Nat) (c : Core) : (s.setCore n c).hts = s.hts := rfl
@[simp] theorem State.setCore_rebasing (s : State) (n : Nat) (c : Core) : (s.setCore n c).rebasing = s.rebasing := rfl
@[simp] theorem State.setCore_rebases (s : State) (n : Nat) (c : Core) : (s.setCore n c).rebases = s.rebases := rfl
@[simp] theorem State.setCore_work (s : State) (n : Nat) (c : Core) : (s.setCore n c).work = s.work := rfl
@[simp] theorem State.setCore_watches (s : State) (n : Nat) (c : Core) : (s.setCore n c).watches = s.watches := rfl
@[simp] theorem State.setCore_arrivals (s : State) (n : Nat) (c : Core) : (s.setCore n c).arrivals = s.arrivals := rfl
@[simp] theorem State.setCore_ops (s : State) (n : Nat) (c : Core) : (s.setCore n c).ops = s.ops := rfl
@[simp] theorem State.setCore_peerData (s : State) (n : Nat) (c : Core) : (s.setCore n c).peerData = s.peerData := rfl
@[simp] theorem State.setCore_ws (s : State) (n : Nat) (c : Core) : (s.setCore n c).ws = s.ws := rfl
@[simp] theorem State.setCore_wsGen (s : State) (n : Nat) (c : Core) : (s.setCore n c).wsGen = s.wsGen := rfl
@[simp] theorem State.setCore_wsPoison (s : State) (n : Nat) (c : Core) : (s.setCore n c).wsPoison = s.wsPoison := rfl
@[simp] theorem State.setCore_wsBusy (s : State) (n : Nat) (c : Core) : (s.setCore n c).wsBusy = s.wsBusy := rfl
@[simp] theorem State.setCore_umbra (s : State) (n : Nat) (c : Core) : (s.setCore n c).umbra = s.umbra := rfl
@[simp] theorem State.setCore_saved (s : State) (n : Nat) (c : Core) : (s.setCore n c).saved = s.saved := rfl
@[simp] theorem State.setCore_preempt (s : State) (n : Nat) (c : Core) : (s.setCore n c).preempt = s.preempt := rfl
@[simp] theorem State.setCore_ringIn (s : State) (n : Nat) (c : Core) : (s.setCore n c).ringIn = s.ringIn := rfl
@[simp] theorem State.setCore_ringOut (s : State) (n : Nat) (c : Core) : (s.setCore n c).ringOut = s.ringOut := rfl
@[simp] theorem State.setCore_ringStopped (s : State) (n : Nat) (c : Core) : (s.setCore n c).ringStopped = s.ringStopped := rfl
@[simp] theorem State.setCore_ff (s : State) (n : Nat) (c : Core) : (s.setCore n c).ff = s.ff := rfl
@[simp] theorem State.setCore_packets (s : State) (n : Nat) (c : Core) : (s.setCore n c).packets = s.packets := rfl
@[simp] theorem State.setCore_deviceBias (s : State) (n : Nat) (c : Core) : (s.setCore n c).deviceBias = s.deviceBias := rfl
@[simp] theorem State.setCore_flip (s : State) (n : Nat) (c : Core) : (s.setCore n c).flip = s.flip := rfl
@[simp] theorem State.setCore_heldHost (s : State) (n : Nat) (c : Core) : (s.setCore n c).heldHost = s.heldHost := rfl
@[simp] theorem State.setCore_sent (s : State) (n : Nat) (c : Core) : (s.setCore n c).sent = s.sent := rfl
@[simp] theorem State.setCore_mgmt (s : State) (n : Nat) (c : Core) : (s.setCore n c).mgmt = s.mgmt := rfl
@[simp] theorem State.setCore_seen (s : State) (n : Nat) (c : Core) : (s.setCore n c).seen = s.seen := rfl
@[simp] theorem State.setCore_nextId (s : State) (n : Nat) (c : Core) : (s.setCore n c).nextId = s.nextId := rfl
@[simp] theorem State.setCore_used (s : State) (n : Nat) (c : Core) : (s.setCore n c).used = s.used := rfl
@[simp] theorem State.setCore_agenda (s : State) (n : Nat) (c : Core) : (s.setCore n c).agenda = s.agenda := rfl
@[simp] theorem State.setCore_tick (s : State) (n : Nat) (c : Core) : (s.setCore n c).tick = s.tick := rfl
@[simp] theorem State.setCore_cycle (s : State) (n : Nat) (c : Core) : (s.setCore n c).cycle = s.cycle := rfl

/-! ### State.setCluster -/

@[simp] theorem State.setCluster_here (s : State) (n : Nat) (c : Cluster) : (s.setCluster n c).here = s.here := rfl
@[simp] theorem State.setCluster_gangs (s : State) (n : Nat) (c : Cluster) : (s.setCluster n c).gangs = s.gangs := rfl
@[simp] theorem State.setCluster_cores (s : State) (n : Nat) (c : Cluster) : (s.setCluster n c).cores = s.cores := rfl
@[simp] theorem State.setCluster_blocks (s : State) (n : Nat) (c : Cluster) : (s.setCluster n c).blocks = s.blocks := rfl
@[simp] theorem State.setCluster_launches (s : State) (n : Nat) (c : Cluster) : (s.setCluster n c).launches = s.launches := rfl
@[simp] theorem State.setCluster_jobs (s : State) (n : Nat) (c : Cluster) : (s.setCluster n c).jobs = s.jobs := rfl
@[simp] theorem State.setCluster_priv (s : State) (n : Nat) (c : Cluster) : (s.setCluster n c).priv = s.priv := rfl
@[simp] theorem State.setCluster_bar (s : State) (n : Nat) (c : Cluster) : (s.setCluster n c).bar = s.bar := rfl
@[simp] theorem State.setCluster_mem (s : State) (n : Nat) (c : Cluster) : (s.setCluster n c).mem = s.mem := rfl
@[simp] theorem State.setCluster_homes (s : State) (n : Nat) (c : Cluster) : (s.setCluster n c).homes = s.homes := rfl
@[simp] theorem State.setCluster_dramPoison (s : State) (n : Nat) (c : Cluster) : (s.setCluster n c).dramPoison = s.dramPoison := rfl
@[simp] theorem State.setCluster_mts (s : State) (n : Nat) (c : Cluster) : (s.setCluster n c).mts = s.mts := rfl
@[simp] theorem State.setCluster_clocks (s : State) (n : Nat) (c : Cluster) : (s.setCluster n c).clocks = s.clocks := rfl
@[simp] theorem State.setCluster_hts (s : State) (n : Nat) (c : Cluster) : (s.setCluster n c).hts = s.hts := rfl
@[simp] theorem State.setCluster_rebasing (s : State) (n : Nat) (c : Cluster) : (s.setCluster n c).rebasing = s.rebasing := rfl
@[simp] theorem State.setCluster_rebases (s : State) (n : Nat) (c : Cluster) : (s.setCluster n c).rebases = s.rebases := rfl
@[simp] theorem State.setCluster_work (s : State) (n : Nat) (c : Cluster) : (s.setCluster n c).work = s.work := rfl
@[simp] theorem State.setCluster_watches (s : State) (n : Nat) (c : Cluster) : (s.setCluster n c).watches = s.watches := rfl
@[simp] theorem State.setCluster_arrivals (s : State) (n : Nat) (c : Cluster) : (s.setCluster n c).arrivals = s.arrivals := rfl
@[simp] theorem State.setCluster_ops (s : State) (n : Nat) (c : Cluster) : (s.setCluster n c).ops = s.ops := rfl
@[simp] theorem State.setCluster_peerData (s : State) (n : Nat) (c : Cluster) : (s.setCluster n c).peerData = s.peerData := rfl
@[simp] theorem State.setCluster_ws (s : State) (n : Nat) (c : Cluster) : (s.setCluster n c).ws = s.ws := rfl
@[simp] theorem State.setCluster_wsGen (s : State) (n : Nat) (c : Cluster) : (s.setCluster n c).wsGen = s.wsGen := rfl
@[simp] theorem State.setCluster_wsPoison (s : State) (n : Nat) (c : Cluster) : (s.setCluster n c).wsPoison = s.wsPoison := rfl
@[simp] theorem State.setCluster_wsBusy (s : State) (n : Nat) (c : Cluster) : (s.setCluster n c).wsBusy = s.wsBusy := rfl
@[simp] theorem State.setCluster_umbra (s : State) (n : Nat) (c : Cluster) : (s.setCluster n c).umbra = s.umbra := rfl
@[simp] theorem State.setCluster_saved (s : State) (n : Nat) (c : Cluster) : (s.setCluster n c).saved = s.saved := rfl
@[simp] theorem State.setCluster_preempt (s : State) (n : Nat) (c : Cluster) : (s.setCluster n c).preempt = s.preempt := rfl
@[simp] theorem State.setCluster_ringIn (s : State) (n : Nat) (c : Cluster) : (s.setCluster n c).ringIn = s.ringIn := rfl
@[simp] theorem State.setCluster_ringOut (s : State) (n : Nat) (c : Cluster) : (s.setCluster n c).ringOut = s.ringOut := rfl
@[simp] theorem State.setCluster_ringStopped (s : State) (n : Nat) (c : Cluster) : (s.setCluster n c).ringStopped = s.ringStopped := rfl
@[simp] theorem State.setCluster_ff (s : State) (n : Nat) (c : Cluster) : (s.setCluster n c).ff = s.ff := rfl
@[simp] theorem State.setCluster_packets (s : State) (n : Nat) (c : Cluster) : (s.setCluster n c).packets = s.packets := rfl
@[simp] theorem State.setCluster_deviceBias (s : State) (n : Nat) (c : Cluster) : (s.setCluster n c).deviceBias = s.deviceBias := rfl
@[simp] theorem State.setCluster_flip (s : State) (n : Nat) (c : Cluster) : (s.setCluster n c).flip = s.flip := rfl
@[simp] theorem State.setCluster_heldHost (s : State) (n : Nat) (c : Cluster) : (s.setCluster n c).heldHost = s.heldHost := rfl
@[simp] theorem State.setCluster_sent (s : State) (n : Nat) (c : Cluster) : (s.setCluster n c).sent = s.sent := rfl
@[simp] theorem State.setCluster_mgmt (s : State) (n : Nat) (c : Cluster) : (s.setCluster n c).mgmt = s.mgmt := rfl
@[simp] theorem State.setCluster_seen (s : State) (n : Nat) (c : Cluster) : (s.setCluster n c).seen = s.seen := rfl
@[simp] theorem State.setCluster_nextId (s : State) (n : Nat) (c : Cluster) : (s.setCluster n c).nextId = s.nextId := rfl
@[simp] theorem State.setCluster_used (s : State) (n : Nat) (c : Cluster) : (s.setCluster n c).used = s.used := rfl
@[simp] theorem State.setCluster_agenda (s : State) (n : Nat) (c : Cluster) : (s.setCluster n c).agenda = s.agenda := rfl
@[simp] theorem State.setCluster_tick (s : State) (n : Nat) (c : Cluster) : (s.setCluster n c).tick = s.tick := rfl
@[simp] theorem State.setCluster_cycle (s : State) (n : Nat) (c : Cluster) : (s.setCluster n c).cycle = s.cycle := rfl

/-! ### State.setBlock -/

@[simp] theorem State.setBlock_here (s : State) (k : Nat) (b : Block) : (s.setBlock k b).here = s.here := rfl
@[simp] theorem State.setBlock_gangs (s : State) (k : Nat) (b : Block) : (s.setBlock k b).gangs = s.gangs := rfl
@[simp] theorem State.setBlock_cores (s : State) (k : Nat) (b : Block) : (s.setBlock k b).cores = s.cores := rfl
@[simp] theorem State.setBlock_clusters (s : State) (k : Nat) (b : Block) : (s.setBlock k b).clusters = s.clusters := rfl
@[simp] theorem State.setBlock_launches (s : State) (k : Nat) (b : Block) : (s.setBlock k b).launches = s.launches := rfl
@[simp] theorem State.setBlock_jobs (s : State) (k : Nat) (b : Block) : (s.setBlock k b).jobs = s.jobs := rfl
@[simp] theorem State.setBlock_priv (s : State) (k : Nat) (b : Block) : (s.setBlock k b).priv = s.priv := rfl
@[simp] theorem State.setBlock_bar (s : State) (k : Nat) (b : Block) : (s.setBlock k b).bar = s.bar := rfl
@[simp] theorem State.setBlock_mem (s : State) (k : Nat) (b : Block) : (s.setBlock k b).mem = s.mem := rfl
@[simp] theorem State.setBlock_homes (s : State) (k : Nat) (b : Block) : (s.setBlock k b).homes = s.homes := rfl
@[simp] theorem State.setBlock_dramPoison (s : State) (k : Nat) (b : Block) : (s.setBlock k b).dramPoison = s.dramPoison := rfl
@[simp] theorem State.setBlock_mts (s : State) (k : Nat) (b : Block) : (s.setBlock k b).mts = s.mts := rfl
@[simp] theorem State.setBlock_clocks (s : State) (k : Nat) (b : Block) : (s.setBlock k b).clocks = s.clocks := rfl
@[simp] theorem State.setBlock_hts (s : State) (k : Nat) (b : Block) : (s.setBlock k b).hts = s.hts := rfl
@[simp] theorem State.setBlock_rebasing (s : State) (k : Nat) (b : Block) : (s.setBlock k b).rebasing = s.rebasing := rfl
@[simp] theorem State.setBlock_rebases (s : State) (k : Nat) (b : Block) : (s.setBlock k b).rebases = s.rebases := rfl
@[simp] theorem State.setBlock_work (s : State) (k : Nat) (b : Block) : (s.setBlock k b).work = s.work := rfl
@[simp] theorem State.setBlock_watches (s : State) (k : Nat) (b : Block) : (s.setBlock k b).watches = s.watches := rfl
@[simp] theorem State.setBlock_arrivals (s : State) (k : Nat) (b : Block) : (s.setBlock k b).arrivals = s.arrivals := rfl
@[simp] theorem State.setBlock_ops (s : State) (k : Nat) (b : Block) : (s.setBlock k b).ops = s.ops := rfl
@[simp] theorem State.setBlock_peerData (s : State) (k : Nat) (b : Block) : (s.setBlock k b).peerData = s.peerData := rfl
@[simp] theorem State.setBlock_ws (s : State) (k : Nat) (b : Block) : (s.setBlock k b).ws = s.ws := rfl
@[simp] theorem State.setBlock_wsGen (s : State) (k : Nat) (b : Block) : (s.setBlock k b).wsGen = s.wsGen := rfl
@[simp] theorem State.setBlock_wsPoison (s : State) (k : Nat) (b : Block) : (s.setBlock k b).wsPoison = s.wsPoison := rfl
@[simp] theorem State.setBlock_wsBusy (s : State) (k : Nat) (b : Block) : (s.setBlock k b).wsBusy = s.wsBusy := rfl
@[simp] theorem State.setBlock_umbra (s : State) (k : Nat) (b : Block) : (s.setBlock k b).umbra = s.umbra := rfl
@[simp] theorem State.setBlock_saved (s : State) (k : Nat) (b : Block) : (s.setBlock k b).saved = s.saved := rfl
@[simp] theorem State.setBlock_preempt (s : State) (k : Nat) (b : Block) : (s.setBlock k b).preempt = s.preempt := rfl
@[simp] theorem State.setBlock_ringIn (s : State) (k : Nat) (b : Block) : (s.setBlock k b).ringIn = s.ringIn := rfl
@[simp] theorem State.setBlock_ringOut (s : State) (k : Nat) (b : Block) : (s.setBlock k b).ringOut = s.ringOut := rfl
@[simp] theorem State.setBlock_ringStopped (s : State) (k : Nat) (b : Block) : (s.setBlock k b).ringStopped = s.ringStopped := rfl
@[simp] theorem State.setBlock_ff (s : State) (k : Nat) (b : Block) : (s.setBlock k b).ff = s.ff := rfl
@[simp] theorem State.setBlock_packets (s : State) (k : Nat) (b : Block) : (s.setBlock k b).packets = s.packets := rfl
@[simp] theorem State.setBlock_deviceBias (s : State) (k : Nat) (b : Block) : (s.setBlock k b).deviceBias = s.deviceBias := rfl
@[simp] theorem State.setBlock_flip (s : State) (k : Nat) (b : Block) : (s.setBlock k b).flip = s.flip := rfl
@[simp] theorem State.setBlock_heldHost (s : State) (k : Nat) (b : Block) : (s.setBlock k b).heldHost = s.heldHost := rfl
@[simp] theorem State.setBlock_sent (s : State) (k : Nat) (b : Block) : (s.setBlock k b).sent = s.sent := rfl
@[simp] theorem State.setBlock_mgmt (s : State) (k : Nat) (b : Block) : (s.setBlock k b).mgmt = s.mgmt := rfl
@[simp] theorem State.setBlock_seen (s : State) (k : Nat) (b : Block) : (s.setBlock k b).seen = s.seen := rfl
@[simp] theorem State.setBlock_nextId (s : State) (k : Nat) (b : Block) : (s.setBlock k b).nextId = s.nextId := rfl
@[simp] theorem State.setBlock_used (s : State) (k : Nat) (b : Block) : (s.setBlock k b).used = s.used := rfl
@[simp] theorem State.setBlock_agenda (s : State) (k : Nat) (b : Block) : (s.setBlock k b).agenda = s.agenda := rfl
@[simp] theorem State.setBlock_tick (s : State) (k : Nat) (b : Block) : (s.setBlock k b).tick = s.tick := rfl
@[simp] theorem State.setBlock_cycle (s : State) (k : Nat) (b : Block) : (s.setBlock k b).cycle = s.cycle := rfl

/-! ### State.setLaunch -/

@[simp] theorem State.setLaunch_here (s : State) (k : Nat) (l : Launch) : (s.setLaunch k l).here = s.here := rfl
@[simp] theorem State.setLaunch_gangs (s : State) (k : Nat) (l : Launch) : (s.setLaunch k l).gangs = s.gangs := rfl
@[simp] theorem State.setLaunch_cores (s : State) (k : Nat) (l : Launch) : (s.setLaunch k l).cores = s.cores := rfl
@[simp] theorem State.setLaunch_clusters (s : State) (k : Nat) (l : Launch) : (s.setLaunch k l).clusters = s.clusters := rfl
@[simp] theorem State.setLaunch_blocks (s : State) (k : Nat) (l : Launch) : (s.setLaunch k l).blocks = s.blocks := rfl
@[simp] theorem State.setLaunch_jobs (s : State) (k : Nat) (l : Launch) : (s.setLaunch k l).jobs = s.jobs := rfl
@[simp] theorem State.setLaunch_priv (s : State) (k : Nat) (l : Launch) : (s.setLaunch k l).priv = s.priv := rfl
@[simp] theorem State.setLaunch_bar (s : State) (k : Nat) (l : Launch) : (s.setLaunch k l).bar = s.bar := rfl
@[simp] theorem State.setLaunch_mem (s : State) (k : Nat) (l : Launch) : (s.setLaunch k l).mem = s.mem := rfl
@[simp] theorem State.setLaunch_homes (s : State) (k : Nat) (l : Launch) : (s.setLaunch k l).homes = s.homes := rfl
@[simp] theorem State.setLaunch_dramPoison (s : State) (k : Nat) (l : Launch) : (s.setLaunch k l).dramPoison = s.dramPoison := rfl
@[simp] theorem State.setLaunch_mts (s : State) (k : Nat) (l : Launch) : (s.setLaunch k l).mts = s.mts := rfl
@[simp] theorem State.setLaunch_clocks (s : State) (k : Nat) (l : Launch) : (s.setLaunch k l).clocks = s.clocks := rfl
@[simp] theorem State.setLaunch_hts (s : State) (k : Nat) (l : Launch) : (s.setLaunch k l).hts = s.hts := rfl
@[simp] theorem State.setLaunch_rebasing (s : State) (k : Nat) (l : Launch) : (s.setLaunch k l).rebasing = s.rebasing := rfl
@[simp] theorem State.setLaunch_rebases (s : State) (k : Nat) (l : Launch) : (s.setLaunch k l).rebases = s.rebases := rfl
@[simp] theorem State.setLaunch_work (s : State) (k : Nat) (l : Launch) : (s.setLaunch k l).work = s.work := rfl
@[simp] theorem State.setLaunch_watches (s : State) (k : Nat) (l : Launch) : (s.setLaunch k l).watches = s.watches := rfl
@[simp] theorem State.setLaunch_arrivals (s : State) (k : Nat) (l : Launch) : (s.setLaunch k l).arrivals = s.arrivals := rfl
@[simp] theorem State.setLaunch_ops (s : State) (k : Nat) (l : Launch) : (s.setLaunch k l).ops = s.ops := rfl
@[simp] theorem State.setLaunch_peerData (s : State) (k : Nat) (l : Launch) : (s.setLaunch k l).peerData = s.peerData := rfl
@[simp] theorem State.setLaunch_ws (s : State) (k : Nat) (l : Launch) : (s.setLaunch k l).ws = s.ws := rfl
@[simp] theorem State.setLaunch_wsGen (s : State) (k : Nat) (l : Launch) : (s.setLaunch k l).wsGen = s.wsGen := rfl
@[simp] theorem State.setLaunch_wsPoison (s : State) (k : Nat) (l : Launch) : (s.setLaunch k l).wsPoison = s.wsPoison := rfl
@[simp] theorem State.setLaunch_wsBusy (s : State) (k : Nat) (l : Launch) : (s.setLaunch k l).wsBusy = s.wsBusy := rfl
@[simp] theorem State.setLaunch_umbra (s : State) (k : Nat) (l : Launch) : (s.setLaunch k l).umbra = s.umbra := rfl
@[simp] theorem State.setLaunch_saved (s : State) (k : Nat) (l : Launch) : (s.setLaunch k l).saved = s.saved := rfl
@[simp] theorem State.setLaunch_preempt (s : State) (k : Nat) (l : Launch) : (s.setLaunch k l).preempt = s.preempt := rfl
@[simp] theorem State.setLaunch_ringIn (s : State) (k : Nat) (l : Launch) : (s.setLaunch k l).ringIn = s.ringIn := rfl
@[simp] theorem State.setLaunch_ringOut (s : State) (k : Nat) (l : Launch) : (s.setLaunch k l).ringOut = s.ringOut := rfl
@[simp] theorem State.setLaunch_ringStopped (s : State) (k : Nat) (l : Launch) : (s.setLaunch k l).ringStopped = s.ringStopped := rfl
@[simp] theorem State.setLaunch_ff (s : State) (k : Nat) (l : Launch) : (s.setLaunch k l).ff = s.ff := rfl
@[simp] theorem State.setLaunch_packets (s : State) (k : Nat) (l : Launch) : (s.setLaunch k l).packets = s.packets := rfl
@[simp] theorem State.setLaunch_deviceBias (s : State) (k : Nat) (l : Launch) : (s.setLaunch k l).deviceBias = s.deviceBias := rfl
@[simp] theorem State.setLaunch_flip (s : State) (k : Nat) (l : Launch) : (s.setLaunch k l).flip = s.flip := rfl
@[simp] theorem State.setLaunch_heldHost (s : State) (k : Nat) (l : Launch) : (s.setLaunch k l).heldHost = s.heldHost := rfl
@[simp] theorem State.setLaunch_sent (s : State) (k : Nat) (l : Launch) : (s.setLaunch k l).sent = s.sent := rfl
@[simp] theorem State.setLaunch_mgmt (s : State) (k : Nat) (l : Launch) : (s.setLaunch k l).mgmt = s.mgmt := rfl
@[simp] theorem State.setLaunch_seen (s : State) (k : Nat) (l : Launch) : (s.setLaunch k l).seen = s.seen := rfl
@[simp] theorem State.setLaunch_nextId (s : State) (k : Nat) (l : Launch) : (s.setLaunch k l).nextId = s.nextId := rfl
@[simp] theorem State.setLaunch_used (s : State) (k : Nat) (l : Launch) : (s.setLaunch k l).used = s.used := rfl
@[simp] theorem State.setLaunch_agenda (s : State) (k : Nat) (l : Launch) : (s.setLaunch k l).agenda = s.agenda := rfl
@[simp] theorem State.setLaunch_tick (s : State) (k : Nat) (l : Launch) : (s.setLaunch k l).tick = s.tick := rfl
@[simp] theorem State.setLaunch_cycle (s : State) (k : Nat) (l : Launch) : (s.setLaunch k l).cycle = s.cycle := rfl

/-! ### State.setHome -/

@[simp] theorem State.setHome_here (s : State) (n : Nat) (h : HomeLine) : (s.setHome n h).here = s.here := rfl
@[simp] theorem State.setHome_gangs (s : State) (n : Nat) (h : HomeLine) : (s.setHome n h).gangs = s.gangs := rfl
@[simp] theorem State.setHome_cores (s : State) (n : Nat) (h : HomeLine) : (s.setHome n h).cores = s.cores := rfl
@[simp] theorem State.setHome_clusters (s : State) (n : Nat) (h : HomeLine) : (s.setHome n h).clusters = s.clusters := rfl
@[simp] theorem State.setHome_blocks (s : State) (n : Nat) (h : HomeLine) : (s.setHome n h).blocks = s.blocks := rfl
@[simp] theorem State.setHome_launches (s : State) (n : Nat) (h : HomeLine) : (s.setHome n h).launches = s.launches := rfl
@[simp] theorem State.setHome_jobs (s : State) (n : Nat) (h : HomeLine) : (s.setHome n h).jobs = s.jobs := rfl
@[simp] theorem State.setHome_priv (s : State) (n : Nat) (h : HomeLine) : (s.setHome n h).priv = s.priv := rfl
@[simp] theorem State.setHome_bar (s : State) (n : Nat) (h : HomeLine) : (s.setHome n h).bar = s.bar := rfl
@[simp] theorem State.setHome_mem (s : State) (n : Nat) (h : HomeLine) : (s.setHome n h).mem = s.mem := rfl
@[simp] theorem State.setHome_dramPoison (s : State) (n : Nat) (h : HomeLine) : (s.setHome n h).dramPoison = s.dramPoison := rfl
@[simp] theorem State.setHome_mts (s : State) (n : Nat) (h : HomeLine) : (s.setHome n h).mts = s.mts := rfl
@[simp] theorem State.setHome_hts (s : State) (n : Nat) (h : HomeLine) : (s.setHome n h).hts = s.hts := rfl
@[simp] theorem State.setHome_rebasing (s : State) (n : Nat) (h : HomeLine) : (s.setHome n h).rebasing = s.rebasing := rfl
@[simp] theorem State.setHome_rebases (s : State) (n : Nat) (h : HomeLine) : (s.setHome n h).rebases = s.rebases := rfl
@[simp] theorem State.setHome_work (s : State) (n : Nat) (h : HomeLine) : (s.setHome n h).work = s.work := rfl
@[simp] theorem State.setHome_watches (s : State) (n : Nat) (h : HomeLine) : (s.setHome n h).watches = s.watches := rfl
@[simp] theorem State.setHome_arrivals (s : State) (n : Nat) (h : HomeLine) : (s.setHome n h).arrivals = s.arrivals := rfl
@[simp] theorem State.setHome_ops (s : State) (n : Nat) (h : HomeLine) : (s.setHome n h).ops = s.ops := rfl
@[simp] theorem State.setHome_peerData (s : State) (n : Nat) (h : HomeLine) : (s.setHome n h).peerData = s.peerData := rfl
@[simp] theorem State.setHome_ws (s : State) (n : Nat) (h : HomeLine) : (s.setHome n h).ws = s.ws := rfl
@[simp] theorem State.setHome_wsGen (s : State) (n : Nat) (h : HomeLine) : (s.setHome n h).wsGen = s.wsGen := rfl
@[simp] theorem State.setHome_wsPoison (s : State) (n : Nat) (h : HomeLine) : (s.setHome n h).wsPoison = s.wsPoison := rfl
@[simp] theorem State.setHome_wsBusy (s : State) (n : Nat) (h : HomeLine) : (s.setHome n h).wsBusy = s.wsBusy := rfl
@[simp] theorem State.setHome_umbra (s : State) (n : Nat) (h : HomeLine) : (s.setHome n h).umbra = s.umbra := rfl
@[simp] theorem State.setHome_saved (s : State) (n : Nat) (h : HomeLine) : (s.setHome n h).saved = s.saved := rfl
@[simp] theorem State.setHome_preempt (s : State) (n : Nat) (h : HomeLine) : (s.setHome n h).preempt = s.preempt := rfl
@[simp] theorem State.setHome_ringIn (s : State) (n : Nat) (h : HomeLine) : (s.setHome n h).ringIn = s.ringIn := rfl
@[simp] theorem State.setHome_ringOut (s : State) (n : Nat) (h : HomeLine) : (s.setHome n h).ringOut = s.ringOut := rfl
@[simp] theorem State.setHome_ringStopped (s : State) (n : Nat) (h : HomeLine) : (s.setHome n h).ringStopped = s.ringStopped := rfl
@[simp] theorem State.setHome_ff (s : State) (n : Nat) (h : HomeLine) : (s.setHome n h).ff = s.ff := rfl
@[simp] theorem State.setHome_packets (s : State) (n : Nat) (h : HomeLine) : (s.setHome n h).packets = s.packets := rfl
@[simp] theorem State.setHome_deviceBias (s : State) (n : Nat) (h : HomeLine) : (s.setHome n h).deviceBias = s.deviceBias := rfl
@[simp] theorem State.setHome_flip (s : State) (n : Nat) (h : HomeLine) : (s.setHome n h).flip = s.flip := rfl
@[simp] theorem State.setHome_heldHost (s : State) (n : Nat) (h : HomeLine) : (s.setHome n h).heldHost = s.heldHost := rfl
@[simp] theorem State.setHome_sent (s : State) (n : Nat) (h : HomeLine) : (s.setHome n h).sent = s.sent := rfl
@[simp] theorem State.setHome_mgmt (s : State) (n : Nat) (h : HomeLine) : (s.setHome n h).mgmt = s.mgmt := rfl
@[simp] theorem State.setHome_seen (s : State) (n : Nat) (h : HomeLine) : (s.setHome n h).seen = s.seen := rfl
@[simp] theorem State.setHome_nextId (s : State) (n : Nat) (h : HomeLine) : (s.setHome n h).nextId = s.nextId := rfl
@[simp] theorem State.setHome_used (s : State) (n : Nat) (h : HomeLine) : (s.setHome n h).used = s.used := rfl
@[simp] theorem State.setHome_agenda (s : State) (n : Nat) (h : HomeLine) : (s.setHome n h).agenda = s.agenda := rfl
@[simp] theorem State.setHome_tick (s : State) (n : Nat) (h : HomeLine) : (s.setHome n h).tick = s.tick := rfl
@[simp] theorem State.setHome_cycle (s : State) (n : Nat) (h : HomeLine) : (s.setHome n h).cycle = s.cycle := rfl

/-! ### State.onHere -/

@[simp] theorem State.onHere_gangs (s : State) (f : Gang → Gang) : (s.onHere f).gangs = s.gangs := rfl
@[simp] theorem State.onHere_cores (s : State) (f : Gang → Gang) : (s.onHere f).cores = s.cores := rfl
@[simp] theorem State.onHere_clusters (s : State) (f : Gang → Gang) : (s.onHere f).clusters = s.clusters := rfl
@[simp] theorem State.onHere_blocks (s : State) (f : Gang → Gang) : (s.onHere f).blocks = s.blocks := rfl
@[simp] theorem State.onHere_launches (s : State) (f : Gang → Gang) : (s.onHere f).launches = s.launches := rfl
@[simp] theorem State.onHere_jobs (s : State) (f : Gang → Gang) : (s.onHere f).jobs = s.jobs := rfl
@[simp] theorem State.onHere_priv (s : State) (f : Gang → Gang) : (s.onHere f).priv = s.priv := rfl
@[simp] theorem State.onHere_bar (s : State) (f : Gang → Gang) : (s.onHere f).bar = s.bar := rfl
@[simp] theorem State.onHere_mem (s : State) (f : Gang → Gang) : (s.onHere f).mem = s.mem := rfl
@[simp] theorem State.onHere_homes (s : State) (f : Gang → Gang) : (s.onHere f).homes = s.homes := rfl
@[simp] theorem State.onHere_dramPoison (s : State) (f : Gang → Gang) : (s.onHere f).dramPoison = s.dramPoison := rfl
@[simp] theorem State.onHere_mts (s : State) (f : Gang → Gang) : (s.onHere f).mts = s.mts := rfl
@[simp] theorem State.onHere_clocks (s : State) (f : Gang → Gang) : (s.onHere f).clocks = s.clocks := rfl
@[simp] theorem State.onHere_hts (s : State) (f : Gang → Gang) : (s.onHere f).hts = s.hts := rfl
@[simp] theorem State.onHere_rebasing (s : State) (f : Gang → Gang) : (s.onHere f).rebasing = s.rebasing := rfl
@[simp] theorem State.onHere_rebases (s : State) (f : Gang → Gang) : (s.onHere f).rebases = s.rebases := rfl
@[simp] theorem State.onHere_work (s : State) (f : Gang → Gang) : (s.onHere f).work = s.work := rfl
@[simp] theorem State.onHere_watches (s : State) (f : Gang → Gang) : (s.onHere f).watches = s.watches := rfl
@[simp] theorem State.onHere_arrivals (s : State) (f : Gang → Gang) : (s.onHere f).arrivals = s.arrivals := rfl
@[simp] theorem State.onHere_ops (s : State) (f : Gang → Gang) : (s.onHere f).ops = s.ops := rfl
@[simp] theorem State.onHere_peerData (s : State) (f : Gang → Gang) : (s.onHere f).peerData = s.peerData := rfl
@[simp] theorem State.onHere_ws (s : State) (f : Gang → Gang) : (s.onHere f).ws = s.ws := rfl
@[simp] theorem State.onHere_wsGen (s : State) (f : Gang → Gang) : (s.onHere f).wsGen = s.wsGen := rfl
@[simp] theorem State.onHere_wsPoison (s : State) (f : Gang → Gang) : (s.onHere f).wsPoison = s.wsPoison := rfl
@[simp] theorem State.onHere_wsBusy (s : State) (f : Gang → Gang) : (s.onHere f).wsBusy = s.wsBusy := rfl
@[simp] theorem State.onHere_umbra (s : State) (f : Gang → Gang) : (s.onHere f).umbra = s.umbra := rfl
@[simp] theorem State.onHere_saved (s : State) (f : Gang → Gang) : (s.onHere f).saved = s.saved := rfl
@[simp] theorem State.onHere_preempt (s : State) (f : Gang → Gang) : (s.onHere f).preempt = s.preempt := rfl
@[simp] theorem State.onHere_ringIn (s : State) (f : Gang → Gang) : (s.onHere f).ringIn = s.ringIn := rfl
@[simp] theorem State.onHere_ringOut (s : State) (f : Gang → Gang) : (s.onHere f).ringOut = s.ringOut := rfl
@[simp] theorem State.onHere_ringStopped (s : State) (f : Gang → Gang) : (s.onHere f).ringStopped = s.ringStopped := rfl
@[simp] theorem State.onHere_ff (s : State) (f : Gang → Gang) : (s.onHere f).ff = s.ff := rfl
@[simp] theorem State.onHere_packets (s : State) (f : Gang → Gang) : (s.onHere f).packets = s.packets := rfl
@[simp] theorem State.onHere_deviceBias (s : State) (f : Gang → Gang) : (s.onHere f).deviceBias = s.deviceBias := rfl
@[simp] theorem State.onHere_flip (s : State) (f : Gang → Gang) : (s.onHere f).flip = s.flip := rfl
@[simp] theorem State.onHere_heldHost (s : State) (f : Gang → Gang) : (s.onHere f).heldHost = s.heldHost := rfl
@[simp] theorem State.onHere_sent (s : State) (f : Gang → Gang) : (s.onHere f).sent = s.sent := rfl
@[simp] theorem State.onHere_mgmt (s : State) (f : Gang → Gang) : (s.onHere f).mgmt = s.mgmt := rfl
@[simp] theorem State.onHere_seen (s : State) (f : Gang → Gang) : (s.onHere f).seen = s.seen := rfl
@[simp] theorem State.onHere_nextId (s : State) (f : Gang → Gang) : (s.onHere f).nextId = s.nextId := rfl
@[simp] theorem State.onHere_used (s : State) (f : Gang → Gang) : (s.onHere f).used = s.used := rfl
@[simp] theorem State.onHere_agenda (s : State) (f : Gang → Gang) : (s.onHere f).agenda = s.agenda := rfl
@[simp] theorem State.onHere_tick (s : State) (f : Gang → Gang) : (s.onHere f).tick = s.tick := rfl
@[simp] theorem State.onHere_cycle (s : State) (f : Gang → Gang) : (s.onHere f).cycle = s.cycle := rfl

/-! ### State.onLaunch -/

@[simp] theorem State.onLaunch_here (s : State) (k : Nat) (f : Launch → Launch) : (s.onLaunch k f).here = s.here := rfl
@[simp] theorem State.onLaunch_gangs (s : State) (k : Nat) (f : Launch → Launch) : (s.onLaunch k f).gangs = s.gangs := rfl
@[simp] theorem State.onLaunch_cores (s : State) (k : Nat) (f : Launch → Launch) : (s.onLaunch k f).cores = s.cores := rfl
@[simp] theorem State.onLaunch_clusters (s : State) (k : Nat) (f : Launch → Launch) : (s.onLaunch k f).clusters = s.clusters := rfl
@[simp] theorem State.onLaunch_blocks (s : State) (k : Nat) (f : Launch → Launch) : (s.onLaunch k f).blocks = s.blocks := rfl
@[simp] theorem State.onLaunch_jobs (s : State) (k : Nat) (f : Launch → Launch) : (s.onLaunch k f).jobs = s.jobs := rfl
@[simp] theorem State.onLaunch_priv (s : State) (k : Nat) (f : Launch → Launch) : (s.onLaunch k f).priv = s.priv := rfl
@[simp] theorem State.onLaunch_bar (s : State) (k : Nat) (f : Launch → Launch) : (s.onLaunch k f).bar = s.bar := rfl
@[simp] theorem State.onLaunch_mem (s : State) (k : Nat) (f : Launch → Launch) : (s.onLaunch k f).mem = s.mem := rfl
@[simp] theorem State.onLaunch_homes (s : State) (k : Nat) (f : Launch → Launch) : (s.onLaunch k f).homes = s.homes := rfl
@[simp] theorem State.onLaunch_dramPoison (s : State) (k : Nat) (f : Launch → Launch) : (s.onLaunch k f).dramPoison = s.dramPoison := rfl
@[simp] theorem State.onLaunch_mts (s : State) (k : Nat) (f : Launch → Launch) : (s.onLaunch k f).mts = s.mts := rfl
@[simp] theorem State.onLaunch_clocks (s : State) (k : Nat) (f : Launch → Launch) : (s.onLaunch k f).clocks = s.clocks := rfl
@[simp] theorem State.onLaunch_hts (s : State) (k : Nat) (f : Launch → Launch) : (s.onLaunch k f).hts = s.hts := rfl
@[simp] theorem State.onLaunch_rebasing (s : State) (k : Nat) (f : Launch → Launch) : (s.onLaunch k f).rebasing = s.rebasing := rfl
@[simp] theorem State.onLaunch_rebases (s : State) (k : Nat) (f : Launch → Launch) : (s.onLaunch k f).rebases = s.rebases := rfl
@[simp] theorem State.onLaunch_work (s : State) (k : Nat) (f : Launch → Launch) : (s.onLaunch k f).work = s.work := rfl
@[simp] theorem State.onLaunch_watches (s : State) (k : Nat) (f : Launch → Launch) : (s.onLaunch k f).watches = s.watches := rfl
@[simp] theorem State.onLaunch_arrivals (s : State) (k : Nat) (f : Launch → Launch) : (s.onLaunch k f).arrivals = s.arrivals := rfl
@[simp] theorem State.onLaunch_ops (s : State) (k : Nat) (f : Launch → Launch) : (s.onLaunch k f).ops = s.ops := rfl
@[simp] theorem State.onLaunch_peerData (s : State) (k : Nat) (f : Launch → Launch) : (s.onLaunch k f).peerData = s.peerData := rfl
@[simp] theorem State.onLaunch_ws (s : State) (k : Nat) (f : Launch → Launch) : (s.onLaunch k f).ws = s.ws := rfl
@[simp] theorem State.onLaunch_wsGen (s : State) (k : Nat) (f : Launch → Launch) : (s.onLaunch k f).wsGen = s.wsGen := rfl
@[simp] theorem State.onLaunch_wsPoison (s : State) (k : Nat) (f : Launch → Launch) : (s.onLaunch k f).wsPoison = s.wsPoison := rfl
@[simp] theorem State.onLaunch_wsBusy (s : State) (k : Nat) (f : Launch → Launch) : (s.onLaunch k f).wsBusy = s.wsBusy := rfl
@[simp] theorem State.onLaunch_umbra (s : State) (k : Nat) (f : Launch → Launch) : (s.onLaunch k f).umbra = s.umbra := rfl
@[simp] theorem State.onLaunch_saved (s : State) (k : Nat) (f : Launch → Launch) : (s.onLaunch k f).saved = s.saved := rfl
@[simp] theorem State.onLaunch_preempt (s : State) (k : Nat) (f : Launch → Launch) : (s.onLaunch k f).preempt = s.preempt := rfl
@[simp] theorem State.onLaunch_ringIn (s : State) (k : Nat) (f : Launch → Launch) : (s.onLaunch k f).ringIn = s.ringIn := rfl
@[simp] theorem State.onLaunch_ringOut (s : State) (k : Nat) (f : Launch → Launch) : (s.onLaunch k f).ringOut = s.ringOut := rfl
@[simp] theorem State.onLaunch_ringStopped (s : State) (k : Nat) (f : Launch → Launch) : (s.onLaunch k f).ringStopped = s.ringStopped := rfl
@[simp] theorem State.onLaunch_ff (s : State) (k : Nat) (f : Launch → Launch) : (s.onLaunch k f).ff = s.ff := rfl
@[simp] theorem State.onLaunch_packets (s : State) (k : Nat) (f : Launch → Launch) : (s.onLaunch k f).packets = s.packets := rfl
@[simp] theorem State.onLaunch_deviceBias (s : State) (k : Nat) (f : Launch → Launch) : (s.onLaunch k f).deviceBias = s.deviceBias := rfl
@[simp] theorem State.onLaunch_flip (s : State) (k : Nat) (f : Launch → Launch) : (s.onLaunch k f).flip = s.flip := rfl
@[simp] theorem State.onLaunch_heldHost (s : State) (k : Nat) (f : Launch → Launch) : (s.onLaunch k f).heldHost = s.heldHost := rfl
@[simp] theorem State.onLaunch_sent (s : State) (k : Nat) (f : Launch → Launch) : (s.onLaunch k f).sent = s.sent := rfl
@[simp] theorem State.onLaunch_mgmt (s : State) (k : Nat) (f : Launch → Launch) : (s.onLaunch k f).mgmt = s.mgmt := rfl
@[simp] theorem State.onLaunch_seen (s : State) (k : Nat) (f : Launch → Launch) : (s.onLaunch k f).seen = s.seen := rfl
@[simp] theorem State.onLaunch_nextId (s : State) (k : Nat) (f : Launch → Launch) : (s.onLaunch k f).nextId = s.nextId := rfl
@[simp] theorem State.onLaunch_used (s : State) (k : Nat) (f : Launch → Launch) : (s.onLaunch k f).used = s.used := rfl
@[simp] theorem State.onLaunch_agenda (s : State) (k : Nat) (f : Launch → Launch) : (s.onLaunch k f).agenda = s.agenda := rfl
@[simp] theorem State.onLaunch_tick (s : State) (k : Nat) (f : Launch → Launch) : (s.onLaunch k f).tick = s.tick := rfl
@[simp] theorem State.onLaunch_cycle (s : State) (k : Nat) (f : Launch → Launch) : (s.onLaunch k f).cycle = s.cycle := rfl

/-! ### State.onBlock -/

@[simp] theorem State.onBlock_here (s : State) (k : Nat) (f : Block → Block) : (s.onBlock k f).here = s.here := rfl
@[simp] theorem State.onBlock_gangs (s : State) (k : Nat) (f : Block → Block) : (s.onBlock k f).gangs = s.gangs := rfl
@[simp] theorem State.onBlock_cores (s : State) (k : Nat) (f : Block → Block) : (s.onBlock k f).cores = s.cores := rfl
@[simp] theorem State.onBlock_clusters (s : State) (k : Nat) (f : Block → Block) : (s.onBlock k f).clusters = s.clusters := rfl
@[simp] theorem State.onBlock_launches (s : State) (k : Nat) (f : Block → Block) : (s.onBlock k f).launches = s.launches := rfl
@[simp] theorem State.onBlock_jobs (s : State) (k : Nat) (f : Block → Block) : (s.onBlock k f).jobs = s.jobs := rfl
@[simp] theorem State.onBlock_priv (s : State) (k : Nat) (f : Block → Block) : (s.onBlock k f).priv = s.priv := rfl
@[simp] theorem State.onBlock_bar (s : State) (k : Nat) (f : Block → Block) : (s.onBlock k f).bar = s.bar := rfl
@[simp] theorem State.onBlock_mem (s : State) (k : Nat) (f : Block → Block) : (s.onBlock k f).mem = s.mem := rfl
@[simp] theorem State.onBlock_homes (s : State) (k : Nat) (f : Block → Block) : (s.onBlock k f).homes = s.homes := rfl
@[simp] theorem State.onBlock_dramPoison (s : State) (k : Nat) (f : Block → Block) : (s.onBlock k f).dramPoison = s.dramPoison := rfl
@[simp] theorem State.onBlock_mts (s : State) (k : Nat) (f : Block → Block) : (s.onBlock k f).mts = s.mts := rfl
@[simp] theorem State.onBlock_clocks (s : State) (k : Nat) (f : Block → Block) : (s.onBlock k f).clocks = s.clocks := rfl
@[simp] theorem State.onBlock_hts (s : State) (k : Nat) (f : Block → Block) : (s.onBlock k f).hts = s.hts := rfl
@[simp] theorem State.onBlock_rebasing (s : State) (k : Nat) (f : Block → Block) : (s.onBlock k f).rebasing = s.rebasing := rfl
@[simp] theorem State.onBlock_rebases (s : State) (k : Nat) (f : Block → Block) : (s.onBlock k f).rebases = s.rebases := rfl
@[simp] theorem State.onBlock_work (s : State) (k : Nat) (f : Block → Block) : (s.onBlock k f).work = s.work := rfl
@[simp] theorem State.onBlock_watches (s : State) (k : Nat) (f : Block → Block) : (s.onBlock k f).watches = s.watches := rfl
@[simp] theorem State.onBlock_arrivals (s : State) (k : Nat) (f : Block → Block) : (s.onBlock k f).arrivals = s.arrivals := rfl
@[simp] theorem State.onBlock_ops (s : State) (k : Nat) (f : Block → Block) : (s.onBlock k f).ops = s.ops := rfl
@[simp] theorem State.onBlock_peerData (s : State) (k : Nat) (f : Block → Block) : (s.onBlock k f).peerData = s.peerData := rfl
@[simp] theorem State.onBlock_ws (s : State) (k : Nat) (f : Block → Block) : (s.onBlock k f).ws = s.ws := rfl
@[simp] theorem State.onBlock_wsGen (s : State) (k : Nat) (f : Block → Block) : (s.onBlock k f).wsGen = s.wsGen := rfl
@[simp] theorem State.onBlock_wsPoison (s : State) (k : Nat) (f : Block → Block) : (s.onBlock k f).wsPoison = s.wsPoison := rfl
@[simp] theorem State.onBlock_wsBusy (s : State) (k : Nat) (f : Block → Block) : (s.onBlock k f).wsBusy = s.wsBusy := rfl
@[simp] theorem State.onBlock_umbra (s : State) (k : Nat) (f : Block → Block) : (s.onBlock k f).umbra = s.umbra := rfl
@[simp] theorem State.onBlock_saved (s : State) (k : Nat) (f : Block → Block) : (s.onBlock k f).saved = s.saved := rfl
@[simp] theorem State.onBlock_preempt (s : State) (k : Nat) (f : Block → Block) : (s.onBlock k f).preempt = s.preempt := rfl
@[simp] theorem State.onBlock_ringIn (s : State) (k : Nat) (f : Block → Block) : (s.onBlock k f).ringIn = s.ringIn := rfl
@[simp] theorem State.onBlock_ringOut (s : State) (k : Nat) (f : Block → Block) : (s.onBlock k f).ringOut = s.ringOut := rfl
@[simp] theorem State.onBlock_ringStopped (s : State) (k : Nat) (f : Block → Block) : (s.onBlock k f).ringStopped = s.ringStopped := rfl
@[simp] theorem State.onBlock_ff (s : State) (k : Nat) (f : Block → Block) : (s.onBlock k f).ff = s.ff := rfl
@[simp] theorem State.onBlock_packets (s : State) (k : Nat) (f : Block → Block) : (s.onBlock k f).packets = s.packets := rfl
@[simp] theorem State.onBlock_deviceBias (s : State) (k : Nat) (f : Block → Block) : (s.onBlock k f).deviceBias = s.deviceBias := rfl
@[simp] theorem State.onBlock_flip (s : State) (k : Nat) (f : Block → Block) : (s.onBlock k f).flip = s.flip := rfl
@[simp] theorem State.onBlock_heldHost (s : State) (k : Nat) (f : Block → Block) : (s.onBlock k f).heldHost = s.heldHost := rfl
@[simp] theorem State.onBlock_sent (s : State) (k : Nat) (f : Block → Block) : (s.onBlock k f).sent = s.sent := rfl
@[simp] theorem State.onBlock_mgmt (s : State) (k : Nat) (f : Block → Block) : (s.onBlock k f).mgmt = s.mgmt := rfl
@[simp] theorem State.onBlock_seen (s : State) (k : Nat) (f : Block → Block) : (s.onBlock k f).seen = s.seen := rfl
@[simp] theorem State.onBlock_nextId (s : State) (k : Nat) (f : Block → Block) : (s.onBlock k f).nextId = s.nextId := rfl
@[simp] theorem State.onBlock_used (s : State) (k : Nat) (f : Block → Block) : (s.onBlock k f).used = s.used := rfl
@[simp] theorem State.onBlock_agenda (s : State) (k : Nat) (f : Block → Block) : (s.onBlock k f).agenda = s.agenda := rfl
@[simp] theorem State.onBlock_tick (s : State) (k : Nat) (f : Block → Block) : (s.onBlock k f).tick = s.tick := rfl
@[simp] theorem State.onBlock_cycle (s : State) (k : Nat) (f : Block → Block) : (s.onBlock k f).cycle = s.cycle := rfl

/-! ### State.setOp -/

@[simp] theorem State.setOp_here (s : State) (o : MemOp) : (s.setOp o).here = s.here := rfl
@[simp] theorem State.setOp_gangs (s : State) (o : MemOp) : (s.setOp o).gangs = s.gangs := rfl
@[simp] theorem State.setOp_cores (s : State) (o : MemOp) : (s.setOp o).cores = s.cores := rfl
@[simp] theorem State.setOp_clusters (s : State) (o : MemOp) : (s.setOp o).clusters = s.clusters := rfl
@[simp] theorem State.setOp_blocks (s : State) (o : MemOp) : (s.setOp o).blocks = s.blocks := rfl
@[simp] theorem State.setOp_launches (s : State) (o : MemOp) : (s.setOp o).launches = s.launches := rfl
@[simp] theorem State.setOp_jobs (s : State) (o : MemOp) : (s.setOp o).jobs = s.jobs := rfl
@[simp] theorem State.setOp_priv (s : State) (o : MemOp) : (s.setOp o).priv = s.priv := rfl
@[simp] theorem State.setOp_bar (s : State) (o : MemOp) : (s.setOp o).bar = s.bar := rfl
@[simp] theorem State.setOp_mem (s : State) (o : MemOp) : (s.setOp o).mem = s.mem := rfl
@[simp] theorem State.setOp_homes (s : State) (o : MemOp) : (s.setOp o).homes = s.homes := rfl
@[simp] theorem State.setOp_dramPoison (s : State) (o : MemOp) : (s.setOp o).dramPoison = s.dramPoison := rfl
@[simp] theorem State.setOp_mts (s : State) (o : MemOp) : (s.setOp o).mts = s.mts := rfl
@[simp] theorem State.setOp_clocks (s : State) (o : MemOp) : (s.setOp o).clocks = s.clocks := rfl
@[simp] theorem State.setOp_hts (s : State) (o : MemOp) : (s.setOp o).hts = s.hts := rfl
@[simp] theorem State.setOp_rebasing (s : State) (o : MemOp) : (s.setOp o).rebasing = s.rebasing := rfl
@[simp] theorem State.setOp_rebases (s : State) (o : MemOp) : (s.setOp o).rebases = s.rebases := rfl
@[simp] theorem State.setOp_work (s : State) (o : MemOp) : (s.setOp o).work = s.work := rfl
@[simp] theorem State.setOp_watches (s : State) (o : MemOp) : (s.setOp o).watches = s.watches := rfl
@[simp] theorem State.setOp_arrivals (s : State) (o : MemOp) : (s.setOp o).arrivals = s.arrivals := rfl
@[simp] theorem State.setOp_peerData (s : State) (o : MemOp) : (s.setOp o).peerData = s.peerData := rfl
@[simp] theorem State.setOp_ws (s : State) (o : MemOp) : (s.setOp o).ws = s.ws := rfl
@[simp] theorem State.setOp_wsGen (s : State) (o : MemOp) : (s.setOp o).wsGen = s.wsGen := rfl
@[simp] theorem State.setOp_wsPoison (s : State) (o : MemOp) : (s.setOp o).wsPoison = s.wsPoison := rfl
@[simp] theorem State.setOp_wsBusy (s : State) (o : MemOp) : (s.setOp o).wsBusy = s.wsBusy := rfl
@[simp] theorem State.setOp_umbra (s : State) (o : MemOp) : (s.setOp o).umbra = s.umbra := rfl
@[simp] theorem State.setOp_saved (s : State) (o : MemOp) : (s.setOp o).saved = s.saved := rfl
@[simp] theorem State.setOp_preempt (s : State) (o : MemOp) : (s.setOp o).preempt = s.preempt := rfl
@[simp] theorem State.setOp_ringIn (s : State) (o : MemOp) : (s.setOp o).ringIn = s.ringIn := rfl
@[simp] theorem State.setOp_ringOut (s : State) (o : MemOp) : (s.setOp o).ringOut = s.ringOut := rfl
@[simp] theorem State.setOp_ringStopped (s : State) (o : MemOp) : (s.setOp o).ringStopped = s.ringStopped := rfl
@[simp] theorem State.setOp_ff (s : State) (o : MemOp) : (s.setOp o).ff = s.ff := rfl
@[simp] theorem State.setOp_packets (s : State) (o : MemOp) : (s.setOp o).packets = s.packets := rfl
@[simp] theorem State.setOp_deviceBias (s : State) (o : MemOp) : (s.setOp o).deviceBias = s.deviceBias := rfl
@[simp] theorem State.setOp_flip (s : State) (o : MemOp) : (s.setOp o).flip = s.flip := rfl
@[simp] theorem State.setOp_heldHost (s : State) (o : MemOp) : (s.setOp o).heldHost = s.heldHost := rfl
@[simp] theorem State.setOp_sent (s : State) (o : MemOp) : (s.setOp o).sent = s.sent := rfl
@[simp] theorem State.setOp_mgmt (s : State) (o : MemOp) : (s.setOp o).mgmt = s.mgmt := rfl
@[simp] theorem State.setOp_seen (s : State) (o : MemOp) : (s.setOp o).seen = s.seen := rfl
@[simp] theorem State.setOp_nextId (s : State) (o : MemOp) : (s.setOp o).nextId = s.nextId := rfl
@[simp] theorem State.setOp_used (s : State) (o : MemOp) : (s.setOp o).used = s.used := rfl
@[simp] theorem State.setOp_agenda (s : State) (o : MemOp) : (s.setOp o).agenda = s.agenda := rfl
@[simp] theorem State.setOp_tick (s : State) (o : MemOp) : (s.setOp o).tick = s.tick := rfl
@[simp] theorem State.setOp_cycle (s : State) (o : MemOp) : (s.setOp o).cycle = s.cycle := rfl

/-! ### State.addOp -/

@[simp] theorem State.addOp_here (s : State) (o : MemOp) : (s.addOp o).here = s.here := rfl
@[simp] theorem State.addOp_gangs (s : State) (o : MemOp) : (s.addOp o).gangs = s.gangs := rfl
@[simp] theorem State.addOp_cores (s : State) (o : MemOp) : (s.addOp o).cores = s.cores := rfl
@[simp] theorem State.addOp_clusters (s : State) (o : MemOp) : (s.addOp o).clusters = s.clusters := rfl
@[simp] theorem State.addOp_blocks (s : State) (o : MemOp) : (s.addOp o).blocks = s.blocks := rfl
@[simp] theorem State.addOp_launches (s : State) (o : MemOp) : (s.addOp o).launches = s.launches := rfl
@[simp] theorem State.addOp_jobs (s : State) (o : MemOp) : (s.addOp o).jobs = s.jobs := rfl
@[simp] theorem State.addOp_priv (s : State) (o : MemOp) : (s.addOp o).priv = s.priv := rfl
@[simp] theorem State.addOp_bar (s : State) (o : MemOp) : (s.addOp o).bar = s.bar := rfl
@[simp] theorem State.addOp_mem (s : State) (o : MemOp) : (s.addOp o).mem = s.mem := rfl
@[simp] theorem State.addOp_homes (s : State) (o : MemOp) : (s.addOp o).homes = s.homes := rfl
@[simp] theorem State.addOp_dramPoison (s : State) (o : MemOp) : (s.addOp o).dramPoison = s.dramPoison := rfl
@[simp] theorem State.addOp_mts (s : State) (o : MemOp) : (s.addOp o).mts = s.mts := rfl
@[simp] theorem State.addOp_clocks (s : State) (o : MemOp) : (s.addOp o).clocks = s.clocks := rfl
@[simp] theorem State.addOp_hts (s : State) (o : MemOp) : (s.addOp o).hts = s.hts := rfl
@[simp] theorem State.addOp_rebasing (s : State) (o : MemOp) : (s.addOp o).rebasing = s.rebasing := rfl
@[simp] theorem State.addOp_rebases (s : State) (o : MemOp) : (s.addOp o).rebases = s.rebases := rfl
@[simp] theorem State.addOp_work (s : State) (o : MemOp) : (s.addOp o).work = s.work := rfl
@[simp] theorem State.addOp_watches (s : State) (o : MemOp) : (s.addOp o).watches = s.watches := rfl
@[simp] theorem State.addOp_arrivals (s : State) (o : MemOp) : (s.addOp o).arrivals = s.arrivals := rfl
@[simp] theorem State.addOp_peerData (s : State) (o : MemOp) : (s.addOp o).peerData = s.peerData := rfl
@[simp] theorem State.addOp_ws (s : State) (o : MemOp) : (s.addOp o).ws = s.ws := rfl
@[simp] theorem State.addOp_wsGen (s : State) (o : MemOp) : (s.addOp o).wsGen = s.wsGen := rfl
@[simp] theorem State.addOp_wsPoison (s : State) (o : MemOp) : (s.addOp o).wsPoison = s.wsPoison := rfl
@[simp] theorem State.addOp_wsBusy (s : State) (o : MemOp) : (s.addOp o).wsBusy = s.wsBusy := rfl
@[simp] theorem State.addOp_umbra (s : State) (o : MemOp) : (s.addOp o).umbra = s.umbra := rfl
@[simp] theorem State.addOp_saved (s : State) (o : MemOp) : (s.addOp o).saved = s.saved := rfl
@[simp] theorem State.addOp_preempt (s : State) (o : MemOp) : (s.addOp o).preempt = s.preempt := rfl
@[simp] theorem State.addOp_ringIn (s : State) (o : MemOp) : (s.addOp o).ringIn = s.ringIn := rfl
@[simp] theorem State.addOp_ringOut (s : State) (o : MemOp) : (s.addOp o).ringOut = s.ringOut := rfl
@[simp] theorem State.addOp_ringStopped (s : State) (o : MemOp) : (s.addOp o).ringStopped = s.ringStopped := rfl
@[simp] theorem State.addOp_ff (s : State) (o : MemOp) : (s.addOp o).ff = s.ff := rfl
@[simp] theorem State.addOp_packets (s : State) (o : MemOp) : (s.addOp o).packets = s.packets := rfl
@[simp] theorem State.addOp_deviceBias (s : State) (o : MemOp) : (s.addOp o).deviceBias = s.deviceBias := rfl
@[simp] theorem State.addOp_flip (s : State) (o : MemOp) : (s.addOp o).flip = s.flip := rfl
@[simp] theorem State.addOp_heldHost (s : State) (o : MemOp) : (s.addOp o).heldHost = s.heldHost := rfl
@[simp] theorem State.addOp_sent (s : State) (o : MemOp) : (s.addOp o).sent = s.sent := rfl
@[simp] theorem State.addOp_mgmt (s : State) (o : MemOp) : (s.addOp o).mgmt = s.mgmt := rfl
@[simp] theorem State.addOp_seen (s : State) (o : MemOp) : (s.addOp o).seen = s.seen := rfl
@[simp] theorem State.addOp_used (s : State) (o : MemOp) : (s.addOp o).used = s.used := rfl
@[simp] theorem State.addOp_agenda (s : State) (o : MemOp) : (s.addOp o).agenda = s.agenda := rfl
@[simp] theorem State.addOp_tick (s : State) (o : MemOp) : (s.addOp o).tick = s.tick := rfl
@[simp] theorem State.addOp_cycle (s : State) (o : MemOp) : (s.addOp o).cycle = s.cycle := rfl

/-! ### State.dropOp -/

@[simp] theorem State.dropOp_here (s : State) (i : Nat) : (s.dropOp i).here = s.here := rfl
@[simp] theorem State.dropOp_gangs (s : State) (i : Nat) : (s.dropOp i).gangs = s.gangs := rfl
@[simp] theorem State.dropOp_cores (s : State) (i : Nat) : (s.dropOp i).cores = s.cores := rfl
@[simp] theorem State.dropOp_clusters (s : State) (i : Nat) : (s.dropOp i).clusters = s.clusters := rfl
@[simp] theorem State.dropOp_blocks (s : State) (i : Nat) : (s.dropOp i).blocks = s.blocks := rfl
@[simp] theorem State.dropOp_launches (s : State) (i : Nat) : (s.dropOp i).launches = s.launches := rfl
@[simp] theorem State.dropOp_jobs (s : State) (i : Nat) : (s.dropOp i).jobs = s.jobs := rfl
@[simp] theorem State.dropOp_priv (s : State) (i : Nat) : (s.dropOp i).priv = s.priv := rfl
@[simp] theorem State.dropOp_bar (s : State) (i : Nat) : (s.dropOp i).bar = s.bar := rfl
@[simp] theorem State.dropOp_mem (s : State) (i : Nat) : (s.dropOp i).mem = s.mem := rfl
@[simp] theorem State.dropOp_homes (s : State) (i : Nat) : (s.dropOp i).homes = s.homes := rfl
@[simp] theorem State.dropOp_dramPoison (s : State) (i : Nat) : (s.dropOp i).dramPoison = s.dramPoison := rfl
@[simp] theorem State.dropOp_mts (s : State) (i : Nat) : (s.dropOp i).mts = s.mts := rfl
@[simp] theorem State.dropOp_clocks (s : State) (i : Nat) : (s.dropOp i).clocks = s.clocks := rfl
@[simp] theorem State.dropOp_hts (s : State) (i : Nat) : (s.dropOp i).hts = s.hts := rfl
@[simp] theorem State.dropOp_rebasing (s : State) (i : Nat) : (s.dropOp i).rebasing = s.rebasing := rfl
@[simp] theorem State.dropOp_rebases (s : State) (i : Nat) : (s.dropOp i).rebases = s.rebases := rfl
@[simp] theorem State.dropOp_work (s : State) (i : Nat) : (s.dropOp i).work = s.work := rfl
@[simp] theorem State.dropOp_watches (s : State) (i : Nat) : (s.dropOp i).watches = s.watches := rfl
@[simp] theorem State.dropOp_arrivals (s : State) (i : Nat) : (s.dropOp i).arrivals = s.arrivals := rfl
@[simp] theorem State.dropOp_peerData (s : State) (i : Nat) : (s.dropOp i).peerData = s.peerData := rfl
@[simp] theorem State.dropOp_ws (s : State) (i : Nat) : (s.dropOp i).ws = s.ws := rfl
@[simp] theorem State.dropOp_wsGen (s : State) (i : Nat) : (s.dropOp i).wsGen = s.wsGen := rfl
@[simp] theorem State.dropOp_wsPoison (s : State) (i : Nat) : (s.dropOp i).wsPoison = s.wsPoison := rfl
@[simp] theorem State.dropOp_wsBusy (s : State) (i : Nat) : (s.dropOp i).wsBusy = s.wsBusy := rfl
@[simp] theorem State.dropOp_umbra (s : State) (i : Nat) : (s.dropOp i).umbra = s.umbra := rfl
@[simp] theorem State.dropOp_saved (s : State) (i : Nat) : (s.dropOp i).saved = s.saved := rfl
@[simp] theorem State.dropOp_preempt (s : State) (i : Nat) : (s.dropOp i).preempt = s.preempt := rfl
@[simp] theorem State.dropOp_ringIn (s : State) (i : Nat) : (s.dropOp i).ringIn = s.ringIn := rfl
@[simp] theorem State.dropOp_ringOut (s : State) (i : Nat) : (s.dropOp i).ringOut = s.ringOut := rfl
@[simp] theorem State.dropOp_ringStopped (s : State) (i : Nat) : (s.dropOp i).ringStopped = s.ringStopped := rfl
@[simp] theorem State.dropOp_ff (s : State) (i : Nat) : (s.dropOp i).ff = s.ff := rfl
@[simp] theorem State.dropOp_packets (s : State) (i : Nat) : (s.dropOp i).packets = s.packets := rfl
@[simp] theorem State.dropOp_deviceBias (s : State) (i : Nat) : (s.dropOp i).deviceBias = s.deviceBias := rfl
@[simp] theorem State.dropOp_flip (s : State) (i : Nat) : (s.dropOp i).flip = s.flip := rfl
@[simp] theorem State.dropOp_heldHost (s : State) (i : Nat) : (s.dropOp i).heldHost = s.heldHost := rfl
@[simp] theorem State.dropOp_sent (s : State) (i : Nat) : (s.dropOp i).sent = s.sent := rfl
@[simp] theorem State.dropOp_mgmt (s : State) (i : Nat) : (s.dropOp i).mgmt = s.mgmt := rfl
@[simp] theorem State.dropOp_seen (s : State) (i : Nat) : (s.dropOp i).seen = s.seen := rfl
@[simp] theorem State.dropOp_nextId (s : State) (i : Nat) : (s.dropOp i).nextId = s.nextId := rfl
@[simp] theorem State.dropOp_used (s : State) (i : Nat) : (s.dropOp i).used = s.used := rfl
@[simp] theorem State.dropOp_agenda (s : State) (i : Nat) : (s.dropOp i).agenda = s.agenda := rfl
@[simp] theorem State.dropOp_tick (s : State) (i : Nat) : (s.dropOp i).tick = s.tick := rfl
@[simp] theorem State.dropOp_cycle (s : State) (i : Nat) : (s.dropOp i).cycle = s.cycle := rfl

/-! ### State.count -/

@[simp] theorem State.count_here (s : State) (c source n : Nat) : (s.count c source n).here = s.here := rfl
@[simp] theorem State.count_gangs (s : State) (c source n : Nat) : (s.count c source n).gangs = s.gangs := rfl
@[simp] theorem State.count_clusters (s : State) (c source n : Nat) : (s.count c source n).clusters = s.clusters := rfl
@[simp] theorem State.count_blocks (s : State) (c source n : Nat) : (s.count c source n).blocks = s.blocks := rfl
@[simp] theorem State.count_launches (s : State) (c source n : Nat) : (s.count c source n).launches = s.launches := rfl
@[simp] theorem State.count_jobs (s : State) (c source n : Nat) : (s.count c source n).jobs = s.jobs := rfl
@[simp] theorem State.count_priv (s : State) (c source n : Nat) : (s.count c source n).priv = s.priv := rfl
@[simp] theorem State.count_bar (s : State) (c source n : Nat) : (s.count c source n).bar = s.bar := rfl
@[simp] theorem State.count_mem (s : State) (c source n : Nat) : (s.count c source n).mem = s.mem := rfl
@[simp] theorem State.count_homes (s : State) (c source n : Nat) : (s.count c source n).homes = s.homes := rfl
@[simp] theorem State.count_dramPoison (s : State) (c source n : Nat) : (s.count c source n).dramPoison = s.dramPoison := rfl
@[simp] theorem State.count_mts (s : State) (c source n : Nat) : (s.count c source n).mts = s.mts := rfl
@[simp] theorem State.count_clocks (s : State) (c source n : Nat) : (s.count c source n).clocks = s.clocks := rfl
@[simp] theorem State.count_hts (s : State) (c source n : Nat) : (s.count c source n).hts = s.hts := rfl
@[simp] theorem State.count_rebasing (s : State) (c source n : Nat) : (s.count c source n).rebasing = s.rebasing := rfl
@[simp] theorem State.count_rebases (s : State) (c source n : Nat) : (s.count c source n).rebases = s.rebases := rfl
@[simp] theorem State.count_work (s : State) (c source n : Nat) : (s.count c source n).work = s.work := rfl
@[simp] theorem State.count_watches (s : State) (c source n : Nat) : (s.count c source n).watches = s.watches := rfl
@[simp] theorem State.count_arrivals (s : State) (c source n : Nat) : (s.count c source n).arrivals = s.arrivals := rfl
@[simp] theorem State.count_ops (s : State) (c source n : Nat) : (s.count c source n).ops = s.ops := rfl
@[simp] theorem State.count_peerData (s : State) (c source n : Nat) : (s.count c source n).peerData = s.peerData := rfl
@[simp] theorem State.count_ws (s : State) (c source n : Nat) : (s.count c source n).ws = s.ws := rfl
@[simp] theorem State.count_wsGen (s : State) (c source n : Nat) : (s.count c source n).wsGen = s.wsGen := rfl
@[simp] theorem State.count_wsPoison (s : State) (c source n : Nat) : (s.count c source n).wsPoison = s.wsPoison := rfl
@[simp] theorem State.count_wsBusy (s : State) (c source n : Nat) : (s.count c source n).wsBusy = s.wsBusy := rfl
@[simp] theorem State.count_umbra (s : State) (c source n : Nat) : (s.count c source n).umbra = s.umbra := rfl
@[simp] theorem State.count_saved (s : State) (c source n : Nat) : (s.count c source n).saved = s.saved := rfl
@[simp] theorem State.count_preempt (s : State) (c source n : Nat) : (s.count c source n).preempt = s.preempt := rfl
@[simp] theorem State.count_ringIn (s : State) (c source n : Nat) : (s.count c source n).ringIn = s.ringIn := rfl
@[simp] theorem State.count_ringOut (s : State) (c source n : Nat) : (s.count c source n).ringOut = s.ringOut := rfl
@[simp] theorem State.count_ringStopped (s : State) (c source n : Nat) : (s.count c source n).ringStopped = s.ringStopped := rfl
@[simp] theorem State.count_ff (s : State) (c source n : Nat) : (s.count c source n).ff = s.ff := rfl
@[simp] theorem State.count_packets (s : State) (c source n : Nat) : (s.count c source n).packets = s.packets := rfl
@[simp] theorem State.count_deviceBias (s : State) (c source n : Nat) : (s.count c source n).deviceBias = s.deviceBias := rfl
@[simp] theorem State.count_flip (s : State) (c source n : Nat) : (s.count c source n).flip = s.flip := rfl
@[simp] theorem State.count_heldHost (s : State) (c source n : Nat) : (s.count c source n).heldHost = s.heldHost := rfl
@[simp] theorem State.count_sent (s : State) (c source n : Nat) : (s.count c source n).sent = s.sent := rfl
@[simp] theorem State.count_mgmt (s : State) (c source n : Nat) : (s.count c source n).mgmt = s.mgmt := rfl
@[simp] theorem State.count_seen (s : State) (c source n : Nat) : (s.count c source n).seen = s.seen := rfl
@[simp] theorem State.count_nextId (s : State) (c source n : Nat) : (s.count c source n).nextId = s.nextId := rfl
@[simp] theorem State.count_used (s : State) (c source n : Nat) : (s.count c source n).used = s.used := rfl
@[simp] theorem State.count_agenda (s : State) (c source n : Nat) : (s.count c source n).agenda = s.agenda := rfl
@[simp] theorem State.count_tick (s : State) (c source n : Nat) : (s.count c source n).tick = s.tick := rfl
@[simp] theorem State.count_cycle (s : State) (c source n : Nat) : (s.count c source n).cycle = s.cycle := rfl

/-! ### State.countDie -/

@[simp] theorem State.countDie_here (s : State) (d source n : Nat) : (s.countDie d source n).here = s.here := rfl
@[simp] theorem State.countDie_gangs (s : State) (d source n : Nat) : (s.countDie d source n).gangs = s.gangs := rfl
@[simp] theorem State.countDie_cores (s : State) (d source n : Nat) : (s.countDie d source n).cores = s.cores := rfl
@[simp] theorem State.countDie_clusters (s : State) (d source n : Nat) : (s.countDie d source n).clusters = s.clusters := rfl
@[simp] theorem State.countDie_blocks (s : State) (d source n : Nat) : (s.countDie d source n).blocks = s.blocks := rfl
@[simp] theorem State.countDie_launches (s : State) (d source n : Nat) : (s.countDie d source n).launches = s.launches := rfl
@[simp] theorem State.countDie_jobs (s : State) (d source n : Nat) : (s.countDie d source n).jobs = s.jobs := rfl
@[simp] theorem State.countDie_priv (s : State) (d source n : Nat) : (s.countDie d source n).priv = s.priv := rfl
@[simp] theorem State.countDie_bar (s : State) (d source n : Nat) : (s.countDie d source n).bar = s.bar := rfl
@[simp] theorem State.countDie_mem (s : State) (d source n : Nat) : (s.countDie d source n).mem = s.mem := rfl
@[simp] theorem State.countDie_homes (s : State) (d source n : Nat) : (s.countDie d source n).homes = s.homes := rfl
@[simp] theorem State.countDie_dramPoison (s : State) (d source n : Nat) : (s.countDie d source n).dramPoison = s.dramPoison := rfl
@[simp] theorem State.countDie_mts (s : State) (d source n : Nat) : (s.countDie d source n).mts = s.mts := rfl
@[simp] theorem State.countDie_clocks (s : State) (d source n : Nat) : (s.countDie d source n).clocks = s.clocks := rfl
@[simp] theorem State.countDie_hts (s : State) (d source n : Nat) : (s.countDie d source n).hts = s.hts := rfl
@[simp] theorem State.countDie_rebasing (s : State) (d source n : Nat) : (s.countDie d source n).rebasing = s.rebasing := rfl
@[simp] theorem State.countDie_rebases (s : State) (d source n : Nat) : (s.countDie d source n).rebases = s.rebases := rfl
@[simp] theorem State.countDie_work (s : State) (d source n : Nat) : (s.countDie d source n).work = s.work := rfl
@[simp] theorem State.countDie_watches (s : State) (d source n : Nat) : (s.countDie d source n).watches = s.watches := rfl
@[simp] theorem State.countDie_arrivals (s : State) (d source n : Nat) : (s.countDie d source n).arrivals = s.arrivals := rfl
@[simp] theorem State.countDie_ops (s : State) (d source n : Nat) : (s.countDie d source n).ops = s.ops := rfl
@[simp] theorem State.countDie_peerData (s : State) (d source n : Nat) : (s.countDie d source n).peerData = s.peerData := rfl
@[simp] theorem State.countDie_ws (s : State) (d source n : Nat) : (s.countDie d source n).ws = s.ws := rfl
@[simp] theorem State.countDie_wsGen (s : State) (d source n : Nat) : (s.countDie d source n).wsGen = s.wsGen := rfl
@[simp] theorem State.countDie_wsPoison (s : State) (d source n : Nat) : (s.countDie d source n).wsPoison = s.wsPoison := rfl
@[simp] theorem State.countDie_wsBusy (s : State) (d source n : Nat) : (s.countDie d source n).wsBusy = s.wsBusy := rfl
@[simp] theorem State.countDie_umbra (s : State) (d source n : Nat) : (s.countDie d source n).umbra = s.umbra := rfl
@[simp] theorem State.countDie_saved (s : State) (d source n : Nat) : (s.countDie d source n).saved = s.saved := rfl
@[simp] theorem State.countDie_preempt (s : State) (d source n : Nat) : (s.countDie d source n).preempt = s.preempt := rfl
@[simp] theorem State.countDie_ringIn (s : State) (d source n : Nat) : (s.countDie d source n).ringIn = s.ringIn := rfl
@[simp] theorem State.countDie_ringOut (s : State) (d source n : Nat) : (s.countDie d source n).ringOut = s.ringOut := rfl
@[simp] theorem State.countDie_ringStopped (s : State) (d source n : Nat) : (s.countDie d source n).ringStopped = s.ringStopped := rfl
@[simp] theorem State.countDie_ff (s : State) (d source n : Nat) : (s.countDie d source n).ff = s.ff := rfl
@[simp] theorem State.countDie_packets (s : State) (d source n : Nat) : (s.countDie d source n).packets = s.packets := rfl
@[simp] theorem State.countDie_deviceBias (s : State) (d source n : Nat) : (s.countDie d source n).deviceBias = s.deviceBias := rfl
@[simp] theorem State.countDie_flip (s : State) (d source n : Nat) : (s.countDie d source n).flip = s.flip := rfl
@[simp] theorem State.countDie_heldHost (s : State) (d source n : Nat) : (s.countDie d source n).heldHost = s.heldHost := rfl
@[simp] theorem State.countDie_sent (s : State) (d source n : Nat) : (s.countDie d source n).sent = s.sent := rfl
@[simp] theorem State.countDie_seen (s : State) (d source n : Nat) : (s.countDie d source n).seen = s.seen := rfl
@[simp] theorem State.countDie_nextId (s : State) (d source n : Nat) : (s.countDie d source n).nextId = s.nextId := rfl
@[simp] theorem State.countDie_used (s : State) (d source n : Nat) : (s.countDie d source n).used = s.used := rfl
@[simp] theorem State.countDie_agenda (s : State) (d source n : Nat) : (s.countDie d source n).agenda = s.agenda := rfl
@[simp] theorem State.countDie_tick (s : State) (d source n : Nat) : (s.countDie d source n).tick = s.tick := rfl
@[simp] theorem State.countDie_cycle (s : State) (d source n : Nat) : (s.countDie d source n).cycle = s.cycle := rfl

/-! ### State.note -/

@[simp] theorem State.note_here (s : State) (k v : Nat) : (s.note k v).here = s.here := rfl
@[simp] theorem State.note_gangs (s : State) (k v : Nat) : (s.note k v).gangs = s.gangs := rfl
@[simp] theorem State.note_cores (s : State) (k v : Nat) : (s.note k v).cores = s.cores := rfl
@[simp] theorem State.note_clusters (s : State) (k v : Nat) : (s.note k v).clusters = s.clusters := rfl
@[simp] theorem State.note_blocks (s : State) (k v : Nat) : (s.note k v).blocks = s.blocks := rfl
@[simp] theorem State.note_launches (s : State) (k v : Nat) : (s.note k v).launches = s.launches := rfl
@[simp] theorem State.note_jobs (s : State) (k v : Nat) : (s.note k v).jobs = s.jobs := rfl
@[simp] theorem State.note_priv (s : State) (k v : Nat) : (s.note k v).priv = s.priv := rfl
@[simp] theorem State.note_bar (s : State) (k v : Nat) : (s.note k v).bar = s.bar := rfl
@[simp] theorem State.note_mem (s : State) (k v : Nat) : (s.note k v).mem = s.mem := rfl
@[simp] theorem State.note_homes (s : State) (k v : Nat) : (s.note k v).homes = s.homes := rfl
@[simp] theorem State.note_dramPoison (s : State) (k v : Nat) : (s.note k v).dramPoison = s.dramPoison := rfl
@[simp] theorem State.note_mts (s : State) (k v : Nat) : (s.note k v).mts = s.mts := rfl
@[simp] theorem State.note_clocks (s : State) (k v : Nat) : (s.note k v).clocks = s.clocks := rfl
@[simp] theorem State.note_hts (s : State) (k v : Nat) : (s.note k v).hts = s.hts := rfl
@[simp] theorem State.note_rebasing (s : State) (k v : Nat) : (s.note k v).rebasing = s.rebasing := rfl
@[simp] theorem State.note_rebases (s : State) (k v : Nat) : (s.note k v).rebases = s.rebases := rfl
@[simp] theorem State.note_work (s : State) (k v : Nat) : (s.note k v).work = s.work := rfl
@[simp] theorem State.note_watches (s : State) (k v : Nat) : (s.note k v).watches = s.watches := rfl
@[simp] theorem State.note_arrivals (s : State) (k v : Nat) : (s.note k v).arrivals = s.arrivals := rfl
@[simp] theorem State.note_ops (s : State) (k v : Nat) : (s.note k v).ops = s.ops := rfl
@[simp] theorem State.note_peerData (s : State) (k v : Nat) : (s.note k v).peerData = s.peerData := rfl
@[simp] theorem State.note_ws (s : State) (k v : Nat) : (s.note k v).ws = s.ws := rfl
@[simp] theorem State.note_wsGen (s : State) (k v : Nat) : (s.note k v).wsGen = s.wsGen := rfl
@[simp] theorem State.note_wsPoison (s : State) (k v : Nat) : (s.note k v).wsPoison = s.wsPoison := rfl
@[simp] theorem State.note_wsBusy (s : State) (k v : Nat) : (s.note k v).wsBusy = s.wsBusy := rfl
@[simp] theorem State.note_umbra (s : State) (k v : Nat) : (s.note k v).umbra = s.umbra := rfl
@[simp] theorem State.note_saved (s : State) (k v : Nat) : (s.note k v).saved = s.saved := rfl
@[simp] theorem State.note_preempt (s : State) (k v : Nat) : (s.note k v).preempt = s.preempt := rfl
@[simp] theorem State.note_ringIn (s : State) (k v : Nat) : (s.note k v).ringIn = s.ringIn := rfl
@[simp] theorem State.note_ringOut (s : State) (k v : Nat) : (s.note k v).ringOut = s.ringOut := rfl
@[simp] theorem State.note_ringStopped (s : State) (k v : Nat) : (s.note k v).ringStopped = s.ringStopped := rfl
@[simp] theorem State.note_ff (s : State) (k v : Nat) : (s.note k v).ff = s.ff := rfl
@[simp] theorem State.note_packets (s : State) (k v : Nat) : (s.note k v).packets = s.packets := rfl
@[simp] theorem State.note_deviceBias (s : State) (k v : Nat) : (s.note k v).deviceBias = s.deviceBias := rfl
@[simp] theorem State.note_flip (s : State) (k v : Nat) : (s.note k v).flip = s.flip := rfl
@[simp] theorem State.note_heldHost (s : State) (k v : Nat) : (s.note k v).heldHost = s.heldHost := rfl
@[simp] theorem State.note_sent (s : State) (k v : Nat) : (s.note k v).sent = s.sent := rfl
@[simp] theorem State.note_mgmt (s : State) (k v : Nat) : (s.note k v).mgmt = s.mgmt := rfl
@[simp] theorem State.note_nextId (s : State) (k v : Nat) : (s.note k v).nextId = s.nextId := rfl
@[simp] theorem State.note_used (s : State) (k v : Nat) : (s.note k v).used = s.used := rfl
@[simp] theorem State.note_agenda (s : State) (k v : Nat) : (s.note k v).agenda = s.agenda := rfl
@[simp] theorem State.note_tick (s : State) (k v : Nat) : (s.note k v).tick = s.tick := rfl
@[simp] theorem State.note_cycle (s : State) (k v : Nat) : (s.note k v).cycle = s.cycle := rfl

/-! ### State.stall -/

@[simp] theorem State.stall_gangs (s : State) : (s.stall).gangs = s.gangs := rfl
@[simp] theorem State.stall_cores (s : State) : (s.stall).cores = s.cores := rfl
@[simp] theorem State.stall_clusters (s : State) : (s.stall).clusters = s.clusters := rfl
@[simp] theorem State.stall_blocks (s : State) : (s.stall).blocks = s.blocks := rfl
@[simp] theorem State.stall_launches (s : State) : (s.stall).launches = s.launches := rfl
@[simp] theorem State.stall_jobs (s : State) : (s.stall).jobs = s.jobs := rfl
@[simp] theorem State.stall_priv (s : State) : (s.stall).priv = s.priv := rfl
@[simp] theorem State.stall_bar (s : State) : (s.stall).bar = s.bar := rfl
@[simp] theorem State.stall_mem (s : State) : (s.stall).mem = s.mem := rfl
@[simp] theorem State.stall_homes (s : State) : (s.stall).homes = s.homes := rfl
@[simp] theorem State.stall_dramPoison (s : State) : (s.stall).dramPoison = s.dramPoison := rfl
@[simp] theorem State.stall_mts (s : State) : (s.stall).mts = s.mts := rfl
@[simp] theorem State.stall_clocks (s : State) : (s.stall).clocks = s.clocks := rfl
@[simp] theorem State.stall_hts (s : State) : (s.stall).hts = s.hts := rfl
@[simp] theorem State.stall_rebasing (s : State) : (s.stall).rebasing = s.rebasing := rfl
@[simp] theorem State.stall_rebases (s : State) : (s.stall).rebases = s.rebases := rfl
@[simp] theorem State.stall_work (s : State) : (s.stall).work = s.work := rfl
@[simp] theorem State.stall_watches (s : State) : (s.stall).watches = s.watches := rfl
@[simp] theorem State.stall_arrivals (s : State) : (s.stall).arrivals = s.arrivals := rfl
@[simp] theorem State.stall_ops (s : State) : (s.stall).ops = s.ops := rfl
@[simp] theorem State.stall_peerData (s : State) : (s.stall).peerData = s.peerData := rfl
@[simp] theorem State.stall_ws (s : State) : (s.stall).ws = s.ws := rfl
@[simp] theorem State.stall_wsGen (s : State) : (s.stall).wsGen = s.wsGen := rfl
@[simp] theorem State.stall_wsPoison (s : State) : (s.stall).wsPoison = s.wsPoison := rfl
@[simp] theorem State.stall_wsBusy (s : State) : (s.stall).wsBusy = s.wsBusy := rfl
@[simp] theorem State.stall_umbra (s : State) : (s.stall).umbra = s.umbra := rfl
@[simp] theorem State.stall_saved (s : State) : (s.stall).saved = s.saved := rfl
@[simp] theorem State.stall_preempt (s : State) : (s.stall).preempt = s.preempt := rfl
@[simp] theorem State.stall_ringIn (s : State) : (s.stall).ringIn = s.ringIn := rfl
@[simp] theorem State.stall_ringOut (s : State) : (s.stall).ringOut = s.ringOut := rfl
@[simp] theorem State.stall_ringStopped (s : State) : (s.stall).ringStopped = s.ringStopped := rfl
@[simp] theorem State.stall_ff (s : State) : (s.stall).ff = s.ff := rfl
@[simp] theorem State.stall_packets (s : State) : (s.stall).packets = s.packets := rfl
@[simp] theorem State.stall_deviceBias (s : State) : (s.stall).deviceBias = s.deviceBias := rfl
@[simp] theorem State.stall_flip (s : State) : (s.stall).flip = s.flip := rfl
@[simp] theorem State.stall_heldHost (s : State) : (s.stall).heldHost = s.heldHost := rfl
@[simp] theorem State.stall_sent (s : State) : (s.stall).sent = s.sent := rfl
@[simp] theorem State.stall_mgmt (s : State) : (s.stall).mgmt = s.mgmt := rfl
@[simp] theorem State.stall_seen (s : State) : (s.stall).seen = s.seen := rfl
@[simp] theorem State.stall_nextId (s : State) : (s.stall).nextId = s.nextId := rfl
@[simp] theorem State.stall_used (s : State) : (s.stall).used = s.used := rfl
@[simp] theorem State.stall_agenda (s : State) : (s.stall).agenda = s.agenda := rfl
@[simp] theorem State.stall_tick (s : State) : (s.stall).tick = s.tick := rfl
@[simp] theorem State.stall_cycle (s : State) : (s.stall).cycle = s.cycle := rfl

/-! ### Gang.setMask -/

@[simp] theorem Gang.setMask_core (g : Gang) (i : Nat) (v : LaneMask) : (g.setMask i v).core = g.core := rfl
@[simp] theorem Gang.setMask_slot (g : Gang) (i : Nat) (v : LaneMask) : (g.setMask i v).slot = g.slot := rfl
@[simp] theorem Gang.setMask_block (g : Gang) (i : Nat) (v : LaneMask) : (g.setMask i v).block = g.block := rfl
@[simp] theorem Gang.setMask_gangId (g : Gang) (i : Nat) (v : LaneMask) : (g.setMask i v).gangId = g.gangId := rfl
@[simp] theorem Gang.setMask_role (g : Gang) (i : Nat) (v : LaneMask) : (g.setMask i v).role = g.role := rfl
@[simp] theorem Gang.setMask_granules (g : Gang) (i : Nat) (v : LaneMask) : (g.setMask i v).granules = g.granules := rfl
@[simp] theorem Gang.setMask_exited (g : Gang) (i : Nat) (v : LaneMask) : (g.setMask i v).exited = g.exited := rfl
@[simp] theorem Gang.setMask_grp (g : Gang) (i : Nat) (v : LaneMask) : (g.setMask i v).grp = g.grp := rfl
@[simp] theorem Gang.setMask_parted (g : Gang) (i : Nat) (v : LaneMask) : (g.setMask i v).parted = g.parted := rfl
@[simp] theorem Gang.setMask_s (g : Gang) (i : Nat) (v : LaneMask) : (g.setMask i v).s = g.s := rfl
@[simp] theorem Gang.setMask_scc (g : Gang) (i : Nat) (v : LaneMask) : (g.setMask i v).scc = g.scc := rfl
@[simp] theorem Gang.setMask_mode (g : Gang) (i : Nat) (v : LaneMask) : (g.setMask i v).mode = g.mode := rfl
@[simp] theorem Gang.setMask_v (g : Gang) (i : Nat) (v : LaneMask) : (g.setMask i v).v = g.v := rfl
@[simp] theorem Gang.setMask_flags (g : Gang) (i : Nat) (v : LaneMask) : (g.setMask i v).flags = g.flags := rfl
@[simp] theorem Gang.setMask_narrow (g : Gang) (i : Nat) (v : LaneMask) : (g.setMask i v).narrow = g.narrow := rfl
@[simp] theorem Gang.setMask_pts (g : Gang) (i : Nat) (v : LaneMask) : (g.setMask i v).pts = g.pts := rfl
@[simp] theorem Gang.setMask_ats (g : Gang) (i : Nat) (v : LaneMask) : (g.setMask i v).ats = g.ats := rfl
@[simp] theorem Gang.setMask_seed (g : Gang) (i : Nat) (v : LaneMask) : (g.setMask i v).seed = g.seed := rfl
@[simp] theorem Gang.setMask_wakewhy (g : Gang) (i : Nat) (v : LaneMask) : (g.setMask i v).wakewhy = g.wakewhy := rfl
@[simp] theorem Gang.setMask_layer (g : Gang) (i : Nat) (v : LaneMask) : (g.setMask i v).layer = g.layer := rfl
@[simp] theorem Gang.setMask_lfault (g : Gang) (i : Nat) (v : LaneMask) : (g.setMask i v).lfault = g.lfault := rfl
@[simp] theorem Gang.setMask_lcause (g : Gang) (i : Nat) (v : LaneMask) : (g.setMask i v).lcause = g.lcause := rfl
@[simp] theorem Gang.setMask_stop (g : Gang) (i : Nat) (v : LaneMask) : (g.setMask i v).stop = g.stop := rfl
@[simp] theorem Gang.setMask_halted (g : Gang) (i : Nat) (v : LaneMask) : (g.setMask i v).halted = g.halted := rfl
@[simp] theorem Gang.setMask_killed (g : Gang) (i : Nat) (v : LaneMask) : (g.setMask i v).killed = g.killed := rfl
@[simp] theorem Gang.setMask_ended (g : Gang) (i : Nat) (v : LaneMask) : (g.setMask i v).ended = g.ended := rfl
@[simp] theorem Gang.setMask_deferred (g : Gang) (i : Nat) (v : LaneMask) : (g.setMask i v).deferred = g.deferred := rfl
@[simp] theorem Gang.setMask_taken (g : Gang) (i : Nat) (v : LaneMask) : (g.setMask i v).taken = g.taken := rfl
@[simp] theorem Gang.setMask_owedRebases (g : Gang) (i : Nat) (v : LaneMask) : (g.setMask i v).owedRebases = g.owedRebases := rfl
@[simp] theorem Gang.setMask_mismatch (g : Gang) (i : Nat) (v : LaneMask) : (g.setMask i v).mismatch = g.mismatch := rfl
@[simp] theorem Gang.setMask_badRegs (g : Gang) (i : Nat) (v : LaneMask) : (g.setMask i v).badRegs = g.badRegs := rfl
@[simp] theorem Gang.setMask_floors (g : Gang) (i : Nat) (v : LaneMask) : (g.setMask i v).floors = g.floors := rfl
@[simp] theorem Gang.setMask_engWts (g : Gang) (i : Nat) (v : LaneMask) : (g.setMask i v).engWts = g.engWts := rfl

/-! ### Gang.setMode -/

@[simp] theorem Gang.setMode_core (g : Gang) (i : Nat) (v : Word) : (g.setMode i v).core = g.core := rfl
@[simp] theorem Gang.setMode_slot (g : Gang) (i : Nat) (v : Word) : (g.setMode i v).slot = g.slot := rfl
@[simp] theorem Gang.setMode_block (g : Gang) (i : Nat) (v : Word) : (g.setMode i v).block = g.block := rfl
@[simp] theorem Gang.setMode_gangId (g : Gang) (i : Nat) (v : Word) : (g.setMode i v).gangId = g.gangId := rfl
@[simp] theorem Gang.setMode_role (g : Gang) (i : Nat) (v : Word) : (g.setMode i v).role = g.role := rfl
@[simp] theorem Gang.setMode_granules (g : Gang) (i : Nat) (v : Word) : (g.setMode i v).granules = g.granules := rfl
@[simp] theorem Gang.setMode_exited (g : Gang) (i : Nat) (v : Word) : (g.setMode i v).exited = g.exited := rfl
@[simp] theorem Gang.setMode_grp (g : Gang) (i : Nat) (v : Word) : (g.setMode i v).grp = g.grp := rfl
@[simp] theorem Gang.setMode_parted (g : Gang) (i : Nat) (v : Word) : (g.setMode i v).parted = g.parted := rfl
@[simp] theorem Gang.setMode_s (g : Gang) (i : Nat) (v : Word) : (g.setMode i v).s = g.s := rfl
@[simp] theorem Gang.setMode_scc (g : Gang) (i : Nat) (v : Word) : (g.setMode i v).scc = g.scc := rfl
@[simp] theorem Gang.setMode_m (g : Gang) (i : Nat) (v : Word) : (g.setMode i v).m = g.m := rfl
@[simp] theorem Gang.setMode_v (g : Gang) (i : Nat) (v : Word) : (g.setMode i v).v = g.v := rfl
@[simp] theorem Gang.setMode_flags (g : Gang) (i : Nat) (v : Word) : (g.setMode i v).flags = g.flags := rfl
@[simp] theorem Gang.setMode_narrow (g : Gang) (i : Nat) (v : Word) : (g.setMode i v).narrow = g.narrow := rfl
@[simp] theorem Gang.setMode_pts (g : Gang) (i : Nat) (v : Word) : (g.setMode i v).pts = g.pts := rfl
@[simp] theorem Gang.setMode_ats (g : Gang) (i : Nat) (v : Word) : (g.setMode i v).ats = g.ats := rfl
@[simp] theorem Gang.setMode_seed (g : Gang) (i : Nat) (v : Word) : (g.setMode i v).seed = g.seed := rfl
@[simp] theorem Gang.setMode_wakewhy (g : Gang) (i : Nat) (v : Word) : (g.setMode i v).wakewhy = g.wakewhy := rfl
@[simp] theorem Gang.setMode_layer (g : Gang) (i : Nat) (v : Word) : (g.setMode i v).layer = g.layer := rfl
@[simp] theorem Gang.setMode_lfault (g : Gang) (i : Nat) (v : Word) : (g.setMode i v).lfault = g.lfault := rfl
@[simp] theorem Gang.setMode_lcause (g : Gang) (i : Nat) (v : Word) : (g.setMode i v).lcause = g.lcause := rfl
@[simp] theorem Gang.setMode_stop (g : Gang) (i : Nat) (v : Word) : (g.setMode i v).stop = g.stop := rfl
@[simp] theorem Gang.setMode_halted (g : Gang) (i : Nat) (v : Word) : (g.setMode i v).halted = g.halted := rfl
@[simp] theorem Gang.setMode_killed (g : Gang) (i : Nat) (v : Word) : (g.setMode i v).killed = g.killed := rfl
@[simp] theorem Gang.setMode_ended (g : Gang) (i : Nat) (v : Word) : (g.setMode i v).ended = g.ended := rfl
@[simp] theorem Gang.setMode_deferred (g : Gang) (i : Nat) (v : Word) : (g.setMode i v).deferred = g.deferred := rfl
@[simp] theorem Gang.setMode_taken (g : Gang) (i : Nat) (v : Word) : (g.setMode i v).taken = g.taken := rfl
@[simp] theorem Gang.setMode_owedRebases (g : Gang) (i : Nat) (v : Word) : (g.setMode i v).owedRebases = g.owedRebases := rfl
@[simp] theorem Gang.setMode_mismatch (g : Gang) (i : Nat) (v : Word) : (g.setMode i v).mismatch = g.mismatch := rfl
@[simp] theorem Gang.setMode_badRegs (g : Gang) (i : Nat) (v : Word) : (g.setMode i v).badRegs = g.badRegs := rfl
@[simp] theorem Gang.setMode_floors (g : Gang) (i : Nat) (v : Word) : (g.setMode i v).floors = g.floors := rfl
@[simp] theorem Gang.setMode_engWts (g : Gang) (i : Nat) (v : Word) : (g.setMode i v).engWts = g.engWts := rfl

/-! ### Gang.setV -/

@[simp] theorem Gang.setV_core (g : Gang) (c l : Nat) (v : Word) : (g.setV c l v).core = g.core := rfl
@[simp] theorem Gang.setV_slot (g : Gang) (c l : Nat) (v : Word) : (g.setV c l v).slot = g.slot := rfl
@[simp] theorem Gang.setV_block (g : Gang) (c l : Nat) (v : Word) : (g.setV c l v).block = g.block := rfl
@[simp] theorem Gang.setV_gangId (g : Gang) (c l : Nat) (v : Word) : (g.setV c l v).gangId = g.gangId := rfl
@[simp] theorem Gang.setV_role (g : Gang) (c l : Nat) (v : Word) : (g.setV c l v).role = g.role := rfl
@[simp] theorem Gang.setV_granules (g : Gang) (c l : Nat) (v : Word) : (g.setV c l v).granules = g.granules := rfl
@[simp] theorem Gang.setV_exited (g : Gang) (c l : Nat) (v : Word) : (g.setV c l v).exited = g.exited := rfl
@[simp] theorem Gang.setV_grp (g : Gang) (c l : Nat) (v : Word) : (g.setV c l v).grp = g.grp := rfl
@[simp] theorem Gang.setV_parted (g : Gang) (c l : Nat) (v : Word) : (g.setV c l v).parted = g.parted := rfl
@[simp] theorem Gang.setV_s (g : Gang) (c l : Nat) (v : Word) : (g.setV c l v).s = g.s := rfl
@[simp] theorem Gang.setV_scc (g : Gang) (c l : Nat) (v : Word) : (g.setV c l v).scc = g.scc := rfl
@[simp] theorem Gang.setV_mode (g : Gang) (c l : Nat) (v : Word) : (g.setV c l v).mode = g.mode := rfl
@[simp] theorem Gang.setV_m (g : Gang) (c l : Nat) (v : Word) : (g.setV c l v).m = g.m := rfl
@[simp] theorem Gang.setV_flags (g : Gang) (c l : Nat) (v : Word) : (g.setV c l v).flags = g.flags := rfl
@[simp] theorem Gang.setV_narrow (g : Gang) (c l : Nat) (v : Word) : (g.setV c l v).narrow = g.narrow := rfl
@[simp] theorem Gang.setV_pts (g : Gang) (c l : Nat) (v : Word) : (g.setV c l v).pts = g.pts := rfl
@[simp] theorem Gang.setV_ats (g : Gang) (c l : Nat) (v : Word) : (g.setV c l v).ats = g.ats := rfl
@[simp] theorem Gang.setV_seed (g : Gang) (c l : Nat) (v : Word) : (g.setV c l v).seed = g.seed := rfl
@[simp] theorem Gang.setV_wakewhy (g : Gang) (c l : Nat) (v : Word) : (g.setV c l v).wakewhy = g.wakewhy := rfl
@[simp] theorem Gang.setV_layer (g : Gang) (c l : Nat) (v : Word) : (g.setV c l v).layer = g.layer := rfl
@[simp] theorem Gang.setV_lfault (g : Gang) (c l : Nat) (v : Word) : (g.setV c l v).lfault = g.lfault := rfl
@[simp] theorem Gang.setV_lcause (g : Gang) (c l : Nat) (v : Word) : (g.setV c l v).lcause = g.lcause := rfl
@[simp] theorem Gang.setV_stop (g : Gang) (c l : Nat) (v : Word) : (g.setV c l v).stop = g.stop := rfl
@[simp] theorem Gang.setV_halted (g : Gang) (c l : Nat) (v : Word) : (g.setV c l v).halted = g.halted := rfl
@[simp] theorem Gang.setV_killed (g : Gang) (c l : Nat) (v : Word) : (g.setV c l v).killed = g.killed := rfl
@[simp] theorem Gang.setV_ended (g : Gang) (c l : Nat) (v : Word) : (g.setV c l v).ended = g.ended := rfl
@[simp] theorem Gang.setV_deferred (g : Gang) (c l : Nat) (v : Word) : (g.setV c l v).deferred = g.deferred := rfl
@[simp] theorem Gang.setV_taken (g : Gang) (c l : Nat) (v : Word) : (g.setV c l v).taken = g.taken := rfl
@[simp] theorem Gang.setV_owedRebases (g : Gang) (c l : Nat) (v : Word) : (g.setV c l v).owedRebases = g.owedRebases := rfl
@[simp] theorem Gang.setV_mismatch (g : Gang) (c l : Nat) (v : Word) : (g.setV c l v).mismatch = g.mismatch := rfl
@[simp] theorem Gang.setV_badRegs (g : Gang) (c l : Nat) (v : Word) : (g.setV c l v).badRegs = g.badRegs := rfl
@[simp] theorem Gang.setV_floors (g : Gang) (c l : Nat) (v : Word) : (g.setV c l v).floors = g.floors := rfl
@[simp] theorem Gang.setV_engWts (g : Gang) (c l : Nat) (v : Word) : (g.setV c l v).engWts = g.engWts := rfl

/-! ### Gang.setFlag -/

@[simp] theorem Gang.setFlag_core (g : Gang) (n c : Nat) : (g.setFlag n c).core = g.core := rfl
@[simp] theorem Gang.setFlag_slot (g : Gang) (n c : Nat) : (g.setFlag n c).slot = g.slot := rfl
@[simp] theorem Gang.setFlag_block (g : Gang) (n c : Nat) : (g.setFlag n c).block = g.block := rfl
@[simp] theorem Gang.setFlag_gangId (g : Gang) (n c : Nat) : (g.setFlag n c).gangId = g.gangId := rfl
@[simp] theorem Gang.setFlag_role (g : Gang) (n c : Nat) : (g.setFlag n c).role = g.role := rfl
@[simp] theorem Gang.setFlag_granules (g : Gang) (n c : Nat) : (g.setFlag n c).granules = g.granules := rfl
@[simp] theorem Gang.setFlag_exited (g : Gang) (n c : Nat) : (g.setFlag n c).exited = g.exited := rfl
@[simp] theorem Gang.setFlag_grp (g : Gang) (n c : Nat) : (g.setFlag n c).grp = g.grp := rfl
@[simp] theorem Gang.setFlag_parted (g : Gang) (n c : Nat) : (g.setFlag n c).parted = g.parted := rfl
@[simp] theorem Gang.setFlag_s (g : Gang) (n c : Nat) : (g.setFlag n c).s = g.s := rfl
@[simp] theorem Gang.setFlag_scc (g : Gang) (n c : Nat) : (g.setFlag n c).scc = g.scc := rfl
@[simp] theorem Gang.setFlag_mode (g : Gang) (n c : Nat) : (g.setFlag n c).mode = g.mode := rfl
@[simp] theorem Gang.setFlag_m (g : Gang) (n c : Nat) : (g.setFlag n c).m = g.m := rfl
@[simp] theorem Gang.setFlag_v (g : Gang) (n c : Nat) : (g.setFlag n c).v = g.v := rfl
@[simp] theorem Gang.setFlag_narrow (g : Gang) (n c : Nat) : (g.setFlag n c).narrow = g.narrow := rfl
@[simp] theorem Gang.setFlag_pts (g : Gang) (n c : Nat) : (g.setFlag n c).pts = g.pts := rfl
@[simp] theorem Gang.setFlag_ats (g : Gang) (n c : Nat) : (g.setFlag n c).ats = g.ats := rfl
@[simp] theorem Gang.setFlag_seed (g : Gang) (n c : Nat) : (g.setFlag n c).seed = g.seed := rfl
@[simp] theorem Gang.setFlag_wakewhy (g : Gang) (n c : Nat) : (g.setFlag n c).wakewhy = g.wakewhy := rfl
@[simp] theorem Gang.setFlag_layer (g : Gang) (n c : Nat) : (g.setFlag n c).layer = g.layer := rfl
@[simp] theorem Gang.setFlag_lfault (g : Gang) (n c : Nat) : (g.setFlag n c).lfault = g.lfault := rfl
@[simp] theorem Gang.setFlag_lcause (g : Gang) (n c : Nat) : (g.setFlag n c).lcause = g.lcause := rfl
@[simp] theorem Gang.setFlag_stop (g : Gang) (n c : Nat) : (g.setFlag n c).stop = g.stop := rfl
@[simp] theorem Gang.setFlag_halted (g : Gang) (n c : Nat) : (g.setFlag n c).halted = g.halted := rfl
@[simp] theorem Gang.setFlag_killed (g : Gang) (n c : Nat) : (g.setFlag n c).killed = g.killed := rfl
@[simp] theorem Gang.setFlag_ended (g : Gang) (n c : Nat) : (g.setFlag n c).ended = g.ended := rfl
@[simp] theorem Gang.setFlag_deferred (g : Gang) (n c : Nat) : (g.setFlag n c).deferred = g.deferred := rfl
@[simp] theorem Gang.setFlag_taken (g : Gang) (n c : Nat) : (g.setFlag n c).taken = g.taken := rfl
@[simp] theorem Gang.setFlag_owedRebases (g : Gang) (n c : Nat) : (g.setFlag n c).owedRebases = g.owedRebases := rfl
@[simp] theorem Gang.setFlag_mismatch (g : Gang) (n c : Nat) : (g.setFlag n c).mismatch = g.mismatch := rfl
@[simp] theorem Gang.setFlag_badRegs (g : Gang) (n c : Nat) : (g.setFlag n c).badRegs = g.badRegs := rfl
@[simp] theorem Gang.setFlag_floors (g : Gang) (n c : Nat) : (g.setFlag n c).floors = g.floors := rfl
@[simp] theorem Gang.setFlag_engWts (g : Gang) (n c : Nat) : (g.setFlag n c).engWts = g.engWts := rfl

/-! ### Gang.waitFor -/

@[simp] theorem Gang.waitFor_core (g : Gang) (w : Wait) : (g.waitFor w).core = g.core := rfl
@[simp] theorem Gang.waitFor_slot (g : Gang) (w : Wait) : (g.waitFor w).slot = g.slot := rfl
@[simp] theorem Gang.waitFor_block (g : Gang) (w : Wait) : (g.waitFor w).block = g.block := rfl
@[simp] theorem Gang.waitFor_gangId (g : Gang) (w : Wait) : (g.waitFor w).gangId = g.gangId := rfl
@[simp] theorem Gang.waitFor_role (g : Gang) (w : Wait) : (g.waitFor w).role = g.role := rfl
@[simp] theorem Gang.waitFor_granules (g : Gang) (w : Wait) : (g.waitFor w).granules = g.granules := rfl
@[simp] theorem Gang.waitFor_exited (g : Gang) (w : Wait) : (g.waitFor w).exited = g.exited := rfl
@[simp] theorem Gang.waitFor_parted (g : Gang) (w : Wait) : (g.waitFor w).parted = g.parted := rfl
@[simp] theorem Gang.waitFor_s (g : Gang) (w : Wait) : (g.waitFor w).s = g.s := rfl
@[simp] theorem Gang.waitFor_scc (g : Gang) (w : Wait) : (g.waitFor w).scc = g.scc := rfl
@[simp] theorem Gang.waitFor_mode (g : Gang) (w : Wait) : (g.waitFor w).mode = g.mode := rfl
@[simp] theorem Gang.waitFor_m (g : Gang) (w : Wait) : (g.waitFor w).m = g.m := rfl
@[simp] theorem Gang.waitFor_v (g : Gang) (w : Wait) : (g.waitFor w).v = g.v := rfl
@[simp] theorem Gang.waitFor_flags (g : Gang) (w : Wait) : (g.waitFor w).flags = g.flags := rfl
@[simp] theorem Gang.waitFor_narrow (g : Gang) (w : Wait) : (g.waitFor w).narrow = g.narrow := rfl
@[simp] theorem Gang.waitFor_pts (g : Gang) (w : Wait) : (g.waitFor w).pts = g.pts := rfl
@[simp] theorem Gang.waitFor_ats (g : Gang) (w : Wait) : (g.waitFor w).ats = g.ats := rfl
@[simp] theorem Gang.waitFor_seed (g : Gang) (w : Wait) : (g.waitFor w).seed = g.seed := rfl
@[simp] theorem Gang.waitFor_wakewhy (g : Gang) (w : Wait) : (g.waitFor w).wakewhy = g.wakewhy := rfl
@[simp] theorem Gang.waitFor_layer (g : Gang) (w : Wait) : (g.waitFor w).layer = g.layer := rfl
@[simp] theorem Gang.waitFor_lfault (g : Gang) (w : Wait) : (g.waitFor w).lfault = g.lfault := rfl
@[simp] theorem Gang.waitFor_lcause (g : Gang) (w : Wait) : (g.waitFor w).lcause = g.lcause := rfl
@[simp] theorem Gang.waitFor_stop (g : Gang) (w : Wait) : (g.waitFor w).stop = g.stop := rfl
@[simp] theorem Gang.waitFor_halted (g : Gang) (w : Wait) : (g.waitFor w).halted = g.halted := rfl
@[simp] theorem Gang.waitFor_killed (g : Gang) (w : Wait) : (g.waitFor w).killed = g.killed := rfl
@[simp] theorem Gang.waitFor_ended (g : Gang) (w : Wait) : (g.waitFor w).ended = g.ended := rfl
@[simp] theorem Gang.waitFor_deferred (g : Gang) (w : Wait) : (g.waitFor w).deferred = g.deferred := rfl
@[simp] theorem Gang.waitFor_taken (g : Gang) (w : Wait) : (g.waitFor w).taken = g.taken := rfl
@[simp] theorem Gang.waitFor_owedRebases (g : Gang) (w : Wait) : (g.waitFor w).owedRebases = g.owedRebases := rfl
@[simp] theorem Gang.waitFor_mismatch (g : Gang) (w : Wait) : (g.waitFor w).mismatch = g.mismatch := rfl
@[simp] theorem Gang.waitFor_badRegs (g : Gang) (w : Wait) : (g.waitFor w).badRegs = g.badRegs := rfl
@[simp] theorem Gang.waitFor_floors (g : Gang) (w : Wait) : (g.waitFor w).floors = g.floors := rfl
@[simp] theorem Gang.waitFor_engWts (g : Gang) (w : Wait) : (g.waitFor w).engWts = g.engWts := rfl

/-! ### Gang.jump -/

@[simp] theorem Gang.jump_core (g : Gang) (a : Word64) : (g.jump a).core = g.core := rfl
@[simp] theorem Gang.jump_slot (g : Gang) (a : Word64) : (g.jump a).slot = g.slot := rfl
@[simp] theorem Gang.jump_block (g : Gang) (a : Word64) : (g.jump a).block = g.block := rfl
@[simp] theorem Gang.jump_gangId (g : Gang) (a : Word64) : (g.jump a).gangId = g.gangId := rfl
@[simp] theorem Gang.jump_role (g : Gang) (a : Word64) : (g.jump a).role = g.role := rfl
@[simp] theorem Gang.jump_granules (g : Gang) (a : Word64) : (g.jump a).granules = g.granules := rfl
@[simp] theorem Gang.jump_exited (g : Gang) (a : Word64) : (g.jump a).exited = g.exited := rfl
@[simp] theorem Gang.jump_parted (g : Gang) (a : Word64) : (g.jump a).parted = g.parted := rfl
@[simp] theorem Gang.jump_s (g : Gang) (a : Word64) : (g.jump a).s = g.s := rfl
@[simp] theorem Gang.jump_scc (g : Gang) (a : Word64) : (g.jump a).scc = g.scc := rfl
@[simp] theorem Gang.jump_mode (g : Gang) (a : Word64) : (g.jump a).mode = g.mode := rfl
@[simp] theorem Gang.jump_m (g : Gang) (a : Word64) : (g.jump a).m = g.m := rfl
@[simp] theorem Gang.jump_v (g : Gang) (a : Word64) : (g.jump a).v = g.v := rfl
@[simp] theorem Gang.jump_flags (g : Gang) (a : Word64) : (g.jump a).flags = g.flags := rfl
@[simp] theorem Gang.jump_narrow (g : Gang) (a : Word64) : (g.jump a).narrow = g.narrow := rfl
@[simp] theorem Gang.jump_pts (g : Gang) (a : Word64) : (g.jump a).pts = g.pts := rfl
@[simp] theorem Gang.jump_ats (g : Gang) (a : Word64) : (g.jump a).ats = g.ats := rfl
@[simp] theorem Gang.jump_seed (g : Gang) (a : Word64) : (g.jump a).seed = g.seed := rfl
@[simp] theorem Gang.jump_wakewhy (g : Gang) (a : Word64) : (g.jump a).wakewhy = g.wakewhy := rfl
@[simp] theorem Gang.jump_layer (g : Gang) (a : Word64) : (g.jump a).layer = g.layer := rfl
@[simp] theorem Gang.jump_lfault (g : Gang) (a : Word64) : (g.jump a).lfault = g.lfault := rfl
@[simp] theorem Gang.jump_lcause (g : Gang) (a : Word64) : (g.jump a).lcause = g.lcause := rfl
@[simp] theorem Gang.jump_stop (g : Gang) (a : Word64) : (g.jump a).stop = g.stop := rfl
@[simp] theorem Gang.jump_halted (g : Gang) (a : Word64) : (g.jump a).halted = g.halted := rfl
@[simp] theorem Gang.jump_killed (g : Gang) (a : Word64) : (g.jump a).killed = g.killed := rfl
@[simp] theorem Gang.jump_ended (g : Gang) (a : Word64) : (g.jump a).ended = g.ended := rfl
@[simp] theorem Gang.jump_deferred (g : Gang) (a : Word64) : (g.jump a).deferred = g.deferred := rfl
@[simp] theorem Gang.jump_taken (g : Gang) (a : Word64) : (g.jump a).taken = g.taken := rfl
@[simp] theorem Gang.jump_owedRebases (g : Gang) (a : Word64) : (g.jump a).owedRebases = g.owedRebases := rfl
@[simp] theorem Gang.jump_mismatch (g : Gang) (a : Word64) : (g.jump a).mismatch = g.mismatch := rfl
@[simp] theorem Gang.jump_badRegs (g : Gang) (a : Word64) : (g.jump a).badRegs = g.badRegs := rfl
@[simp] theorem Gang.jump_floors (g : Gang) (a : Word64) : (g.jump a).floors = g.floors := rfl
@[simp] theorem Gang.jump_engWts (g : Gang) (a : Word64) : (g.jump a).engWts = g.engWts := rfl

/-! ### Gang.markT -/

@[simp] theorem Gang.markT_core (g : Gang) (l : List Nat) : (g.markT l).core = g.core := rfl
@[simp] theorem Gang.markT_slot (g : Gang) (l : List Nat) : (g.markT l).slot = g.slot := rfl
@[simp] theorem Gang.markT_block (g : Gang) (l : List Nat) : (g.markT l).block = g.block := rfl
@[simp] theorem Gang.markT_gangId (g : Gang) (l : List Nat) : (g.markT l).gangId = g.gangId := rfl
@[simp] theorem Gang.markT_role (g : Gang) (l : List Nat) : (g.markT l).role = g.role := rfl
@[simp] theorem Gang.markT_granules (g : Gang) (l : List Nat) : (g.markT l).granules = g.granules := rfl
@[simp] theorem Gang.markT_exited (g : Gang) (l : List Nat) : (g.markT l).exited = g.exited := rfl
@[simp] theorem Gang.markT_parted (g : Gang) (l : List Nat) : (g.markT l).parted = g.parted := rfl
@[simp] theorem Gang.markT_s (g : Gang) (l : List Nat) : (g.markT l).s = g.s := rfl
@[simp] theorem Gang.markT_scc (g : Gang) (l : List Nat) : (g.markT l).scc = g.scc := rfl
@[simp] theorem Gang.markT_mode (g : Gang) (l : List Nat) : (g.markT l).mode = g.mode := rfl
@[simp] theorem Gang.markT_m (g : Gang) (l : List Nat) : (g.markT l).m = g.m := rfl
@[simp] theorem Gang.markT_v (g : Gang) (l : List Nat) : (g.markT l).v = g.v := rfl
@[simp] theorem Gang.markT_flags (g : Gang) (l : List Nat) : (g.markT l).flags = g.flags := rfl
@[simp] theorem Gang.markT_narrow (g : Gang) (l : List Nat) : (g.markT l).narrow = g.narrow := rfl
@[simp] theorem Gang.markT_pts (g : Gang) (l : List Nat) : (g.markT l).pts = g.pts := rfl
@[simp] theorem Gang.markT_ats (g : Gang) (l : List Nat) : (g.markT l).ats = g.ats := rfl
@[simp] theorem Gang.markT_seed (g : Gang) (l : List Nat) : (g.markT l).seed = g.seed := rfl
@[simp] theorem Gang.markT_wakewhy (g : Gang) (l : List Nat) : (g.markT l).wakewhy = g.wakewhy := rfl
@[simp] theorem Gang.markT_layer (g : Gang) (l : List Nat) : (g.markT l).layer = g.layer := rfl
@[simp] theorem Gang.markT_lfault (g : Gang) (l : List Nat) : (g.markT l).lfault = g.lfault := rfl
@[simp] theorem Gang.markT_lcause (g : Gang) (l : List Nat) : (g.markT l).lcause = g.lcause := rfl
@[simp] theorem Gang.markT_stop (g : Gang) (l : List Nat) : (g.markT l).stop = g.stop := rfl
@[simp] theorem Gang.markT_halted (g : Gang) (l : List Nat) : (g.markT l).halted = g.halted := rfl
@[simp] theorem Gang.markT_killed (g : Gang) (l : List Nat) : (g.markT l).killed = g.killed := rfl
@[simp] theorem Gang.markT_ended (g : Gang) (l : List Nat) : (g.markT l).ended = g.ended := rfl
@[simp] theorem Gang.markT_deferred (g : Gang) (l : List Nat) : (g.markT l).deferred = g.deferred := rfl
@[simp] theorem Gang.markT_taken (g : Gang) (l : List Nat) : (g.markT l).taken = g.taken := rfl
@[simp] theorem Gang.markT_owedRebases (g : Gang) (l : List Nat) : (g.markT l).owedRebases = g.owedRebases := rfl
@[simp] theorem Gang.markT_mismatch (g : Gang) (l : List Nat) : (g.markT l).mismatch = g.mismatch := rfl
@[simp] theorem Gang.markT_badRegs (g : Gang) (l : List Nat) : (g.markT l).badRegs = g.badRegs := rfl
@[simp] theorem Gang.markT_floors (g : Gang) (l : List Nat) : (g.markT l).floors = g.floors := rfl
@[simp] theorem Gang.markT_engWts (g : Gang) (l : List Nat) : (g.markT l).engWts = g.engWts := rfl

/-! ### Gang.raisePts -/

@[simp] theorem Gang.raisePts_core (g : Gang) (w : Nat) : (g.raisePts w).core = g.core := rfl
@[simp] theorem Gang.raisePts_slot (g : Gang) (w : Nat) : (g.raisePts w).slot = g.slot := rfl
@[simp] theorem Gang.raisePts_block (g : Gang) (w : Nat) : (g.raisePts w).block = g.block := rfl
@[simp] theorem Gang.raisePts_gangId (g : Gang) (w : Nat) : (g.raisePts w).gangId = g.gangId := rfl
@[simp] theorem Gang.raisePts_role (g : Gang) (w : Nat) : (g.raisePts w).role = g.role := rfl
@[simp] theorem Gang.raisePts_granules (g : Gang) (w : Nat) : (g.raisePts w).granules = g.granules := rfl
@[simp] theorem Gang.raisePts_exited (g : Gang) (w : Nat) : (g.raisePts w).exited = g.exited := rfl
@[simp] theorem Gang.raisePts_grp (g : Gang) (w : Nat) : (g.raisePts w).grp = g.grp := rfl
@[simp] theorem Gang.raisePts_parted (g : Gang) (w : Nat) : (g.raisePts w).parted = g.parted := rfl
@[simp] theorem Gang.raisePts_s (g : Gang) (w : Nat) : (g.raisePts w).s = g.s := rfl
@[simp] theorem Gang.raisePts_scc (g : Gang) (w : Nat) : (g.raisePts w).scc = g.scc := rfl
@[simp] theorem Gang.raisePts_mode (g : Gang) (w : Nat) : (g.raisePts w).mode = g.mode := rfl
@[simp] theorem Gang.raisePts_m (g : Gang) (w : Nat) : (g.raisePts w).m = g.m := rfl
@[simp] theorem Gang.raisePts_v (g : Gang) (w : Nat) : (g.raisePts w).v = g.v := rfl
@[simp] theorem Gang.raisePts_flags (g : Gang) (w : Nat) : (g.raisePts w).flags = g.flags := rfl
@[simp] theorem Gang.raisePts_narrow (g : Gang) (w : Nat) : (g.raisePts w).narrow = g.narrow := rfl
@[simp] theorem Gang.raisePts_seed (g : Gang) (w : Nat) : (g.raisePts w).seed = g.seed := rfl
@[simp] theorem Gang.raisePts_wakewhy (g : Gang) (w : Nat) : (g.raisePts w).wakewhy = g.wakewhy := rfl
@[simp] theorem Gang.raisePts_layer (g : Gang) (w : Nat) : (g.raisePts w).layer = g.layer := rfl
@[simp] theorem Gang.raisePts_lfault (g : Gang) (w : Nat) : (g.raisePts w).lfault = g.lfault := rfl
@[simp] theorem Gang.raisePts_lcause (g : Gang) (w : Nat) : (g.raisePts w).lcause = g.lcause := rfl
@[simp] theorem Gang.raisePts_stop (g : Gang) (w : Nat) : (g.raisePts w).stop = g.stop := rfl
@[simp] theorem Gang.raisePts_halted (g : Gang) (w : Nat) : (g.raisePts w).halted = g.halted := rfl
@[simp] theorem Gang.raisePts_killed (g : Gang) (w : Nat) : (g.raisePts w).killed = g.killed := rfl
@[simp] theorem Gang.raisePts_ended (g : Gang) (w : Nat) : (g.raisePts w).ended = g.ended := rfl
@[simp] theorem Gang.raisePts_deferred (g : Gang) (w : Nat) : (g.raisePts w).deferred = g.deferred := rfl
@[simp] theorem Gang.raisePts_taken (g : Gang) (w : Nat) : (g.raisePts w).taken = g.taken := rfl
@[simp] theorem Gang.raisePts_mismatch (g : Gang) (w : Nat) : (g.raisePts w).mismatch = g.mismatch := rfl
@[simp] theorem Gang.raisePts_badRegs (g : Gang) (w : Nat) : (g.raisePts w).badRegs = g.badRegs := rfl
@[simp] theorem Gang.raisePts_floors (g : Gang) (w : Nat) : (g.raisePts w).floors = g.floors := rfl
@[simp] theorem Gang.raisePts_engWts (g : Gang) (w : Nat) : (g.raisePts w).engWts = g.engWts := rfl

/-! ### Gang.acquireClock -/

@[simp] theorem Gang.acquireClock_core (g : Gang) : (g.acquireClock).core = g.core := rfl
@[simp] theorem Gang.acquireClock_slot (g : Gang) : (g.acquireClock).slot = g.slot := rfl
@[simp] theorem Gang.acquireClock_block (g : Gang) : (g.acquireClock).block = g.block := rfl
@[simp] theorem Gang.acquireClock_gangId (g : Gang) : (g.acquireClock).gangId = g.gangId := rfl
@[simp] theorem Gang.acquireClock_role (g : Gang) : (g.acquireClock).role = g.role := rfl
@[simp] theorem Gang.acquireClock_granules (g : Gang) : (g.acquireClock).granules = g.granules := rfl
@[simp] theorem Gang.acquireClock_exited (g : Gang) : (g.acquireClock).exited = g.exited := rfl
@[simp] theorem Gang.acquireClock_grp (g : Gang) : (g.acquireClock).grp = g.grp := rfl
@[simp] theorem Gang.acquireClock_parted (g : Gang) : (g.acquireClock).parted = g.parted := rfl
@[simp] theorem Gang.acquireClock_s (g : Gang) : (g.acquireClock).s = g.s := rfl
@[simp] theorem Gang.acquireClock_scc (g : Gang) : (g.acquireClock).scc = g.scc := rfl
@[simp] theorem Gang.acquireClock_mode (g : Gang) : (g.acquireClock).mode = g.mode := rfl
@[simp] theorem Gang.acquireClock_m (g : Gang) : (g.acquireClock).m = g.m := rfl
@[simp] theorem Gang.acquireClock_v (g : Gang) : (g.acquireClock).v = g.v := rfl
@[simp] theorem Gang.acquireClock_flags (g : Gang) : (g.acquireClock).flags = g.flags := rfl
@[simp] theorem Gang.acquireClock_narrow (g : Gang) : (g.acquireClock).narrow = g.narrow := rfl
@[simp] theorem Gang.acquireClock_pts (g : Gang) : (g.acquireClock).pts = g.pts := rfl
@[simp] theorem Gang.acquireClock_seed (g : Gang) : (g.acquireClock).seed = g.seed := rfl
@[simp] theorem Gang.acquireClock_wakewhy (g : Gang) : (g.acquireClock).wakewhy = g.wakewhy := rfl
@[simp] theorem Gang.acquireClock_layer (g : Gang) : (g.acquireClock).layer = g.layer := rfl
@[simp] theorem Gang.acquireClock_lfault (g : Gang) : (g.acquireClock).lfault = g.lfault := rfl
@[simp] theorem Gang.acquireClock_lcause (g : Gang) : (g.acquireClock).lcause = g.lcause := rfl
@[simp] theorem Gang.acquireClock_stop (g : Gang) : (g.acquireClock).stop = g.stop := rfl
@[simp] theorem Gang.acquireClock_halted (g : Gang) : (g.acquireClock).halted = g.halted := rfl
@[simp] theorem Gang.acquireClock_killed (g : Gang) : (g.acquireClock).killed = g.killed := rfl
@[simp] theorem Gang.acquireClock_ended (g : Gang) : (g.acquireClock).ended = g.ended := rfl
@[simp] theorem Gang.acquireClock_deferred (g : Gang) : (g.acquireClock).deferred = g.deferred := rfl
@[simp] theorem Gang.acquireClock_taken (g : Gang) : (g.acquireClock).taken = g.taken := rfl
@[simp] theorem Gang.acquireClock_owedRebases (g : Gang) : (g.acquireClock).owedRebases = g.owedRebases := rfl
@[simp] theorem Gang.acquireClock_mismatch (g : Gang) : (g.acquireClock).mismatch = g.mismatch := rfl
@[simp] theorem Gang.acquireClock_badRegs (g : Gang) : (g.acquireClock).badRegs = g.badRegs := rfl
@[simp] theorem Gang.acquireClock_floors (g : Gang) : (g.acquireClock).floors = g.floors := rfl
@[simp] theorem Gang.acquireClock_engWts (g : Gang) : (g.acquireClock).engWts = g.engWts := rfl

/-! ### Gang.stickyCause -/

@[simp] theorem Gang.stickyCause_core (g : Gang) (b : Nat) : (g.stickyCause b).core = g.core := rfl
@[simp] theorem Gang.stickyCause_slot (g : Gang) (b : Nat) : (g.stickyCause b).slot = g.slot := rfl
@[simp] theorem Gang.stickyCause_block (g : Gang) (b : Nat) : (g.stickyCause b).block = g.block := rfl
@[simp] theorem Gang.stickyCause_gangId (g : Gang) (b : Nat) : (g.stickyCause b).gangId = g.gangId := rfl
@[simp] theorem Gang.stickyCause_role (g : Gang) (b : Nat) : (g.stickyCause b).role = g.role := rfl
@[simp] theorem Gang.stickyCause_granules (g : Gang) (b : Nat) : (g.stickyCause b).granules = g.granules := rfl
@[simp] theorem Gang.stickyCause_exited (g : Gang) (b : Nat) : (g.stickyCause b).exited = g.exited := rfl
@[simp] theorem Gang.stickyCause_grp (g : Gang) (b : Nat) : (g.stickyCause b).grp = g.grp := rfl
@[simp] theorem Gang.stickyCause_parted (g : Gang) (b : Nat) : (g.stickyCause b).parted = g.parted := rfl
@[simp] theorem Gang.stickyCause_s (g : Gang) (b : Nat) : (g.stickyCause b).s = g.s := rfl
@[simp] theorem Gang.stickyCause_scc (g : Gang) (b : Nat) : (g.stickyCause b).scc = g.scc := rfl
@[simp] theorem Gang.stickyCause_mode (g : Gang) (b : Nat) : (g.stickyCause b).mode = g.mode := rfl
@[simp] theorem Gang.stickyCause_m (g : Gang) (b : Nat) : (g.stickyCause b).m = g.m := rfl
@[simp] theorem Gang.stickyCause_v (g : Gang) (b : Nat) : (g.stickyCause b).v = g.v := rfl
@[simp] theorem Gang.stickyCause_flags (g : Gang) (b : Nat) : (g.stickyCause b).flags = g.flags := rfl
@[simp] theorem Gang.stickyCause_narrow (g : Gang) (b : Nat) : (g.stickyCause b).narrow = g.narrow := rfl
@[simp] theorem Gang.stickyCause_pts (g : Gang) (b : Nat) : (g.stickyCause b).pts = g.pts := rfl
@[simp] theorem Gang.stickyCause_ats (g : Gang) (b : Nat) : (g.stickyCause b).ats = g.ats := rfl
@[simp] theorem Gang.stickyCause_seed (g : Gang) (b : Nat) : (g.stickyCause b).seed = g.seed := rfl
@[simp] theorem Gang.stickyCause_wakewhy (g : Gang) (b : Nat) : (g.stickyCause b).wakewhy = g.wakewhy := rfl
@[simp] theorem Gang.stickyCause_layer (g : Gang) (b : Nat) : (g.stickyCause b).layer = g.layer := rfl
@[simp] theorem Gang.stickyCause_lfault (g : Gang) (b : Nat) : (g.stickyCause b).lfault = g.lfault := rfl
@[simp] theorem Gang.stickyCause_stop (g : Gang) (b : Nat) : (g.stickyCause b).stop = g.stop := rfl
@[simp] theorem Gang.stickyCause_halted (g : Gang) (b : Nat) : (g.stickyCause b).halted = g.halted := rfl
@[simp] theorem Gang.stickyCause_killed (g : Gang) (b : Nat) : (g.stickyCause b).killed = g.killed := rfl
@[simp] theorem Gang.stickyCause_ended (g : Gang) (b : Nat) : (g.stickyCause b).ended = g.ended := rfl
@[simp] theorem Gang.stickyCause_deferred (g : Gang) (b : Nat) : (g.stickyCause b).deferred = g.deferred := rfl
@[simp] theorem Gang.stickyCause_taken (g : Gang) (b : Nat) : (g.stickyCause b).taken = g.taken := rfl
@[simp] theorem Gang.stickyCause_owedRebases (g : Gang) (b : Nat) : (g.stickyCause b).owedRebases = g.owedRebases := rfl
@[simp] theorem Gang.stickyCause_mismatch (g : Gang) (b : Nat) : (g.stickyCause b).mismatch = g.mismatch := rfl
@[simp] theorem Gang.stickyCause_badRegs (g : Gang) (b : Nat) : (g.stickyCause b).badRegs = g.badRegs := rfl
@[simp] theorem Gang.stickyCause_floors (g : Gang) (b : Nat) : (g.stickyCause b).floors = g.floors := rfl
@[simp] theorem Gang.stickyCause_engWts (g : Gang) (b : Nat) : (g.stickyCause b).engWts = g.engWts := rfl

/-! ### Gang.waitStatus -/

@[simp] theorem Gang.waitStatus_core (g : Gang) (v : Nat) : (g.waitStatus v).core = g.core := rfl
@[simp] theorem Gang.waitStatus_slot (g : Gang) (v : Nat) : (g.waitStatus v).slot = g.slot := rfl
@[simp] theorem Gang.waitStatus_block (g : Gang) (v : Nat) : (g.waitStatus v).block = g.block := rfl
@[simp] theorem Gang.waitStatus_gangId (g : Gang) (v : Nat) : (g.waitStatus v).gangId = g.gangId := rfl
@[simp] theorem Gang.waitStatus_role (g : Gang) (v : Nat) : (g.waitStatus v).role = g.role := rfl
@[simp] theorem Gang.waitStatus_granules (g : Gang) (v : Nat) : (g.waitStatus v).granules = g.granules := rfl
@[simp] theorem Gang.waitStatus_exited (g : Gang) (v : Nat) : (g.waitStatus v).exited = g.exited := rfl
@[simp] theorem Gang.waitStatus_grp (g : Gang) (v : Nat) : (g.waitStatus v).grp = g.grp := rfl
@[simp] theorem Gang.waitStatus_parted (g : Gang) (v : Nat) : (g.waitStatus v).parted = g.parted := rfl
@[simp] theorem Gang.waitStatus_s (g : Gang) (v : Nat) : (g.waitStatus v).s = g.s := rfl
@[simp] theorem Gang.waitStatus_scc (g : Gang) (v : Nat) : (g.waitStatus v).scc = g.scc := rfl
@[simp] theorem Gang.waitStatus_mode (g : Gang) (v : Nat) : (g.waitStatus v).mode = g.mode := rfl
@[simp] theorem Gang.waitStatus_m (g : Gang) (v : Nat) : (g.waitStatus v).m = g.m := rfl
@[simp] theorem Gang.waitStatus_v (g : Gang) (v : Nat) : (g.waitStatus v).v = g.v := rfl
@[simp] theorem Gang.waitStatus_flags (g : Gang) (v : Nat) : (g.waitStatus v).flags = g.flags := rfl
@[simp] theorem Gang.waitStatus_narrow (g : Gang) (v : Nat) : (g.waitStatus v).narrow = g.narrow := rfl
@[simp] theorem Gang.waitStatus_pts (g : Gang) (v : Nat) : (g.waitStatus v).pts = g.pts := rfl
@[simp] theorem Gang.waitStatus_ats (g : Gang) (v : Nat) : (g.waitStatus v).ats = g.ats := rfl
@[simp] theorem Gang.waitStatus_seed (g : Gang) (v : Nat) : (g.waitStatus v).seed = g.seed := rfl
@[simp] theorem Gang.waitStatus_wakewhy (g : Gang) (v : Nat) : (g.waitStatus v).wakewhy = g.wakewhy := rfl
@[simp] theorem Gang.waitStatus_layer (g : Gang) (v : Nat) : (g.waitStatus v).layer = g.layer := rfl
@[simp] theorem Gang.waitStatus_lfault (g : Gang) (v : Nat) : (g.waitStatus v).lfault = g.lfault := rfl
@[simp] theorem Gang.waitStatus_stop (g : Gang) (v : Nat) : (g.waitStatus v).stop = g.stop := rfl
@[simp] theorem Gang.waitStatus_halted (g : Gang) (v : Nat) : (g.waitStatus v).halted = g.halted := rfl
@[simp] theorem Gang.waitStatus_killed (g : Gang) (v : Nat) : (g.waitStatus v).killed = g.killed := rfl
@[simp] theorem Gang.waitStatus_ended (g : Gang) (v : Nat) : (g.waitStatus v).ended = g.ended := rfl
@[simp] theorem Gang.waitStatus_deferred (g : Gang) (v : Nat) : (g.waitStatus v).deferred = g.deferred := rfl
@[simp] theorem Gang.waitStatus_taken (g : Gang) (v : Nat) : (g.waitStatus v).taken = g.taken := rfl
@[simp] theorem Gang.waitStatus_owedRebases (g : Gang) (v : Nat) : (g.waitStatus v).owedRebases = g.owedRebases := rfl
@[simp] theorem Gang.waitStatus_mismatch (g : Gang) (v : Nat) : (g.waitStatus v).mismatch = g.mismatch := rfl
@[simp] theorem Gang.waitStatus_badRegs (g : Gang) (v : Nat) : (g.waitStatus v).badRegs = g.badRegs := rfl
@[simp] theorem Gang.waitStatus_floors (g : Gang) (v : Nat) : (g.waitStatus v).floors = g.floors := rfl
@[simp] theorem Gang.waitStatus_engWts (g : Gang) (v : Nat) : (g.waitStatus v).engWts = g.engWts := rfl

/-! ### Gang.endWait -/

@[simp] theorem Gang.endWait_core (g : Gang) (b : Nat) : (g.endWait b).core = g.core := rfl
@[simp] theorem Gang.endWait_slot (g : Gang) (b : Nat) : (g.endWait b).slot = g.slot := rfl
@[simp] theorem Gang.endWait_block (g : Gang) (b : Nat) : (g.endWait b).block = g.block := rfl
@[simp] theorem Gang.endWait_gangId (g : Gang) (b : Nat) : (g.endWait b).gangId = g.gangId := rfl
@[simp] theorem Gang.endWait_role (g : Gang) (b : Nat) : (g.endWait b).role = g.role := rfl
@[simp] theorem Gang.endWait_granules (g : Gang) (b : Nat) : (g.endWait b).granules = g.granules := rfl
@[simp] theorem Gang.endWait_exited (g : Gang) (b : Nat) : (g.endWait b).exited = g.exited := rfl
@[simp] theorem Gang.endWait_parted (g : Gang) (b : Nat) : (g.endWait b).parted = g.parted := rfl
@[simp] theorem Gang.endWait_s (g : Gang) (b : Nat) : (g.endWait b).s = g.s := rfl
@[simp] theorem Gang.endWait_scc (g : Gang) (b : Nat) : (g.endWait b).scc = g.scc := rfl
@[simp] theorem Gang.endWait_mode (g : Gang) (b : Nat) : (g.endWait b).mode = g.mode := rfl
@[simp] theorem Gang.endWait_m (g : Gang) (b : Nat) : (g.endWait b).m = g.m := rfl
@[simp] theorem Gang.endWait_v (g : Gang) (b : Nat) : (g.endWait b).v = g.v := rfl
@[simp] theorem Gang.endWait_flags (g : Gang) (b : Nat) : (g.endWait b).flags = g.flags := rfl
@[simp] theorem Gang.endWait_narrow (g : Gang) (b : Nat) : (g.endWait b).narrow = g.narrow := rfl
@[simp] theorem Gang.endWait_seed (g : Gang) (b : Nat) : (g.endWait b).seed = g.seed := rfl
@[simp] theorem Gang.endWait_layer (g : Gang) (b : Nat) : (g.endWait b).layer = g.layer := rfl
@[simp] theorem Gang.endWait_lfault (g : Gang) (b : Nat) : (g.endWait b).lfault = g.lfault := rfl
@[simp] theorem Gang.endWait_lcause (g : Gang) (b : Nat) : (g.endWait b).lcause = g.lcause := rfl
@[simp] theorem Gang.endWait_stop (g : Gang) (b : Nat) : (g.endWait b).stop = g.stop := rfl
@[simp] theorem Gang.endWait_halted (g : Gang) (b : Nat) : (g.endWait b).halted = g.halted := rfl
@[simp] theorem Gang.endWait_killed (g : Gang) (b : Nat) : (g.endWait b).killed = g.killed := rfl
@[simp] theorem Gang.endWait_ended (g : Gang) (b : Nat) : (g.endWait b).ended = g.ended := rfl
@[simp] theorem Gang.endWait_deferred (g : Gang) (b : Nat) : (g.endWait b).deferred = g.deferred := rfl
@[simp] theorem Gang.endWait_taken (g : Gang) (b : Nat) : (g.endWait b).taken = g.taken := rfl
@[simp] theorem Gang.endWait_mismatch (g : Gang) (b : Nat) : (g.endWait b).mismatch = g.mismatch := rfl
@[simp] theorem Gang.endWait_badRegs (g : Gang) (b : Nat) : (g.endWait b).badRegs = g.badRegs := rfl
@[simp] theorem Gang.endWait_floors (g : Gang) (b : Nat) : (g.endWait b).floors = g.floors := rfl
@[simp] theorem Gang.endWait_engWts (g : Gang) (b : Nat) : (g.endWait b).engWts = g.engWts := rfl

/-! ### Tables of the state -/

theorem State.core_setCore (s : State) (n m : Nat) (c : Core) : (s.setCore n c).core m = if m = n then c else s.core m := by
  unfold State.core State.setCore
  by_cases h : m = n
  · subst h; simp [Table.find_insert_self]
  · simp [Table.find_insert_ne, h]

@[simp] theorem State.core_setCore_self (s : State) (n : Nat) (c : Core) : (s.setCore n c).core n = c := by simp [State.core_setCore]

theorem State.cluster_setCluster (s : State) (n m : Nat) (c : Cluster) :
    (s.setCluster n c).cluster m = if m = n then c else s.cluster m := by
  unfold State.cluster State.setCluster
  by_cases h : m = n
  · subst h; simp [Table.find_insert_self]
  · simp [Table.find_insert_ne, h]

theorem State.block_setBlock (s : State) (n m : Nat) (c : Block) : (s.setBlock n c).block m = if m = n then c else s.block m := by
  unfold State.block State.setBlock
  by_cases h : m = n
  · subst h; simp [Table.find_insert_self]
  · simp [Table.find_insert_ne, h]

theorem State.launch_setLaunch (s : State) (n m : Nat) (c : Launch) :
    (s.setLaunch n c).launch m = if m = n then c else s.launch m := by
  unfold State.launch State.setLaunch
  by_cases h : m = n
  · subst h; simp [Table.find_insert_self]
  · simp [Table.find_insert_ne, h]

theorem State.privReg_setPriv (s : State) (i j : Nat) (v : Word64) :
    (s.setPriv i v).privReg j = if j = i then v else s.privReg j := by
  unfold State.privReg State.setPriv
  simp only [Table.get_set]

theorem State.barReg_setBar (s : State) (i j v : Nat) :
    (s.setBar i v).barReg j = if j = i then v % 2 ^ 64 else s.barReg j := by
  unfold State.barReg State.setBar
  simp only [Table.get_set]
  split <;> simp

theorem State.home_setHome (s : State) (n : Nat) (h : HomeLine) : (s.setHome n h).home n = h := by
  unfold State.home State.setHome
  simp [Table.find_insert_self]

theorem State.byte_setByte (s : State) (a b : Nat) (v : Byte) : (s.setByte a v).byte b = if b = a then v else s.byte b := by
  unfold State.byte State.setByte
  simp only [Table.get_set]

end Sys2Proof.Machine
end

