-- ==== Sys2Proof/Laws/Memory.lean ====
section
/-! SUPPORT. The canonical form of memory: every operation that writes memory keeps it. -/

namespace Sys2Proof.Machine

/-- One byte written. -/
theorem State.wf_setByte {s : State} (a : Nat) (b : Byte) (h : Memory.wf s.mem = true) : Memory.wf (s.setByte a b).mem = true :=
  Table.wf_set _ _ _ h

/-- Bytes written from an address on. -/
theorem State.wf_setBytes {s : State} (a : Nat) (l : List Byte) (h : Memory.wf s.mem = true) :
    Memory.wf (s.setBytes a l).mem = true := by
  induction l generalizing s a with
  | nil => exact h
  | cons b rest ih => exact ih _ (State.wf_setByte a b h)

/-- A fold of updates each of which keeps the form. -/
theorem State.wf_foldl {β : Type} (f : State → β → State) (l : List β)
    (hf : ∀ s x, Memory.wf s.mem = true → Memory.wf (f s x).mem = true) {s : State} (h : Memory.wf s.mem = true) :
    Memory.wf (l.foldl f s).mem = true := by
  induction l generalizing s with
  | nil => exact h
  | cons x rest ih => exact ih (hf _ _ h)

/-- The bytes of a line under a mask. -/
theorem State.wf_storeLine {s : State} (line : Nat) (mask : LaneMask) (data : Line) (h : Memory.wf s.mem = true) :
    Memory.wf (s.storeLine line mask data).mem = true :=
  State.wf_foldl _ _ (fun _ _ h => State.wf_setByte _ _ h) h

@[simp] theorem State.fire_mem (s : State) (line wts : Nat) : (s.fire line wts).mem = s.mem := rfl

/-- A store at a home (R228). -/
theorem State.homeStore_mem (s : State) (line t : Nat) (mask : LaneMask) (data : Line) (poison : Bool) :
    (s.homeStore line t mask data poison).mem = (s.storeLine line mask data).mem := by
  unfold State.homeStore
  simp

theorem State.wf_homeStore {s : State} (line t : Nat) (mask : LaneMask) (data : Line) (poison : Bool) (h : Memory.wf s.mem = true) :
    Memory.wf (s.homeStore line t mask data poison).mem = true := by
  rw [State.homeStore_mem]; exact State.wf_storeLine line mask data h

@[simp] theorem State.grant_mem (s : State) (line t : Nat) (renews : Option Nat) : (s.grant line t renews).mem = s.mem := rfl

@[simp] theorem State.recall_mem (s : State) (line : Nat) : (s.recall line).mem = s.mem := by
  unfold State.recall; split <;> rfl

@[simp] theorem State.sendPeer_mem (s : State) (op line kind : Nat) (mask : LaneMask) (data : Line) :
    (s.sendPeer op line kind mask data).mem = s.mem := by
  unfold State.sendPeer; split <;> rfl

/-- A write of the device to a line, at once. -/
theorem State.wf_putBits {s : State} (line t : Nat) (mask value : Line) (h : Memory.wf s.mem = true) :
    Memory.wf (s.putBits line t mask value).mem = true := by
  unfold State.putBits
  dsimp only
  split
  · simpa using h
  · exact State.wf_homeStore _ _ _ _ _ (by simpa using h)

/-- A write of the device to a line, now or later. -/
theorem State.wf_put {s : State} (line t : Nat) (mask value : Line) (h : Memory.wf s.mem = true) :
    Memory.wf (s.put line t mask value).mem = true := by
  unfold State.put
  split
  · exact h
  · exact State.wf_putBits _ _ _ _ h

/-- A counter raised. -/
theorem State.wf_addAt {s : State} (line t off n : Nat) (h : Memory.wf s.mem = true) :
    Memory.wf (s.addAt line t off n).mem = true := State.wf_putBits _ _ _ _ h

/-- Bits stored by the device at the homes of their lines. -/
theorem State.wf_homeWrites {s : State} (t : Nat) (l : List ByteWrite) (h : Memory.wf s.mem = true) :
    Memory.wf (s.homeWrites t l).1.mem = true := by
  unfold State.homeWrites
  generalize ((l.map (fun e => e.addr / 64)).eraseDups) = lines
  have key : ∀ (acc : State × Nat), Memory.wf acc.1.mem = true → Memory.wf (lines.foldl (fun (acc : State × Nat) line =>
      let (mask, value) := lineOf l line
      let s := acc.1.put line t mask value
      (s, max acc.2 (s.home line).wts)) acc).1.mem = true := by
    induction lines with
    | nil => exact fun acc h => h
    | cons x rest ih => exact fun acc h => ih _ (State.wf_put _ _ _ _ h)
  exact key _ h

/-- Bytes stored by the device at the homes of their lines. -/
theorem State.wf_homeBytes {s : State} (t : Nat) (l : List (Nat × Byte)) (h : Memory.wf s.mem = true) :
    Memory.wf (s.homeBytes t l).1.mem = true := State.wf_homeWrites t _ h

/-- A record appended to a fault log. -/
theorem State.wf_appendLog {s : State} (tenant t : Nat) (record : BitVec 512) (h : Memory.wf s.mem = true) :
    Memory.wf (s.appendLog tenant t record).mem = true := by
  unfold State.appendLog
  extract_lets ptr
  split
  · rw [State.setPriv_mem]; exact h
  · rw [State.setPriv_mem]; exact State.wf_putBits _ _ _ _ h

/-- The writes of the device that can be made. -/
theorem State.wf_flushWork {s : State} (h : Memory.wf s.mem = true) : Memory.wf s.flushWork.mem = true := by
  refine State.wf_foldl _ _ (fun s w h => ?_) h
  split
  · cases w with
    | put line t mask value => exact State.wf_putBits _ _ _ _ h
    | add line t off n => exact State.wf_addAt _ _ _ _ h
    | log tenant record gang marker pts => exact State.wf_appendLog _ _ _ h
  · exact h

/-- The bytes at which an Umbra entry stands overwritten with zero. -/
theorem State.wf_zeroEntry {s : State} (e : UmbraEntry) (h : Memory.wf s.mem = true) : Memory.wf (s.zeroEntry e).mem = true :=
  Table.wf_filter _ _ h

/-- The bias table written. -/
theorem State.wf_writeBiasTable {s : State} (h : Memory.wf s.mem = true) : Memory.wf s.writeBiasTable.mem = true :=
  Table.wf_foldr _ _ _ _ (Table.wf_foldr _ _ _ _ (Table.wf_filter _ _ h))

end Sys2Proof.Machine
end

