-- ==== Sys2Proof/Laws/Ops.lean ====
section
/-! SUPPORT. What the operations that every instruction shares can do: issuing a word, finishing it, taking a fault; and that
they keep the canonical form of memory. -/

namespace Sys2Proof.Machine

/-! ## Issuing (R66, R81) -/

/-- A word whose demand meets no fault takes effect. -/
theorem State.issue_of_none {s : State} {d : Demand} {f : State → State} (h : s.firstFault d = none) : s.issue d f = .next (f s) := by
  simp [State.issue, h]

/-- A word whose demand meets a fault takes it, and has no effect. -/
theorem State.issue_of_some {s : State} {d : Demand} {f : State → State} {c : Cause} (h : s.firstFault d = some c) :
    s.issue d f = .next (s.precise c) := by
  simp [State.issue, h]

/-- Everything that issuing a word can do: it takes effect, or it takes its first fault. -/
theorem State.issue_cases (s : State) (d : Demand) (f : State → State) :
    (s.firstFault d = none ∧ s.issue d f = .next (f s)) ∨ ∃ c, s.firstFault d = some c ∧ s.issue d f = .next (s.precise c) := by
  cases h : s.firstFault d with
  | none => exact .inl ⟨rfl, State.issue_of_none h⟩
  | some c => exact .inr ⟨c, rfl, State.issue_of_some h⟩

/-- Issuing a word always answers a next state. -/
theorem State.issue_next (s : State) (d : Demand) (f : State → State) : ∃ t, s.issue d f = .next t := by
  rcases s.issue_cases d f with ⟨_, h⟩ | ⟨c, _, h⟩ <;> exact ⟨_, h⟩

/-- A word that needs nothing meets no fault. -/
@[simp] theorem State.firstFault_empty (s : State) : s.firstFault {} = none := by
  simp [State.firstFault, badFlag]

/-- A word that acts on the gang alone, and needs nothing, moves the changed gang on. -/
theorem State.issueGang_empty (s : State) (f : Gang → Gang) : s.issueGang {} f = .next { s with here := (f s.here).advance } := by
  rw [State.issueGang, State.issue_of_none s.firstFault_empty]
  rfl

/-! ## Finishing a word, and waiting -/

@[simp] theorem State.done_mem (s : State) (w : List Nat) : (s.done w).mem = s.mem := rfl
@[simp] theorem State.done_cores (s : State) (w : List Nat) : (s.done w).cores = s.cores := rfl
@[simp] theorem State.done_ops (s : State) (w : List Nat) : (s.done w).ops = s.ops := rfl
@[simp] theorem State.done_blocks (s : State) (w : List Nat) : (s.done w).blocks = s.blocks := rfl
@[simp] theorem State.done_gangs (s : State) (w : List Nat) : (s.done w).gangs = s.gangs := rfl
@[simp] theorem State.done_homes (s : State) (w : List Nat) : (s.done w).homes = s.homes := rfl

/-! ## Taking a fault (R362) -/

/-- A group that meets a fault while its gang is already stopped stays at the word, until the ERET. -/
theorem State.takeFault_of_stopped {s : State} {f : FaultReq} (h : s.here.stop ≠ .none) :
    s.takeFault f = s.onHere (fun g => g.waitFor .held) := by
  simp [State.takeFault, h]

/-- The supervisor gang only stops. -/
theorem State.takeFault_supervisor {s : State} {f : FaultReq} (h : s.here.stop = .none) (hs : s.here.isSupervisor = true) :
    s.takeFault f = s.onHere (fun g => { g with stop := .fault f.kind f.cause g.grp.slices f.dest, grp := g.grp.fresh }) := by
  simp [State.takeFault, h, hs]

/-- The gang that takes a fault is stopped after it. -/
theorem State.takeFault_stop {s : State} {f : FaultReq} (h : s.here.stop = .none) (hs : s.here.isSupervisor = true) :
    (s.takeFault f).here.stop = .fault f.kind f.cause s.here.grp.slices f.dest := by
  rw [State.takeFault_supervisor h hs]; rfl

end Sys2Proof.Machine
end

