-- ==== Sys2Proof/Tests/Slice0.lean ====
section
/-! SUPPORT. Small tests of the model: ill-formed instructions are refused, words of every family decode, the worked
examples of the specification come out, and every statement has a witness.  Expected results stand in the specification, at
the rule that a test names. -/

namespace Sys2Proof.Tests

set_option Elab.async false

open Sys2Proof.Machine Sys2Proof.Claims

/-! ## Helpers -/

/-- The next state of an outcome. -/
def next (r : Host.Outcome State Fault Refusal) : Option State :=
  match r with
  | .next t => some t
  | _ => none

/-- What `f` finds in the next state. -/
def after {α : Type} (r : Host.Outcome State Fault Refusal) (f : State → α) : Option α := (next r).map f

/-- The value of a computation that may name a cause. -/
def okOf {ε α : Type} (r : Except ε α) : Option α :=
  match r with
  | .ok a => some a
  | .error _ => none

/-- A gang of one slice in user slot 0 of core 0, in the second word of a run of four, with lane 0 active. -/
def gang : Gang :=
  { block := 1, granules := 4, m := [(0, 1)], grp := { slices := 1, pc := 0x4000001000, run := some ⟨4, 1⟩ } }

/-- `gang` at the last word of its run. -/
def lastGang : Gang := { gang with grp := { gang.grp with run := some ⟨4, 3⟩ } }

/-- The leaf that maps the 512 KiB of virtual memory from `va` to physical memory from `pa`, in tenant 1. -/
def page (va pa : Nat) : Nat × Translation := (tlbKey 1 va, ⟨pa, 19, true, true, true⟩)

/-- A core on which tenant 1 runs with the pages of HBM that begin at 0x40_0000_0000 and 0x40_0008_0000. -/
def core1 : Core := { tenant := 1, tlb := [page 0x4000000000 0x4000000000, page 0x4000080000 0x4000080000] }

/-- The bytes of tenant 1's tables: the root at 0x40_0010_0000, and a leaf that maps 512 MiB at 0x40_0000_0000 to itself (R357). -/
def tables : Table Byte :=
  [(0x4000100000, 0x01), (0x4000100001, 0x20), (0x4000100002, 0x10), (0x4000100004, 0x40), (0x4000103000, 0x1F), (0x4000103004, 0x40)]

/-- The machine with a gang of tenant 1 on the pipe. -/
def user (g : Gang) : State :=
  { here := g, cores := [(0, core1)]
    blocks := [(1, { tenant := 1, launch := 1, scratchSize := 4096, accCount := 2, live := 1 })]
    launches := [(1, { tenant := 1, stage := .running, lid := 7 })]
    priv := [(0x840, 0x4000100000), (0x841, 1)], mem := tables, nextId := 1000 }

/-- The supervisor gang of core 0 at the last word of its run. -/
def supGang : Gang := { Gang.supervisor 0 with grp := { slices := 1, pc := 0x4000000000, run := some ⟨4, 3⟩ } }

/-- The machine with the supervisor gang of core 0 on the pipe. -/
def sup (g : Gang) : State := { user g with here := g }

/-- Scalar registers of slice 0. -/
def sregs (l : List (Nat × Word64)) : Table Word64 := l

/-! ## Ill-formed instructions (R57, R64, R73, R78) -/

/-- R61: a run has 1 to 24 words. -/
theorem test_hdr_len : wellFormed (.hdr 0 0 0) = false ∧ wellFormed (.hdr 25 0 0) = false ∧ wellFormed (.hdr 24 0 0) = true := by decide
/-- R73: ETYPE 14, RND 5 and SCOPE 5 are reserved. -/
theorem test_setmode_reserved : wellFormed (.setmode 14) = false ∧ wellFormed (.setmode 0x500) = false ∧
    wellFormed (.setmode 0x5000) = false ∧ wellFormed (.setmode 0x40D) = true := by decide
/-- R322: conditions 8 to 15 are reserved. -/
theorem test_br_cond : wellFormed (.br 8 0) = false ∧ wellFormed (.br 7 0) = true := by decide
/-- R64: a load may not write a T register; a store may read one. -/
theorem test_load_dest : wellFormed (.ld 248 0 0 0) = false ∧ wellFormed (.ldf 255 0 0 0) = false ∧ wellFormed (.lds 248 0 0 0) = false ∧
    wellFormed (.atomAdd 248 0 0 0) = false ∧ wellFormed (.st 248 0 0 0) = true := by decide
/-- R254, R264, R138: LDD, ATOM.CAS and VMULW name an even register. -/
theorem test_pair_codes : wellFormed (.ldd 3 0 0 0) = false ∧ wellFormed (.std 3 0 0 0) = false ∧ wellFormed (.atomCas 3 0 0 0) = false ∧
    wellFormed (.vmulw 3 0 0) = false ∧ wellFormed (.ldd 4 0 0 0) = true := by decide
/-- R139: VCMP takes conditions 0 to 7, VCMPN and VCMPI 0 to 5. -/
theorem test_vcmp_cond : wellFormed (.vcmp 8 0 0 0) = false ∧ wellFormed (.vcmpn 6 0 0 0) = false ∧ wellFormed (.vcmpi 6 0 0 0) = false ∧
    wellFormed (.vcmp 7 0 0 0) = true := by decide
/-- R74, R353: an unlisted register is not read, a read-only one is not written. -/
theorem test_state_registers : wellFormed (.srd 1 0x013) = false ∧ wellFormed (.swr 1 0x002) = false ∧ wellFormed (.sxch 1 2 0x009) = false ∧
    wellFormed (.srd 1 0x012) = true ∧ wellFormed (.swr 1 0x00D) = true := by decide
/-- R149: VPACK narrows, VUNPKL and VUNPKH widen, and their ranges stay within V or within T. -/
theorem test_pack_ranges : wellFormed (.vpack 1 2 3 0) = false ∧ wellFormed (.vpack 1 245 0 3) = false ∧ wellFormed (.vpack 1 244 0 3) = true ∧
    wellFormed (.vunpkl 247 1 3 0) = false ∧ wellFormed (.vunpkh 246 1 3 0) = true := by decide
/-- R151: the 64-bit conversions name f32, i32 or n32. -/
theorem test_vcvt64_code : wellFormed (.vcvtTo64 2 4 1) = false ∧ wellFormed (.vcvtFrom64 2 4 3) = false ∧ wellFormed (.vcvtX64 2 4 9) = true := by
  decide
/-- R153 to R155: step selectors end at 6, VSCAN and VREDS operations at 5, VVOTE at 3 and VMATCH at 1. -/
theorem test_cross_lane_codes : wellFormed (.vxorl 1 2 3 7) = false ∧ wellFormed (.vscan 1 2 3 6) = false ∧ wellFormed (.vreds 1 2 3 6) = false ∧
    wellFormed (.vvote 1 2 3 4) = false ∧ wellFormed (.vmatch 1 2 3 2) = false ∧ wellFormed (.vbcl 1 2 3 6) = true := by decide
/-- R270, R273, R274: scopes end at 4, levels of PREF at 2, leases run from 8 to 4,096, and WBR needs cluster scope or wider. -/
theorem test_fence_fields : wellFormed (.fence 5) = false ∧ wellFormed (.drain 5) = false ∧ wellFormed (.pref 1 3) = false ∧
    wellFormed (.lease 1 2) = false ∧ wellFormed (.lease 1 13) = false ∧ wellFormed (.wbr 1 2 3) = false ∧ wellFormed (.wbr 2 2 3) = true := by decide
/-- R343: WALK writes three registers, none of them S0.  R342: EPHRD reads registers 0 to 15 and EPHWR writes 8 to 15. -/
theorem test_walk_and_ephemeris : wellFormed (.walk 0) = false ∧ wellFormed (.walk 62) = false ∧ wellFormed (.walk 61) = true ∧
    wellFormed (.ephrd 1 16) = false ∧ wellFormed (.ephwr 1 7) = false ∧ wellFormed (.ephwr 1 15) = true := by decide
/-- R80: the word of all ones is ILLEGAL. -/
theorem test_illegal_word : wellFormed .illegal = false := by decide

/-! ## Words of every family, written out from the encodings (R54, R158, R276, R348) -/

/-- R321: .run F0, F2, PRIO over three words; R190's word too: major 0, LEN 3, WAIT 5, bit 8 PRIO. -/
theorem test_word_hdr : decode 0x00600B00 = .ok (.hdr 3 5 1) := by rfl
theorem test_word_sclt : decode 0x20310517 = .ok (.sclt 3 4 5) := by rfl
theorem test_word_sli : decode 0x2C8C9E37 = .ok (.sli 8 3 0x9E37) := by rfl
theorem test_word_mmov : decode 0x30100005 = .ok (.mmov 1 0) := by rfl
theorem test_word_srd : decode 0x3490000D = .ok (.srd 9 0x00D) := by rfl
/-- R417: SWR EVC0, S5. -/
theorem test_word_swr : decode 0x34015030 = .ok (.swr 5 0x030) := by rfl
theorem test_word_vfma : decode 0x44101418 = .ok (.vfma 4 5 6) := by rfl
theorem test_word_vcmp : decode 0x548C081C = .ok (.vcmp 2 3 2 7) := by rfl
theorem test_word_vsqrt : decode 0x5C042424 = .ok (.vsqrt 1 9) := by rfl
theorem test_word_vcvt : decode 0x640C080C = .ok (.vcvt 3 2 0 3) := by rfl
theorem test_word_vlstep : decode 0x70040447 = .ok (.vlstep 1 1 1 1) := by rfl
theorem test_word_vreds : decode 0x74140841 = .ok (.vreds 5 2 1 0) := by rfl
theorem test_word_lda : decode 0x80200911 = .ok (.lda 8 2 4 1) := by rfl
theorem test_word_stl : decode 0x84200911 = .ok (.stl 8 2 4 1) := by rfl
theorem test_word_ldf : decode 0x901814C2 = .ok (.ldf 6 5 3 2) := by rfl
theorem test_word_atomCas : decode 0x9C2804B3 = .ok (.atomCas 10 1 2 3) := by rfl
theorem test_word_redFadd : decode 0xA41C0D7F = .ok (.redFadd 7 3 5 15) := by rfl
theorem test_word_slda : decode 0xAC725010 = .ok (.slda 7 9 16) := by rfl
theorem test_word_satomCas : decode 0xB03105C7 = .ok (.satomCas 3 4 5 3) := by rfl
theorem test_word_fence : decode 0xB5800000 = .ok (.fence 3) ∧ decode 0xB5900000 = .ok (.fenceEng 3) := by exact ⟨rfl, rfl⟩
theorem test_word_lease : decode 0xB441800A = .ok (.lease 6 10) := by rfl
theorem test_word_wbr : decode 0xB5D18700 = .ok (.wbr 3 6 7) := by rfl
theorem test_word_br : decode 0x08C00003 = .ok (.br 3 3) ∧ decode 0x0A3FFFFE = .ok (.brNever 0x3FFFFE) := by exact ⟨rfl, rfl⟩
theorem test_word_calls : decode 0x0C000010 = .ok (.call 16) ∧ decode 0x10030001 = .ok (.callr 12) ∧ decode 0x10000002 = .ok .ret := by
  exact ⟨rfl, rfl, rfl⟩
theorem test_word_groups : decode 0x10300003 = .ok (.regang 3) ∧ decode 0x10000005 = .ok .yield := by exact ⟨rfl, rfl⟩
theorem test_word_barriers : decode 0xDC010500 = .ok (.barinit 4 5) ∧ decode 0xDC010702 = .ok (.barexp 4 7) ∧
    decode 0xDC010603 = .ok (.barwait 0 4 6) ∧ decode 0xDC110603 = .ok (.barwait 1 4 6) := by exact ⟨rfl, rfl, rfl, rfl⟩
theorem test_word_waits : decode 0xDC200003 = .ok .barwaitGrid ∧ decode 0xDC810604 = .ok (.bartry 8 4 6) ∧
    decode 0xDC720405 = .ok (.watch 7 8 4) := by exact ⟨rfl, rfl, rfl⟩
theorem test_word_pool : decode 0xE0024000 = .ok (.claim 9) ∧ decode 0xE0024001 = .ok (.give 9) := by exact ⟨rfl, rfl⟩
theorem test_word_tasks : decode 0xD4328000 = .ok (.rtkt 3 10) ∧ decode 0xD4028004 = .ok (.postn 10) ∧ decode 0xD9400000 = .ok (.walk 20) := by
  exact ⟨rfl, rfl, rfl⟩
/-- R81's example: FN 0xC0 of major 0x34 is ACOPY with a reserved flag code, and FN 0xCA is no instruction. -/
theorem test_word_flagcode : decode 0xD00000C0 = .ok (.acopy 0 0 0 12) ∧ ∀ i, decode 0xD00000CA ≠ .ok i := by
  exact ⟨rfl, fun i h => by have h' : decode 0xD00000CA = .error .reservedWord := rfl; rw [h'] at h; cases h⟩
/-- The table numbers a word's bits as the word does (R54). -/
theorem test_table_word : decodeTableWord 32 0x20518700 = some (.sadd 5 6 7) := by rfl

/-! ## Numbers (05_number_formats.md) -/

/-- R9: a tie of round to an integer. -/
theorem test_round_integer_ties : Num.toIntSat .rne true 8 (.fin false 5 2) = 2 ∧ Num.toIntSat .rna true 8 (.fin false 5 2) = 3 := by decide +kernel

/-- R113's table: SCALE 0.5, SPECIAL 2.5, SPEN 1, NARROW.SQ4 = 0. -/
theorem test_narrow_sq4 : [(false, 13, 10), (false, 11, 8), (false, 9, 8), (true, 13, 10), (false, 4, 1), (false, 1, 10)].map
    (fun x => narrowTo 6 0 0x1423F000000 0 0 (.fin x.1 x.2.1 x.2.2)) = [8, 8, 4, 13, 7, 0] := by decide +kernel

/-- R113 step 7: under NARROW.SQ8 = 0 with SCALE 1 and no special, 450 and 464 give 448 and 470 gives NaN. -/
theorem test_narrow_sq8 : [450, 464, 470].map (fun n => narrowTo 7 0 0x3F800000 0 0 (.fin false n 1)) = [0x7E, 0x7E, 0x7F] := by decide +kernel

/-- R113's table under control 0: 500 and 460 to e4m3, 70,000 and −∞ to e5m2, NaN to f16, 300 and −3.5 to i8. -/
theorem test_narrow_control0 : narrowTo 3 0 0 0 0 (.fin false 500 1) = 0x7F ∧ narrowTo 3 0 0 0 0 (.fin false 460 1) = 0x7E ∧
    narrowTo 4 0 0 0 0 (.fin false 70000 1) = 0x7C ∧ narrowTo 4 0 0 0 0 (.inf true) = 0xFC ∧ narrowTo 1 0 0 0 0 .nan = 0x7E00 ∧
    narrowTo 12 0 0 0 0 (.fin false 300 1) = 44 ∧ narrowTo 12 0 0 0 0 (.fin true 7 2) = 252 := by decide +kernel

/-- R113's table under control 1, which every field of NARROW holds here. -/
theorem test_narrow_control1 : let n : Word64 := 0x4444444444444
    narrowTo 3 n 0 0 0 (.fin false 500 1) = 0x7E ∧ narrowTo 4 n 0 0 0 (.fin false 70000 1) = 0x7B ∧ narrowTo 4 n 0 0 0 (.inf true) = 0xFB ∧
    narrowTo 1 n 0 0 0 .nan = 0 ∧ narrowTo 12 n 0 0 0 (.fin false 300 1) = 127 := by decide +kernel

/-! ## Scalar and vector words (06_scalar_vector_instructions.md) -/

/-- S8 after a word that writes it. -/
def s8 (r : Host.Outcome State Fault Refusal) : Option Word64 := after r (fun t => t.here.sreg 0 8)

/-- The gang with S8. -/
def withS8 (v : Word64) : State := user { gang with s := [(8, v)] }

/-- R122's example, word by word. -/
theorem test_sli : s8 (exec (.sli 8 0 0x7C15) (withS8 0)) = some 0x7C15 := by decide +kernel
theorem test_slik : s8 (exec (.slik 8 3 0x9E37) (withS8 0x79B97F4A7C15)) = some 0x9E3779B97F4A7C15 := by decide +kernel
theorem test_slis : s8 (exec (.slis 8 1 0xFFFE) (withS8 0)) = some 0xFFFFFFFFFFFE0000 := by decide +kernel

/-- R119: a division by zero gives all ones and does not trap, and a destination S0 discards. -/
theorem test_sdiv_zero : s8 (exec (.sdiv 8 8 9) (withS8 5)) = some 0xFFFFFFFFFFFFFFFF := by decide +kernel
theorem test_s0_discards : after (exec (.sadd 0 8 8) (withS8 5)) (fun t => (t.here.s, t.here.grp.run)) = some ([(8, 5)], some ⟨4, 2⟩) := by
  decide +kernel

/-- R59: SORI extends with zeros and SANDI with the sign. -/
theorem test_sori : s8 (exec (.sori 8 8 0xFFF) (withS8 0)) = some 0xFFF := by decide +kernel
theorem test_sandi : s8 (exec (.sandi 8 8 0x800) (withS8 0xFFFFFFFFFFFFFFFF)) = some 0xFFFFFFFFFFFFF800 := by decide +kernel

/-- A gang of element type `e` whose lane 0 holds words in V8, V9 and V10. -/
def vgang (e : Word) (x y z : Word) : Gang := { gang with mode := [(0, e)], v := [(512, x), (576, y), (640, z)] }

/-- V10 of lane 0 after a word. -/
def v10 (r : Host.Outcome State Fault Refusal) : Option Word := after r (fun t => t.here.vword 10 0)

/-- R134: VADDS under i8x4 gives 100 + 100 = 127, VSUBS under n8x4 gives 3 − 5 = 0. -/
theorem test_vadds : v10 (exec (.vadds 10 8 9) (user (vgang 7 0x64 0x64 0))) = some 0x7F := by decide +kernel
theorem test_vsubs : v10 (exec (.vsubs 10 8 9) (user (vgang 8 3 5 0))) = some 0 := by decide +kernel

/-- R138's example: 1 + 6 − 6 + 0.25 + 0 = 1.25 under e4m3x4, element 0 in the low byte. -/
theorem test_vdot4 : v10 (exec (.vdot4 10 8 9) (user (vgang 12 0xFE304040 0x0030C444 0x3F800000))) = some 0x3FA00000 := by decide +kernel

/-- R143: VFRAC of −2.25 is 0.75; VRINT of 2.5 is 2 under RNE and 3 under RNA. -/
theorem test_vfrac : v10 (exec (.vfrac 10 8) (user (vgang 2 0xC0100000 0 0))) = some 0x3F400000 := by decide +kernel
theorem test_vrint : v10 (exec (.vrint 10 8) (user (vgang 2 0x40200000 0 0))) = some 0x40000000 ∧
    v10 (exec (.vrint 10 8) (user (vgang 0x402 0x40200000 0 0))) = some 0x40400000 := by decide +kernel

/-- R60: under a 64-bit element type an odd register is no operand. -/
theorem test_vadd_pairs : after (exec (.vadd 10 9 8) (user (vgang 10 1 1 1))) (fun t => t.here.stop) = some (.fault 0 .illegal 1 0) ∧
    after (exec (.vadd 10 8 8) (user (vgang 10 0x80000000 0 0))) (fun t => (t.here.vword 10 0, t.here.vword 11 0)) = some (0, 1) := by decide +kernel

/-- R151's example: 1.0, −2.5, 500.0 and +0 to e4m3 with saturation. -/
theorem test_vpack : after (exec (.vpack 2 10 0 3) (user { gang with
    mode := [(0, 0)], narrow := 0x400, v := [(640, 0x3F800000), (704, 0xC0200000), (768, 0x43FA0000)] })) (fun t => t.here.vword 2 0) =
      some 0x007EC238 := by decide +kernel

/-- R155's example: slices 0 and 1 live with EXEC all ones, V2 = i + 1, and M1 the lanes 0 to 8, or without lane 3. -/
def foldGang (m1 exec : LaneMask) : Gang :=
  { gang with
    grp := { gang.grp with slices := 3 }, exited := 0xFFFC, m := [(0, exec), (1, m1)]
    v := (List.range 8).map (fun i => (128 + i, BitVec.ofNat 32 (i + 1))) }

theorem test_vreds : after (exec (.vreds 5 2 1 0) (user (foldGang 0x1FF 0xFF))) (fun t => (t.here.sreg 0 5, t.here.sreg 1 5, t.here.lcause)) =
    some (36, 36, 0x10000) := by decide +kernel
theorem test_vreds_member : after (exec (.vreds 5 2 1 0) (user (foldGang 0x1F7 0xFF))) (fun t => (t.here.stop, t.here.sreg 0 5)) =
    some (.fault 0 .member 3 0, 0) := by decide +kernel
theorem test_vreds_exec_zero : after (exec (.vreds 5 2 1 0) (user (foldGang 0x1FF 0))) (fun t => t.here.sreg 0 5) = some 36 := by decide +kernel
theorem test_vvote_ballot : after (exec (.vvote 6 0 1 2) (user (foldGang 0x1FF 0xFF))) (fun t => (t.here.sreg 1 6, t.here.sccOf 1)) = some (0xFF, true) := by
  decide +kernel
theorem test_vscan : after (exec (.vscan 3 2 1 0) (user (foldGang 0x1FF 0xFF))) (fun t => (List.range 8).map (fun l => (t.here.vword 3 l).toNat)) =
    some [1, 3, 6, 10, 15, 21, 28, 36] := by decide +kernel

/-! ## Groups (02_execution_model.md) -/

/-- R36's example, step 1: SCC is 1 in slices 0 to 5; the branch to A parts the gang. -/
theorem test_br_parts : after (exec (.br 1 0x10) (user { lastGang with scc := 0x3F, grp := { lastGang.grp with slices := 0xFFFF } })) (fun t =>
    (t.here.grp.slices, t.here.grp.pc, t.here.parted.map (fun p => (p.slices, p.pc)))) =
      some (0x3F, 0x4000001050, [(0xFFC0, 0x4000001014)]) := by decide +kernel

/-- R36's example, step 4: the groups {0–5} and {6–8, 10–15} meet at one REGANG. -/
theorem test_regang_rejoins : after (exec (.regang 3) (user { lastGang with
    exited := 0x200, grp := { lastGang.grp with slices := 0x3F }
    parted := [{ slices := 0xFDC0, pc := 0x4000001000, run := some ⟨4, 3⟩, wait := .regang 3 }] })) (fun t =>
      (t.here.grp.slices, t.here.grp.pc, t.here.parted.length)) = some (0xFDFF, 0x4000001014, 0) := by decide +kernel

/-- R65: a header waits while a flag that it names is not at zero, and opens its run once it is. -/
theorem test_hdr_waits : after (exec (.hdr 3 2 0) (user { gang with flags := [(1, 1)], grp := { gang.grp with run := none } }))
    (fun t => (t.here.grp.wait, t.here.grp.run)) = some (.stalled, none) := by decide +kernel
theorem test_hdr_opens : after (exec (.hdr 3 2 0) (user { gang with flags := [(2, 1)], grp := { gang.grp with run := none } }))
    (fun t => (t.here.grp.wait, t.here.grp.run)) = some (.ready, some ⟨3, 0⟩) := by decide +kernel

/-! ## The matrix engine (07_matrix_engine.md) -/

/-- R168's example, its alignment: 1.0, 2^−12 and 2^−13 of an f16 group align to 4,096, 1 and 0 with scale 2^−12. -/
theorem test_align_group : alignGroup 1 [.fin false 1 1, .fin false 1 4096, .fin false 1 8192] ⟨1, 0⟩ = ([4096, 1, 0], [0, 0, 4], ⟨1, -12⟩) := by
  decide +kernel

/-- R168's example: the element becomes round_rne(0.5 + 1 + 2^−12). -/
theorem test_kstep_total :
    let a := ({} : Aligned).addGroup 1 0 0 [(0, .fin false 1 1), (1, .fin false 1 4096), (2, .fin false 1 8192)] ⟨1, 0⟩
    let b := ({} : Aligned).addGroup 1 0 0 [(0, .fin false 1 1), (1, .fin false 1 1), (2, .fin false 1 1)] ⟨1, 0⟩
    accumulate 0x3F000000 (kstepTotal a { kind := 0, src := 0, fmt := 1, gen := 0, region := 0, data := b } 0 0) = 0x3FC00800 := by decide +kernel

/-- R173's examples: {0.5, −3, NaN, 3} keeps positions 1 and 2, {0, 0, 0, 0} keeps 0 and 1. -/
theorem test_kept : keptOf 2 [.fin false 1 2, .fin true 3 1, .nan, .fin false 3 1] = [1, 2] ∧ keptOf 2 (List.replicate 4 (.fin false 0 1)) = [0, 1] := by
  decide +kernel

/-- R163's example: element (1, 3) of an f16 tile. -/
theorem test_shape_place : ({ base := 0x400, rows := 2, cols := 4, fmt := 1, space := 1, hdrrec := false, geom := 0, rstride := 32, estride := 2
                              sbase := 0, spitch := 0, row0 := 0, col0 := 0, key := 0 } : Shape).place 1 3 = (0x42C, 0) := by decide +kernel

/-- R199's example: a read at PHASE 5,200 waits 944 cycles for the window of bank 5 to end. -/
theorem test_window_close : after (exec .weightStoreWindowClose { user gang with cycle := 5200 }) (fun t => t.cycle) = some 6144 := by decide +kernel

/-! ## Memory (09_memory_hierarchy.md, 10_consistency.md, 11_memory_instructions.md, 15_isolation.md) -/

/-- R214's example. -/
theorem test_channel : channelOf 0x4000002200 = 9 := by decide +kernel

/-- The machine of R117's example and of the example at R263: window 3, the record of block (2, 4), and the byte of elements 86 and 87. -/
def windowState (index : Word) : State :=
  { user { gang with s := [(3, 0x4000002200)], v := [(320, index)] } with
    priv := [(0x840, 0x4000100000), (0x841, 1), (0xC0C, 0x4000000001), (0xC0D, 0x4000010006), (0xC0E, 0x4100000000), (0xC0F, 0x1000)]
    mem := [(0x400000222B, 0x78)] ++ tables ++ [(0x4100000223, 0x3F), (0x4100000224, 0x42), (0x4100000225, 0x01)] }

/-- R116, R117: the tag of the line of element (37, 70): block (2, 4) with its record. -/
theorem test_form_tag : (windowState 86).formTag (0x4000002200 / 64) = some ⟨0x1423F000000, 6, 0, 2, 4⟩ := by decide +kernel

/-- R263's table: 1.25 and 3.0 as LDF and LDF2 write them, and the halves of the record. -/
theorem test_formatted_values :
    let t : Tag := ⟨0x1423F000000, 6, 0, 2, 4⟩
    fmtResult 0 0 0 0 0 t.record (t.decode 86 0x78) .nan = 0x3FA00000 ∧ fmtResult 2 0 0 0 0 t.record .nan .nan = 0x3F000000 ∧
      fmtResult 3 0 0 0 0 t.record .nan .nan = 0x142 := by decide +kernel

/-- R263's table: the line comes, and LDF writes V6 of lane 0. -/
noncomputable def ldfState : Option State := (next (exec (.ldf 6 5 3 2) (windowState 86))).bind (fun t => next (exec (.homeLeaseGrant 1000 (0x4000002200 / 64)) t))
theorem test_ldf : ((ldfState.bind (fun t => next (exec (.lineFill 1000 (0x4000002200 / 64) 1 1) t))).map (fun t =>
    (t.here.vword 6 0, t.here.flag 2, t.ops.length))) = some (0x3FA00000, 0, 0) := by decide +kernel
theorem test_ldf2_odd : after (exec (.ldf2 7 5 3 2) (windowState 87)) (fun t => t.here.stop) = some (.fault 0 .misalign 1 0) := by decide +kernel

/-- The machine of R358's example: tenant 2's tables. -/
def tableState : State :=
  { user gang with
    blocks := [(1, { tenant := 2, launch := 1 })], priv := [(0x880, 0x4000100000), (0x881, 1)]
    mem := [(0x4000100008, 0x01), (0x4000100009, 0x20), (0x400010000A, 0x10), (0x400010000C, 0x40), (0x4000103000, 0x01), (0x4000103001, 0x40),
      (0x4000103002, 0x10), (0x4000103004, 0x40), (0x4000105230, 0x0F), (0x4000105233, 0x20), (0x4000105234, 0x40)] }

/-- R358's table: LD and ST reach 0x40_2004_5678, a fetch raises PERM. -/
theorem test_translation : okOf (tableState.translate tableState.here 0xC012345678 .load) = some 0x4020045678 ∧
    okOf (tableState.translate tableState.here 0xC012345678 .store) = some 0x4020045678 ∧
    (match tableState.translate tableState.here 0xC012345678 .fetch with | .error c => c == .perm | _ => false) = true := by decide +kernel

/-- R228: a store lands past every lease: wts becomes max(rts + 1, t). -/
theorem test_home_store : let t := ({ user gang with homes := [(7, { wts := 3, rts := 20 })] }).homeStore 7 5 1 0xAB false
    (t.byte 448, (t.home 7).wts, (t.home 7).rts) = (0xAB, 21, 21) := by decide +kernel

/-- R266's example: lanes 0, 2 and 5 add 1, 3 and 6 to X = 100 in lane order. -/
def atomState (op : AtomOp) (l : List LaneAcc) (x : Nat) : State :=
  { (user gang).setBytes 0x4000000000 (bytesOf 4 x) with ops := [{ id := 5, core := 0, slot := 0, kind := .atomic op false false (some 9) false, scope := 3, flag := none, lanes := l }] }
theorem test_atom_order : after (exec (.homeAtomic 5 (0x4000000000 / 64)) (atomState .add
    [⟨0, 0x4000000000, 4, 1, 0, 0, 0, 0⟩, ⟨2, 0x4000000000, 4, 3, 0, 0, 0, 0⟩, ⟨5, 0x4000000000, 4, 6, 0, 0, 0, 0⟩] 100)) (fun t =>
      (t.read 0x4000000000 4, t.ops.map (fun o => o.olds))) = some (110, [[(0, 100), (2, 101), (5, 104)]]) := by decide +kernel
/-- R266's example of rounding order: 2^24 + 1.0 + 1.0 + 2.0 ends at 16,777,218. -/
theorem test_atom_rounding : after (exec (.homeAtomic 5 (0x4000000000 / 64)) (atomState .fadd
    [⟨0, 0x4000000000, 4, 0x3F800000, 0, 2, 0, 0⟩, ⟨1, 0x4000000000, 4, 0x3F800000, 0, 2, 0, 0⟩, ⟨2, 0x4000000000, 4, 0x40000000, 0, 2, 0, 0⟩]
      0x4B800000)) (fun t => (t.read 0x4000000000 4, t.ops.map (fun o => o.olds))) =
        some (0x4B800001, [[(0, 0x4B800000), (1, 0x4B800000), (2, 0x4B800000)]]) := by decide +kernel

/-! ## Scheduling and the host (13_scheduling.md, 16_host_fabric.md) -/

/-- The launch of R315's example: DIMS (8, 4, 1, 1), GRAIN (1, 1, 0, 0), TILE (4, 2, 1, 1), P0 = 0, P1 = 1, with its map at 0x40_0000_0000. -/
def mapLaunch (tile : Word64) : Launch :=
  { tenant := 1, stage := .running, lid := 7, eph := [(0, 0x0001000100040008), (1, 0x11), (2, tile), (3, 0xE4), (6, 0x4000000000)] }

/-- The machine of that example, with the map's two bytes. -/
def mapState (tile : Word64) (b0 b1 : Byte) : State :=
  let s := user gang
  { (s.setByte 0x4000000000 b0).setByte 0x4000000001 b1 with launches := [(1, mapLaunch tile)] }

/-- What WALK S20 answers: the three registers, SCC and map byte 0 and 1. -/
def walked (s : State) : Option (List Nat × Bool × Byte × Byte) :=
  after (exec (.walk 20) s) (fun t => ([20, 21, 22].map (fun r => (t.here.sreg 0 r).toNat), t.here.sccOf 0, t.byte 0x4000000000, t.byte 0x4000000001))

/-- Step 1: origin (0, 0), extents (4, 2), ticket 1, map byte 0x05. -/
theorem test_walk_tile : walked (mapState 0x0001000100020004 0 0) = some ([0, 0x0001000100020004, 1], true, 0x05, 0) := by decide +kernel
/-- Step 5, with GEN 0 and ticket 1: the first FREE run along dimension 0 is cells 4 to 7. -/
theorem test_walk_run : walked (mapState 0x0001000100040008 0x5A 0) = some ([0x20000, 0x0001000100020008, 1], true, 0x5A, 0x55) := by decide +kernel

/-- R319's example: b wins by its counter of 255, and a's counter becomes 13; then a wins over c of the same class. -/
theorem test_arbitration : after (exec (.networkArbitration 72) { user gang with packets := [⟨9, 3, [0], 3, 12⟩, ⟨9, 4, [0], 0, 255⟩] }) (fun t => t.packets) =
    some [⟨9, 3, [0], 3, 13⟩] := by decide +kernel
theorem test_arbitration_age : after (exec (.networkArbitration 72) { user gang with packets := [⟨9, 3, [0], 3, 13⟩, ⟨9, 1, [0], 3, 12⟩] }) (fun t => t.packets) =
    some [⟨9, 1, [0], 3, 13⟩] := by decide +kernel
/-- A packet of a row ring goes on at the next stop of its row, the first after the last, with its counter (R18, R319). -/
theorem test_packet_goes_on : after (exec (.networkArbitration 57) { user gang with packets := [⟨7, 1, [1, 3, 0], 3, 5⟩] }) (fun t => t.packets) =
    some [⟨0, 1, [3, 0], 3, 5⟩] := by
  have h : Config.ringBuffers = Config.spareBuffers + 2 := rfl
  simp [after, next, exec, Sys2Proof.Machine.execNetworkArbitration, State.mayAdvance, State.freeBuffers, Packet.port, Packet.beats,
    Packet.onward, nextStop, user, h]

/-- R381's example: the host read of a page of device bias starts an automatic flip and is held. -/
theorem test_host_read_flips : after (exec (.hostRead 0x100000000 false) { user gang with deviceBias := [0x4000000] }) (fun t => (t.flip.map Flip.page, t.seen)) =
    some (some 0x4000000, []) := by decide +kernel

/-! ## Faults (15_isolation.md) -/

/-- R362: a TRAP stops the gang, and its record, with KIND 3 and its code, is pending in the mailbox. -/
theorem test_trap : after (exec (.trap 8) (user { lastGang with s := [(8, 0x77)] })) (fun t =>
    (t.here.stop, t.isPending 0 0, t.sread (.supervisor 0) 0x28 2, t.sread (.supervisor 0) 0 1)) =
      some (.fault 3 .trap 1 0, true, 0x77, Cause.trap.code) := by decide +kernel
/-- R372: HALTG of a slot that holds no gang clears SCC. -/
theorem test_haltg_empty : after (exec (.haltg 8) (sup { supGang with scc := 1, s := [(8, 5)] })) (fun t => t.here.sccOf 0) = some false := by decide +kernel
/-- R353: a user gang may not halt. -/
theorem test_haltg_priv : after (exec (.haltg 8) (user gang)) (fun t => t.here.stop) = some (.fault 0 .priv 1 0) := by decide +kernel
/-- R80: the word of all ones raises ILLEGAL. -/
theorem test_illegal : after (exec .illegal (user gang)) (fun t => t.here.stop) = some (.fault 0 .illegal 1 0) := by decide +kernel

/-! ## Steps -/

/-- The step that follows reset runs the word placed for it: SLI S8, #0x7C15, #0. -/
theorem test_step_sli : after (step (State.reset.withFetchWord 32 0x2C807C15)) (fun t => (t.here.sreg 0 8, t.here.sreg 15 8)) = some (0x7C15, 0x7C15) := by
  decide +kernel
/-- R63: a header of length 0 raises RUNFORM. -/
theorem test_step_runform : after (step (State.reset.withFetchWord 32 0)) (fun t => t.here.stop) = some (.fault 0 .runform 0xFFFF 0) := by
  decide +kernel
/-! ## Witnesses: concrete states and operands that meet the hypotheses of the statements, clause by clause -/

theorem ok_of {ε α : Type} {r : Except ε α} {a : α} (h : okOf r = some a) : r = .ok a := by
  cases r with
  | ok b => cases h; rfl
  | error e => cases h

/-- VectorReady in a form that evaluates. -/
def vectorReadyBool (g : Gang) (types : List Nat) (reads writes : List (BitVec 8)) : Bool :=
  let wide := decide (∃ sl ∈ g.members, modeEtype (g.modeOf sl) ∈ [9, 10, 11])
  let names := fun (c : Nat) => if wide then [c, c + 1] else [c]
  g.members.all (fun sl => types.contains (modeEtype (g.modeOf sl))) &&
    (!wide || (reads ++ writes).all (fun c => c.toNat % 2 == 0)) &&
    reads.all (fun c => (names c.toNat).all (fun k => decide (k < 248) || g.grp.tw.getLsbD (k - 248))) &&
    (reads ++ writes).all (fun c => (names c.toNat).all (fun k => decide (248 ≤ k) || decide (k < 8 * g.granules)))

theorem vectorReady_of {g : Gang} {types : List Nat} {reads writes : List (BitVec 8)} (h : vectorReadyBool g types reads writes = true) :
    VectorReady g types reads writes := by
  simp only [vectorReadyBool, Bool.and_eq_true, List.all_eq_true, List.contains_iff_mem, Bool.or_eq_true, Bool.not_eq_true', decide_eq_false_iff_not,
    decide_eq_true_eq, beq_iff_eq] at h
  obtain ⟨⟨⟨h1, h2⟩, h3⟩, h4⟩ := h
  have names : ∀ c k, Names g c k → k ∈ (if ∃ sl ∈ g.members, modeEtype (g.modeOf sl) ∈ [9, 10, 11] then [c, c + 1] else [c]) := by
    rintro c k (rfl | ⟨rfl, w⟩)
    · split <;> simp
    · have w' : ∃ sl ∈ g.members, modeEtype (g.modeOf sl) ∈ [9, 10, 11] := w
      rw [if_pos w']; simp
  refine ⟨h1, fun w => h2.resolve_left (fun n => n w), fun c hc k hk h248 => ?_, fun c hc k hk hlt => ?_⟩
  · exact (h3 c hc k (names _ _ hk)).resolve_left (by omega)
  · exact (h4 c hc k (names _ _ hk)).resolve_left (by omega)

/-- RegistersReady in a form that evaluates. -/
theorem registersReady_of {g : Gang} {reads writes : List Nat}
    (h : (∀ k ∈ reads, 248 ≤ k → g.grp.tw.getLsbD (k - 248) = true) ∧ ∀ k ∈ reads ++ writes, k < 248 → k < 8 * g.granules) :
    RegistersReady g reads writes := h

/-- A gang whose slice has MODE `m`, with T0 written. -/
def modeGang (m : Word) : Gang := { gang with mode := [(0, m)], grp := { gang.grp with tw := 1 } }

theorem test_witness_scalarAluForms : let w : Word := 0x2000011C
    w.toNat / 2 ^ 26 = 8 ∧ 28 ≤ w.toNat % 2 ^ 8 ∧ w.toNat % 2 ^ 8 ≤ 34 ∧ w.toNat / 2 ^ 8 % 2 ^ 6 ≠ 0 := by decide +kernel

theorem test_witness_scalarImmediateAndModeForms :
    (let i : BitVec 18 := 0x440D
     (i.extractLsb' 0 4).toNat ≤ 13 ∧ (i.extractLsb' 8 3).toNat ≤ 4 ∧ (i.extractLsb' 12 3).toNat ≤ 4) ∧
    ((14 : BitVec 18).extractLsb' 0 4).toNat = 14 ∧ ((0x500 : BitVec 18).extractLsb' 8 3).toNat = 5 ∧
    ((0x5000 : BitVec 18).extractLsb' 12 3).toNat = 5 := by decide +kernel

/-- Every element type, with a T register read and V31, the last of four granules, written; pairs under f64. -/
theorem test_witness_vectorTwoOperandForms : VectorReady (modeGang 13) anyTypes [248, 9] [31] ∧ VectorReady (modeGang 0) anyTypes [248, 9] [31] ∧
    VectorReady (modeGang 11) intTypes [8, 10] [30] ∧ VectorReady (modeGang 9) anyTypes [8, 10] [254] :=
  ⟨vectorReady_of (by decide +kernel), vectorReady_of (by decide +kernel), vectorReady_of (by decide +kernel), vectorReady_of (by decide +kernel)⟩
theorem test_witness_vectorFusedAndImmediateForms : VectorReady (modeGang 2) anyTypes [8, 9, 31] [31] ∧ VectorReady (modeGang 10) anyTypes [8, 10, 30] [30] ∧
    VectorReady (modeGang 7) intTypes [248] [31] ∧ VectorReady (modeGang 12) anyTypes [8] [9] :=
  ⟨vectorReady_of (by decide +kernel), vectorReady_of (by decide +kernel), vectorReady_of (by decide +kernel), vectorReady_of (by decide +kernel)⟩
theorem test_witness_vectorUnaryAndWordForms : VectorReady (modeGang 10) anyTypes [8, 10] [30] ∧ VectorReady (modeGang 5) anyTypes [248] [255] ∧
    VectorReady (modeGang 6) intTypes [8] [31] ∧ VectorReady (modeGang 13) floatTypes [8] [31] ∧ VectorReady (modeGang 9) floatTypes [8] [30] :=
  ⟨vectorReady_of (by decide +kernel), vectorReady_of (by decide +kernel), vectorReady_of (by decide +kernel), vectorReady_of (by decide +kernel),
    vectorReady_of (by decide +kernel)⟩
/-- VRCP of +∞ is +0 (R144). -/
theorem test_witness_specialFunctionForms : VectorReady (modeGang 2) [2, 3, 4] [8] [31] ∧ VectorReady (modeGang 4) [2, 3, 4] [248] [31] ∧
    specialExact 0 (Fmt.f32.decode (0x7F800000 : Word).toNat) = some (.fin false 0 1) :=
  ⟨vectorReady_of (by decide +kernel), vectorReady_of (by decide +kernel), by decide +kernel⟩
theorem test_witness_vectorCarryLaneAndMaskForms : VectorReady (modeGang 1) [0, 1] [8, 9] [31] ∧
    (VectorReady (modeGang 0) [0, 1] [8, 9] [] ∧ RegistersReady (modeGang 0) [] [30, 31] ∧ (30 : BitVec 8).toNat % 2 = 0) ∧
    VectorReady (modeGang 12) [7, 8, 12, 13] [8, 9, 31] [31] ∧ VectorReady (modeGang 9) anyTypes [] [30] ∧
    VectorReady (modeGang 13) narrowTypeList [8, 9] [31] ∧ VectorReady (modeGang 3) narrowTypeList [8, 9, 31] [31] ∧
    ((7 : BitVec 4).toNat < 8 ∧ VectorReady (modeGang 4) floatTypes [8, 9] []) ∧ ((5 : BitVec 4).toNat < 6 ∧ VectorReady (modeGang 11) anyTypes [8, 30] []) ∧
    ((5 : BitVec 4).toNat < 6 ∧ VectorReady (modeGang 8) intTypes [8, 9] [] ∧ VectorReady (modeGang 8) intTypes [8] []) ∧
    VectorReady (modeGang 2) floatTypes [8] [] ∧ VectorReady (modeGang 2) anyTypes [248, 9] [] := by
  refine ⟨?_, ⟨?_, ?_, ?_⟩, ?_, ?_, ?_, ?_, ⟨?_, ?_⟩, ⟨?_, ?_⟩, ⟨?_, ?_, ?_⟩, ?_, ?_⟩ <;>
    first | exact vectorReady_of (by decide +kernel) | exact registersReady_of (by decide +kernel) | decide +kernel

/-- The three faults in turn, with every slice's element type defined: VMULH under f32, an odd pair under i64; T1 unwritten; V32 of four granules. -/
theorem test_witness_activeLanesAndFaultOrder :
    (∀ e ∈ [2, 10, 0], ∀ sl ∈ (modeGang (BitVec.ofNat 32 e)).members, modeEtype ((modeGang (BitVec.ofNat 32 e)).modeOf sl) ∈ anyTypes) ∧
    ((∃ sl ∈ (modeGang 2).members, modeEtype ((modeGang 2).modeOf sl) ∉ intTypes) ∧ Wide (modeGang 10) ∧ (9 : BitVec 8).toNat % 2 = 1) ∧
    (∃ c ∈ [(249 : BitVec 8), 8], ∃ k, Names (modeGang 0) c.toNat k ∧ 248 ≤ k ∧ (modeGang 0).grp.tw.getLsbD (k - 248) = false) ∧
    (∃ c ∈ [(8 : BitVec 8), 9] ++ [32], ∃ k, Names (modeGang 0) c.toNat k ∧ k < 248 ∧ 8 * (modeGang 0).granules ≤ k) := by
  refine ⟨by decide +kernel, ⟨by decide +kernel, by unfold Wide; decide +kernel, by decide +kernel⟩, ?_, ?_⟩
  · exact ⟨249, by simp, 249, .inl rfl, by decide, by decide +kernel⟩
  · exact ⟨32, by simp, 32, .inl rfl, by decide, by decide +kernel⟩

/-- Convertible in a form that evaluates. -/
theorem convertible_of {g : Gang} {c d : Nat} (h : g.members.all (fun sl =>
    if modeEtype (g.modeOf sl) ∈ [9, 10, 11] then
      decide (c ∈ [0, 8, 9] ∧ d ≤ 2 ∧ ¬ (d = 2 ∧ (modeEtype (g.modeOf sl), c) ∈ [(9, 0), (10, 8), (11, 9)]))
    else decide (c ≠ d)) = true) : ∀ sl ∈ g.members, Convertible (modeEtype (g.modeOf sl)) c d := by
  intro sl hs
  have h' := List.all_eq_true.1 h sl hs
  unfold Convertible
  split at h' <;> rename_i hw
  · rw [if_pos hw]; exact of_decide_eq_true h'
  · rw [if_neg hw]; exact of_decide_eq_true h'

/-- f32 to e4m3, f32 to f64, f64 to i64, sq4 to f32 under a legal record; VPACK of four registers and VUNPKL of two. -/
theorem test_witness_conversionForms :
    ((∀ sl ∈ (modeGang 2).members, Convertible (modeEtype ((modeGang 2).modeOf sl)) 0 3) ∧ ¬ Wide (modeGang 2) ∧
      RegistersReady (modeGang 2) [8] [31] ∧ RecordsLegal (modeGang 2) 0 3) ∧
    ((∀ sl ∈ (modeGang 9).members, Convertible (modeEtype ((modeGang 9).modeOf sl)) 8 0) ∧ RegistersReady (modeGang 9) [8] [30, 31] ∧
      (∀ sl ∈ (modeGang 10).members, Convertible (modeEtype ((modeGang 10).modeOf sl)) 9 2) ∧ RegistersReady (modeGang 10) [8, 9] [30, 31]) ∧
    RecordsLegal { modeGang 2 with s := [(62, 0x3F800000)] } 6 0 ∧
    (codeWidth 3 < codeWidth 0 ∧ rangeOk 10 (codeWidth 0 / codeWidth 3) = true ∧
      RegistersReady (modeGang 0) ((List.range (codeWidth 0 / codeWidth 3)).map (10 + ·)) [2] ∧ RecordsLegal (modeGang 0) 0 3) ∧
    (codeWidth 3 < codeWidth 0 ∧ rangeOk 30 (codeWidth 0 / codeWidth 3 / 2) = true ∧
      RegistersReady (modeGang 0) [8] ((List.range (codeWidth 0 / codeWidth 3 / 2)).map (30 + ·)) ∧ RecordsLegal (modeGang 0) 3 0) := by
  unfold RecordsLegal RegistersReady Wide
  exact ⟨⟨convertible_of (by decide +kernel), by decide +kernel⟩,
    ⟨convertible_of (by decide +kernel), by decide +kernel, convertible_of (by decide +kernel), by decide +kernel⟩, by decide +kernel⟩

/-- Lanes 0 to 7 active, members 0 to 8 of which slice 2 has exited; uniform MODE. -/
theorem test_witness_crossLaneForms : CrossReady (foldGang 0x1FF 0xFF) 1 true ∧ CrossReady (foldGang 0x1FF 0xFF) 1 false ∧ VectorReady (foldGang 0x1FF 0xFF) anyTypes [2] [3] ∧
    VectorReady (foldGang 0x1FF 0xFF) anyTypes [2, 3] [3] ∧ VectorReady (foldGang 0x1FF 0xFF) anyTypes [2] [] ∧
    (6 : BitVec 4).toNat ≤ 6 ∧ (5 : BitVec 4).toNat ≤ 5 ∧ (3 : BitVec 4).toNat ≤ 3 ∧ (1 : BitVec 4).toNat ≤ 1 :=
  ⟨by unfold CrossReady lanesOf; decide +kernel, by unfold CrossReady lanesOf; decide +kernel, vectorReady_of (by decide +kernel), vectorReady_of (by decide +kernel), vectorReady_of (by decide +kernel),
    by decide, by decide, by decide, by decide⟩

/-! Memory words -/

theorem reaches_of {s u : State} {g : Gang} {kind : AccessKind} {l : List LaneReq} {phys : Nat → Nat} (h : (!l.isEmpty && l.all (fun r =>
    !s.walkWaits g r.va && r.va % r.size == 0 && okOf (u.translate g r.va kind) == some (phys r.lane) &&
      !u.lockHit g false (decide (kind ≠ .load)) r.va r.size)) = true) : Reaches s u g kind l phys := by
  simp only [Bool.and_eq_true, Bool.not_eq_true', List.isEmpty_eq_false_iff, List.all_eq_true, beq_iff_eq] at h
  exact ⟨h.1, fun r hr => (h.2 r hr).1.1.1, fun r hr => ⟨(h.2 r hr).1.1.2, ok_of (h.2 r hr).1.2, (h.2 r hr).2⟩⟩

/-- A gang of MODE `m` whose lane 0 addresses 0x40_0000_0000 + x through S4 and V2, at F1. -/
def memGang (m : Word) (x : Word) : Gang := { modeGang m with s := [(4, 0x4000000000)], v := [(128, x), (512, 5)] }

/-- The accesses of a form at that gang. -/
def reqs (g : Gang) (size : Word → Nat) : List LaneReq := requests g 2 4 size (fun _ => 0) (fun _ => 0)

/-- A machine whose core 0 has 64 lines missing, all those of one load of another gang. -/
def missing (g : Gang) : State :=
  { user g with ops := [{ id := 5, core := 0, slot := 5, kind := .load .relaxed .zext 8, scope := 3, flag := none
                          lanes := (List.range 64).map (fun i => { lane := i, addr := 0x4000010000 + 64 * i, size := 4 }) }] }

/-- A machine in which the gang's page is in no TLB and the host owns the line of its root table. -/
def heldWalk : State := { user (memGang 0 0x20000000) with homes := [(0x4000100000 / 64, { wts := 0, rts := 0, host := .owned })] }

/-- LD under i32 and i64 with each flag code, LDB, LDH and LDD; and a gang without active lanes. -/
theorem test_witness_globalLoadForms :
    (PairReady (memGang 0 8) true 1 8 2 ∧ PairReady (memGang 10 8) true 15 8 248 ∧
      Reaches (user (memGang 0 8)) ((user (memGang 0 8)).fillAll (memGang 0 8) (reqs (memGang 0 8) elementSize)) (memGang 0 8) .load (reqs (memGang 0 8) elementSize)
        (fun _ => 0x4000000008)) ∧
    (NarrowReady (memGang 0 9) true 11 31 2 ∧
      Reaches (user (memGang 0 9)) ((user (memGang 0 9)).fillAll (memGang 0 9) (reqs (memGang 0 9) (fun _ => 1))) (memGang 0 9) .load (reqs (memGang 0 9) (fun _ => 1))
        (fun _ => 0x4000000009)) ∧
    (DoubleReady (memGang 0 8) true 0 30 2 ∧
      Reaches (user (memGang 0 8)) ((user (memGang 0 8)).fillAll (memGang 0 8) (reqs (memGang 0 8) (fun _ => 8))) (memGang 0 8) .load (reqs (memGang 0 8) (fun _ => 8))
        (fun _ => 0x4000000008)) ∧
    { memGang 0 8 with m := [] }.active = [] ∧
    (let l := (reqs (memGang 0 8) elementSize).map (accessAt (fun _ => 0x4000000008))
     (user (memGang 0 8)).missTableFull (memGang 0 8) .load .relaxed 0 l = false ∧ (missing (memGang 0 8)).missTableFull (memGang 0 8) .load .relaxed 0 l = true) ∧
    (reqs heldWalk.here elementSize).any (fun r => heldWalk.walkWaits heldWalk.here r.va) = true := by
  unfold PairReady NarrowReady DoubleReady FlagReady RegistersReady Wide
  exact ⟨⟨by decide +kernel, by decide +kernel, reaches_of (by decide +kernel)⟩, ⟨by decide +kernel, reaches_of (by decide +kernel)⟩,
    ⟨by decide +kernel, reaches_of (by decide +kernel)⟩, by decide +kernel, ⟨by decide +kernel, by decide +kernel⟩, by decide +kernel⟩

/-- ST of T0 and of V8, STB, STD; the conditions under which a store is performed at once; ATOM.ADD, ATOM.CAS, RED.FADD. -/
theorem test_witness_globalStoreAndAtomicForms :
    (PairReady (memGang 0 8) false 1 248 2 ∧ NarrowReady (memGang 0 9) false 15 8 2 ∧ DoubleReady (memGang 0 8) false 0 30 2) ∧
    (Reaches (user (memGang 0 8)) ((user (memGang 0 8)).fillAll (memGang 0 8) (requests (memGang 0 8) 2 4 elementSize (stored (memGang 0 8) 8 elementSize) (fun _ => 0)))
        (memGang 0 8) .store (requests (memGang 0 8) 2 4 elementSize (stored (memGang 0 8) 8 elementSize) (fun _ => 0)) (fun _ => 0x4000000008) ∧
      (memGang 0 8).ended = false ∧ (∀ p ∈ (user (memGang 0 8)).ops, p.gang ≠ (memGang 0 8).key) ∧ (∀ p ∈ (memGang 0 8).grp :: (memGang 0 8).parted, p.fence = false) ∧ regionOf 0x4000000008 ≠ .peer ∧
      (let l := (reqs (memGang 0 8) elementSize).map (accessAt (fun _ => 0x4000000008))
       (user (memGang 0 8)).missTableFull (memGang 0 8) .store .relaxed 0 l = false ∧
         (missing (memGang 0 8)).missTableFull (memGang 0 8) .store .relaxed 0 l = true)) ∧
    (AtomicReady (memGang 0 8) [0, 1, 10, 11] false true 8 2 1 ∧ AtomicReady (memGang 11 8) anyTypes true true 28 2 15 ∧
      AtomicReady (memGang 2 8) [2, 9] false false 248 2 1 ∧ AtomicReady (memGang 0 8) [0, 1, 10, 11] false false 8 2 1 ∧
      AtomicReady (memGang 9 8) [2, 9] false true 8 2 1 ∧ AtomicReady (memGang 13 8) anyTypes false false 8 2 1) ∧
    Reaches (user (memGang 0 8)) ((user (memGang 0 8)).fillAll (memGang 0 8) (reqs (memGang 0 8) elementSize)) (memGang 0 8) .atomic (reqs (memGang 0 8) elementSize)
        (fun _ => 0x4000000008) ∧
    ((memGang 0 8).members.any (fun sl => decide (modeAord ((memGang 0 8).modeOf sl) = 2 ∨ modeAord ((memGang 0 8).modeOf sl) = 3)) = false) := by
  unfold PairReady NarrowReady DoubleReady AtomicReady FlagReady RegistersReady Wide
  dsimp only
  refine ⟨?_, ⟨reaches_of (by decide +kernel), ?_⟩, ?_, reaches_of (by decide +kernel), ?_⟩ <;> and_intros <;> decide +kernel

/-- The machine with a page that allows no store, one that is not mapped, and a locked range. -/
def faultState (x : Word) : State :=
  { user (memGang 0 x) with cores := [(0, { core1 with
      tlb := [page 0x4000000000 0x4000000000, (tlbKey 1 0x4000080000, ⟨0x4000080000, 19, true, false, false⟩)]
      locks := [⟨3, 2, false, 1, 0x4000000100, 0x4000000140⟩] })] }

/-- A machine in which the gang's page is in no TLB and the line of its root table is poisoned. -/
def poisonWalk : State := { user (memGang 0 0x20000000) with homes := [(0x4000100000 / 64, { wts := 0, rts := 0, poison := true })] }

/-- The addresses at which LD's or ST's accesses meet a cause. -/
def failsAt (x : Word) (kind : AccessKind) (c : Cause) : List Nat :=
  let s := faultState x
  let l := reqs s.here elementSize
  (l.filter (fun r => match (s.fillAll s.here l).translate s.here r.va kind with
    | .error e => e == c
    | .ok _ => false)).map LaneReq.va

/-- MISALIGN at an odd address, XLATE beyond the mapped 512 MiB, PERM of a store to a read-only page, RANGELOCK of a store to a source. -/
theorem test_witness_globalFaultOrder :
    (PairReady (memGang 0 9) true 1 8 2 ∧ PairReady (memGang 0 9) false 1 8 2 ∧ AtomicReady (memGang 0 9) [0, 1, 10, 11] false true 8 2 1) ∧
    ((reqs (memGang 0 9) elementSize).filter (fun r => decide (r.va % r.size ≠ 0))).map LaneReq.va = [0x4000000009] ∧
    (failsAt 0x20000000 .load .xlate = [0x4020000000] ∧ ((reqs (memGang 0 0x20000000) elementSize).filter (fun r => decide (r.va % r.size ≠ 0))) = []) ∧
    (failsAt 0x80000 .store .perm = [0x4000080000] ∧ failsAt 0x80000 .store .xlate = []) ∧
    (((reqs (memGang 0 0x100) elementSize).filter (fun r => (faultState 0x100).lockHit (memGang 0 0x100) false true r.va r.size)).map LaneReq.va =
      [0x4000000100] ∧ failsAt 0x100 .store .perm = [] ∧ failsAt 0x100 .store .xlate = []) ∧
    ((reqs poisonWalk.here elementSize).all (fun r => !poisonWalk.walkWaits poisonWalk.here r.va && match poisonWalk.translate poisonWalk.here r.va .load with
      | .error e => e == .uncorr
      | .ok _ => false) = true) := by
  unfold PairReady AtomicReady FlagReady RegistersReady Wide
  dsimp only
  and_intros <;> decide +kernel

/-- The gang of a formatted load from its own scratchpad: base 64, element 2, behind a header of format sq4. -/
def fmtGang : Gang := { modeGang 0 with s := [(3, 0x8000000000000040)], v := [(320, 2)] }
/-- Its machine. -/
def fmtState : State :=
  { user fmtGang with blocks := [(1, { tenant := 1, launch := 1, scratchSize := 4096, live := 1, scratch := [(2, 0x80), (3, 0x3F), (8, 0x46)] })] }

/-- LDS within the carve-out of 4,096 bytes and beyond it; LDP to the own rank; LDF from the scratchpad and from a format window. -/
theorem test_witness_scratchpadAndFormattedForms :
    (let g : Gang := { memGang 0 8 with s := [(4, 0xFF4)] }
     PairReady g true 1 8 2 ∧ PairReady g false 1 8 2 ∧
      (reqs g elementSize).map (fun r => decide (2 ^ 20 ≤ r.va ∨ (user g).carveSize g.carve < r.va + r.size)) = [false] ∧
      ∀ r ∈ reqs g elementSize, r.va % r.size = 0 ∧ (user g).lockHit g true true r.va r.size = false) ∧
    (let g : Gang := { memGang 0 8 with s := [(4, 0xFF8)] }
     (reqs g elementSize).map (fun r => decide (2 ^ 20 ≤ r.va ∨ (user g).carveSize g.carve < r.va + r.size)) = [true]) ∧
    (NarrowReady fmtGang true 2 31 5 ∧ fmtGang.active ≠ [] ∧ fmtState.scratchOps fmtGang.key = [] ∧ fmtState.wordHeld = false ∧
      (let tag : Tag := ⟨0x3F800000, 6, 0, 0, 0⟩
       ∀ l ∈ fmtGang.active, 2 ^ 63 ≤ fmtBase fmtGang 3 l ∧ fmtBase fmtGang 3 l % 2 ^ 63 < 2 ^ 20 ∧ 64 ≤ fmtBase fmtGang 3 l % 2 ^ 20 ∧
        fmtBase fmtGang 3 l % 2 ^ 20 ≤ fmtState.carveSize fmtGang.carve ∧ fmtState.headerTag fmtGang.carve 0 = some tag ∧
        recordOk tag.record = true ∧ fmtIndex fmtGang 5 l % 2 = 0 ∧ fmtState.lockHit fmtGang true false 65 1 = false ∧
        fmtState.scratchPoisoned fmtGang.carve (65 / 4) = false ∧ ∀ k < 6, fmtState.scratchPoisoned fmtGang.carve k = false)) ∧
    (let s := windowState 86
     let l := fmtRequests s s.here 1 5 3
     let u := s.fillAll s.here l
     let accs := l.map (fun r => ({ lane := r.lane, addr := 0x400000222B, size := 1, mode := r.mode, elem := r.elem } : LaneAcc))
     let tag : Tag := ⟨0x1423F000000, 6, 0, 2, 4⟩
     (NarrowReady s.here true 2 31 5 ∧ s.here.active = [0] ∧ fmtBase s.here 3 0 < 2 ^ 63 ∧ fmtIndex s.here 5 0 % 2 = 0 ∧
      (∀ p ∈ s.ops, p.gang ≠ s.here.key) ∧ (∀ p ∈ s.here.parted, p.fence = false) ∧ u.missTableFull s.here .load .relaxed 0 accs = false) ∧
     l.all (fun r => decide (((s.elementTag s.here (fmtBase s.here 3 r.lane) r.elem).map Tag.bits).getD 8 = tag.bits) && !s.walkWaits s.here r.va &&
       okOf (u.translate s.here r.va .load) == some 0x400000222B && !u.lockHit s.here false false r.va 1) = true ∧
     (accs.map (fun a => a.addr / 64)).eraseDups.all (fun n => u.hostOwns n == false && match (u.observeLines s.here s.here.atsNow [n]).1.find n with
       | some d => !d.poison && d.tag == some tag && recordOk tag.record
       | none => false) = true) := by
  unfold PairReady NarrowReady FlagReady RegistersReady Wide
  exact ⟨by decide +kernel, by decide +kernel, by decide +kernel, by decide +kernel, by decide +kernel, by decide +kernel⟩

/-- SLD, SST and SATOM at 0x40_0000_0010 with nothing else in progress. -/
theorem test_witness_scalarMemoryIssue :
    (memGang 0 0).members.all (fun sl => ((memGang 0 0).sreg sl 4 + (16 : BitVec 12).signExtend 64).toNat % 8 == 0 &&
      [AccessKind.load, .store, .atomic].all (fun k =>
        okOf ((user (memGang 0 0)).translate (memGang 0 0) ((memGang 0 0).sreg sl 4 + (16 : BitVec 12).signExtend 64).toNat k) == some 0x4000000010)) = true ∧
    (∀ p ∈ (user (memGang 0 0)).ops, p.gang ≠ (memGang 0 0).key) ∧
    (let l : List LaneAcc := [{ lane := 0, addr := 0x4000000010, size := 8, mode := 10 }]
     (user (memGang 0 0)).missTableFull (memGang 0 0) .load .acquire 0 l = false ∧ (missing (memGang 0 0)).missTableFull (memGang 0 0) .store .weak 0 l = true) := by
  decide +kernel

/-- A load in progress of the gang on the pipe. -/
def loadOp : MemOp :=
  { id := 5, core := 0, slot := 0, kind := .load .relaxed .zext 8, scope := 3, flag := some 1
    lanes := [{ lane := 0, addr := 0x4000000008, size := 2 }] }

/-- A gang without accesses stands at the point of every scope; one with a load in progress waits; a hint finds its line. -/
theorem test_witness_fenceAndHintForms : (Quiet (user gang) 4 ∧ Quiet (user gang) 2 ∧ gang.grp.marker = none ∧ (∀ k ∈ ((user gang).core 0).cmds, False)) ∧
    ((∀ o ∈ ((user gang).core 0).mq, False) ∧ (∀ e ∈ ((user gang).core 0).fifo, False) ∧ ∀ o ∈ (user gang).ops, o.gang ≠ gang.key) ∧
    (let s := { user gang with ops := [loadOp] }
     (∃ o ∈ s.pendingReads gang.key, o.id < gang.grp.since.getD s.nextId) ∧ gang.grp.marker = none) ∧
    (let c : Core := { core1 with fifo := [{ id := 3, line := 0x100000000, gangs := [], mask := 15, data := 7, pts := 2 },
        { id := 4, line := 0x100000200, gangs := [], mask := 15, data := 7, pts := 2 }] }
     let s := { user (memGang 0 0) with cores := [(0, c)] }
     let hit := fun len => c.fifo.filter (fun e => (s.rangeLines s.here 0x4000000000 len).any (fun r => decide (r.1 ≤ e.line ∧ e.line ≤ r.2)))
     (hit 0 = [] ∧ (hit 64).getLast?.map FifoItem.id = some 3 ∧ (hit 0x8040).getLast?.map FifoItem.id = some 4)) ∧
    (user (memGang 0 0)).hintLine 4 0 = some 0x100000000 ∧ (user (memGang 0 0)).hostOwns 0x100000000 = false := by
  unfold Quiet
  dsimp only
  and_intros <;> decide +kernel

/-! The path of memory operations -/

/-- An entry of the FIFO of core 0 that the gang on the pipe wrote, at a stage of its way. -/
def entry (reach : Nat) : FifoItem := { id := 9, line := 0x100000000, mask := 0xF, data := 0xABCD, pts := 3, gangs := [0], reach := reach, wts := 4 }
/-- The machine with that entry. -/
def storing (e : FifoItem) : State := { user gang with cores := [(0, { core1 with fifo := [e] })] }
/-- A release store whose line waits to be sent. -/
def releaseOp : MemOp := { loadOp with kind := .store true false, performed := true, marker := some 9 }
/-- Its entry. -/
def directEntry : FifoItem := { entry 0 with direct := true, ops := [5] }

/-- An entry in the core, past the cluster cache, and timestamped at its home; a release store with nothing ahead of it. -/
theorem test_witness_storesReachHome :
    (((storing (entry 0)).core 0).fifo.find? (fun e => e.reach == 0 && !e.direct) = some (entry 0) ∧
      (∀ x ∈ ((storing (entry 0)).core 0).fifo, x.direct = true → x.reach = 0 → x.line = (entry 0).line → (entry 0).id ≤ x.id)) ∧
    (let s := { storing (entry 0) with cores := [(0, { core1 with fifo := [{ directEntry with id := 8 }, entry 0] })] }
     (s.core 0).fifo.find? (fun e => e.reach == 0 && !e.direct) = some (entry 0) ∧
      ∃ x ∈ (s.core 0).fifo, x.direct = true ∧ x.reach = 0 ∧ x.line = (entry 0).line ∧ x.id < (entry 0).id) ∧
    ((storing (entry 1)).item 0 9 = some (entry 1) ∧ ((storing (entry 1)).home (entry 1).line).host ≠ .owned ∧
      (storing (entry 1)).behindOther 0 (entry 1) = false) ∧
    ((storing (entry 2)).item 0 9 = some (entry 2) ∧ (entry 2).reach ≠ 1 ∧ ((storing (entry 2)).home (entry 2).line).host = .invalid ∧
      InSlot (storing (entry 2)).here ∧ (entry 2).gangs = [(storing (entry 2)).here.key] ∧ (entry 2).readers = [] ∧ (entry 2).writers = [] ∧
      (entry 2).engines = [] ∧ (entry 2).ops = [] ∧ (entry 2).launches = [] ∧ (entry 2).stale = false) ∧
    (let s := { storing directEntry with ops := [releaseOp] }
     s.opAt 5 = some releaseOp ∧ releaseOp.marker = some 9 ∧ s.aheadDone releaseOp.gang releaseOp.scope 9 = true ∧ MineHere s releaseOp) := by
  unfold InSlot MineHere
  dsimp only
  and_intros <;> decide +kernel

/-- The machine in which the load of the gang on the pipe is in progress. -/
def loading : State := { user gang with ops := [loadOp], homes := [(0x100000000, { wts := 1, rts := 2 })] }

/-- A load that no copy serves, while a rebase runs and while none does; a line at its home, and one that is not. -/
theorem test_witness_homeGrantsAndEvicts :
    (loading.opAt 5 = some loadOp ∧ loadOp.kind = .load .relaxed .zext 8 ∧ 0x100000000 ∈ loadOp.lines ∧ regionOf (64 * 0x100000000) ≠ .peer ∧
      loadOp.served.find 0x100000000 = none ∧ loading.held loadOp = false ∧ loading.lineWaits loadOp 0x100000000 = false ∧
      (loading.home 0x100000000).host ≠ .owned ∧ loading.copyFor loadOp .relaxed 0x100000000 = none ∧ loading.rebasing = false ∧
      { loading with rebasing := true }.copyFor loadOp .relaxed 0x100000000 = none ∧ (.relaxed : LoadClass) ≠ .weak) ∧
    (let o : MemOp := { loadOp with kind := .load .weak .zext 8 }
     { loading with ops := [o] }.opAt 5 = some o ∧ { loading with ops := [o] }.copyFor o .weak 0x100000000 = none) ∧
    (loading.homes.find 0x100000000 = some { wts := 1, rts := 2 } ∧ ({ wts := 1, rts := 2 } : HomeLine).host = .invalid ∧ { loading with homes := [(0x100000000, { wts := 1, rts := 2, poison := true })] }.homes.find 0x100000000 =
      some { wts := 1, rts := 2, poison := true }) ∧
    loading.homes.find 0x100000001 = none := by
  and_intros <;> decide +kernel

/-- A sound copy in the L1 whose lease reaches ATS, for LDH and for LDHS. -/
theorem test_witness_loadIsServed : let c : Copy := { wts := 1, rts := 2, data := 0x8000 }
    let o : MemOp := { loadOp with kind := .load .relaxed .sext 8 }
    let s := { loading with cores := [(0, { core1 with l1 := [(0x100000000, c)] })] }
    s.opAt 5 = some loadOp ∧ { s with ops := [o] }.opAt 5 = some o ∧ MineHere s loadOp ∧ 0x100000000 ∈ loadOp.lines ∧ loadOp.served.find 0x100000000 = none ∧
      regionOf (64 * 0x100000000) ≠ .peer ∧ s.held loadOp = false ∧ s.lineWaits loadOp 0x100000000 = false ∧ loadOp.doneLo = 0 ∧
      (loadOp.lanes.map LaneAcc.lane).Nodup ∧ (∀ a ∈ loadOp.lanes, a.lane < 64 ∧ a.size ≤ 2) ∧ (s.core 0).l1.find 0x100000000 = some c ∧
      s.here.atsNow ≤ c.rts ∧ Table.get 0 s.here.floors 0x100000000 ≤ c.wts ∧ c.poison = false ∧ s.seenPoison 0 0x100000000 c.wts = false := by
  unfold MineHere
  dsimp only
  and_intros <;> decide +kernel

/-- An atomic of one lane before and after it is applied; operands of 4 and 8 bytes at their largest. -/
theorem test_witness_atomicsAtHome : let a : LaneAcc := { lane := 0, addr := 0x4000000008, size := 8, data := 1 }
    let o : MemOp := { loadOp with kind := .atomic .add true false (some 8) false, lanes := [a] }
    let d : LineData := ⟨3, 3, 0, none, false⟩
    let p : MemOp := { o with applied := [(0x100000000, d)] }
    let s := { loading with ops := [o] }
    let t := { loading with ops := [p] }
    (s.opAt 5 = some o ∧ MineHere s o ∧ a.addr / 64 = 0x100000000 ∧ a.addr % a.size = 0 ∧ regionOf (64 * 0x100000000) ≠ .peer ∧
      o.applied.find 0x100000000 = none ∧ (s.home 0x100000000).host ≠ .owned ∧ s.atomReady o true false 0x100000000 = true ∧
      (s.home 0x100000000).poison = false) ∧
    (t.opAt 5 = some p ∧ MineHere t p ∧ p.applied.find 0x100000000 = some d ∧ p.acked = [] ∧ (t.home 0x100000000).host = .invalid ∧ a.lane < 64) ∧
    0xFFFFFFFF < 2 ^ (8 * 4) ∧ 0xFFFFFFFFFFFFFFFF < 2 ^ (8 * 8) := by
  unfold MineHere
  dsimp only
  and_intros <;> decide +kernel

/-- A clock past 0xC000_0000, and none; a rebase that runs; and the events of the memory units, each with what it acts on. -/
theorem test_witness_rebaseAndMemoryUnits :
    ({ user gang with rebasing := true }.rebasing = true ∧ (∀ e ∈ { user gang with clocks := [(0, 0xC0000000)] }.clocks, e.2 ≤ 0xC0000000) ∧
      (∃ e ∈ { user gang with clocks := [(0, 0xC0000001)] }.clocks, 0xC0000000 < e.2) ∧
      ({ user gang with clocks := [(0, 0xC0000001)] }.clocks.map Prod.fst).Nodup) ∧
    (let w : WatchArrival := ⟨7, 1, 0x40, 3, false⟩
     { user gang with arrivals := [w] }.arrivals.find? (fun x => x.block == 1 && x.offset == 0x40) = some w ∧
      (user gang).carveEnded (carveAt 1) = false ∧ { user gang with blocks := [] }.carveEnded (carveAt 1) = true) ∧
    (okOf ((user gang).walk 1 0x4000000000) = some ⟨0x4000000000, 29, true, true, true⟩ ∧ (user gang).gang 0 0 = some gang ∧
      okOf (((user gang).fillFor gang 0x4000001000).translate gang 0x4000001000 .fetch) = some 0x4000001000 ∧
      ((user gang).home (0x4000001000 / 64)).poison = false ∧ (user gang).hostOwns (0x4000001000 / 64) = false ∧ regionOf 0x4000001000 ≠ .peer ∧
      { user gang with homes := [(0x4000001000 / 64, { wts := 0, rts := 0, host := .owned })] }.hostOwns (0x4000001000 / 64) = true) ∧
    (let o : MemOp := { loadOp with kind := .message 0x50000 [1] 8, batch := 5 }
     let s := { user { gang with grp := { gang.grp with wait := .op 5 } } with ops := [o] }
     s.opAt 5 = some o ∧ MineHere s o ∧ s.here.grp.wait = .op o.batch ∧ o.batch ≠ 0 ∧ s.here.grp.run ≠ none ∧
      ∀ p ∈ s.ops, p.id ≠ o.id → p.gang ≠ o.gang) ∧
    (let a : LaneAcc := { lane := 0, addr := 0x48, size := 4, rank := 4 }
     let o : MemOp := { loadOp with kind := .scratchLoad .pair 8, lanes := [a] }
     let p : MemOp := { loadOp with kind := .scratchStore, lanes := [a] }
     let s := { user gang with ops := [o] }
     let t := { user gang with ops := [p] }
     s.opAt 5 = some o ∧ MineHere s o ∧ o.doneLo = 0 ∧ s.held o = false ∧ s.scratchEarlier o a false = false ∧ s.scratchPoisoned s.here.carve (a.addr / 4) = false ∧
      (1 : LaneMask).getLsbD a.lane = true ∧ t.opAt 5 = some p ∧ MineHere t p ∧ p.doneLo = 0 ∧ t.held p = false ∧ t.scratchEarlier p a false = false) := by
  unfold MineHere
  dsimp only
  and_intros <;> decide +kernel

/-! Control, registers, barriers and the pool -/

theorem lastWord_of {g : Gang} {r : RunPos} (h : g.grp.run = some r) (hl : r.idx + 1 = r.len) : LastWord g := ⟨r, h, hl⟩
theorem lastGang_last : LastWord lastGang := lastWord_of rfl rfl
theorem gang_notLast : ¬ LastWord gang := by
  rintro ⟨r, h, hl⟩
  cases h
  exact absurd hl (by decide)

/-- WAIT names F0 to F11, at zero or not; the last word and another; targets that are aligned and one that is not. -/
theorem test_witness_runsAndControlTransfers :
    (∀ n < 12, (0xFFF : BitVec 12).getLsbD n = true → gang.flag n = 0) ∧ (∃ n < 12, (0x800 : BitVec 12).getLsbD n = true ∧ { gang with flags := [(11, 1)] }.flag n ≠ 0) ∧
    LastWord lastGang ∧ lastGang.members ≠ [] ∧ ¬ LastWord gang ∧ (7 : BitVec 4).toNat < 8 ∧
    (∀ sl ∈ lastGang.members, (({ lastGang with s := [(4, 0x4000002000)] } : Gang).sreg sl 4).toNat % 4 = 0) ∧
    (lastGang.members.find? (fun sl => (({ lastGang with s := [(4, 0x4000002002)] } : Gang).sreg sl 4).toNat % 4 != 0) = some 0) :=
  ⟨by decide +kernel, by decide +kernel, lastGang_last, by decide +kernel, gang_notLast, by decide, by decide +kernel, by decide +kernel⟩

/-- A whole gang, and one parted in two groups, of which the other runs elsewhere or waits at the same REGANG. -/
theorem test_witness_exitAndRegang : let p : Group := { slices := 2, pc := 0x4000001000, run := some ⟨4, 3⟩, wait := .regang 3 }
    LastWord lastGang ∧ lastGang.parted = [] ∧ lastGang.grp.slices ≠ 0 ∧ lastGang.ended = false ∧ lastGang.halted = false ∧ p.slices ≠ 0 ∧
      p.wait = .regang (3 : BitVec 6).toNat ∧ lastGang.groupPc p = lastGang.wordPc ∧ { p with wait := .ready }.wait = .ready ∧
      ∀ id, ({ p with wait := .ready } : Group).wait ≠ .regang id := by
  refine ⟨lastGang_last, by decide +kernel, by decide +kernel, by decide, by decide, by decide, by decide, by decide +kernel, rfl, ?_⟩
  intro id h
  cases h

/-- MODE values, NARROW, WAKEWHY, LAYER and EVC values at the ends of their ranges; read-only, unlisted and privileged registers; a
register that two slices do not agree on. -/
theorem test_witness_registerReadsAndWrites :
    (gang.grp.marker = none ∧ (0x2440D : Word64).toNat < 2 ^ 18 ∧ (0x2440D : Word64).toNat % 16 ≤ 13 ∧ (0x2440D : Word64).toNat / 2 ^ 8 % 8 ≤ 4 ∧
      (0x2440D : Word64).toNat / 2 ^ 12 % 8 ≤ 4) ∧
    ((user gang).writeOk 0x800 0x4000100000 = true ∧ (user gang).writeOk 0x800 1 = false ∧ (user gang).writeOk 0 0xF = false) ∧
    (let g : Gang := { gang with s := [(4, 0xFFF)] }
     (∀ sl ∈ g.members, g.sreg sl 4 = g.uniformS 4) ∧ g.members ≠ [] ∧ (g.uniformS 4).toNat < 2 ^ 12) ∧
    narrowOk 0xBBBBBBBBBBBBB = true ∧ ((0x100010000 : Word64).toNat < 2 ^ 33 ∧ (0x101000000 : Word64).toNat / 2 ^ 24 % 2 ^ 8 ≠ 0) ∧
    ((0x110FFFFFFFFFFFF : Word64).toNat < 2 ^ 57 ∧ (0x110FFFFFFFFFFFF : Word64).toNat / 2 ^ 48 % 256 ≤ 16) ∧
    (2 ∈ [2, 3, 4, 5, 6, 7, 8, 9, 10, 12, 15, 16, 18, 0x20, 0x21, 0x22, 0x23, 0x24, 0x25, 0x26, 0x27] ∧ Sys2Proof.Machine.regListed 0x13 = false ∧
      Sys2Proof.Machine.regListed 0x800 = true ∧ Sys2Proof.Machine.regListed 0xE02 = true ∧ gang.isSupervisor = false) ∧
    (let g : Gang := { gang with grp := { gang.grp with slices := 3 }, s := [(4, 1)] }
     ¬ ∀ sl ∈ g.members, g.sreg sl 4 = g.uniformS 4) := by
  dsimp only
  and_intros <;> decide +kernel

/-- The supervisor's machine with a value in S4. -/
def privState (x : Word64) : State := sup { supGang with s := [(4, x)] }

/-- Values that each kind of register takes, and values that it does not; PREEMPT with nothing in progress and with a save. -/
theorem test_witness_supervisorWrites :
    ((privState 1).here.isSupervisor = true ∧ (privState 1).here.grp.marker = none ∧ (privState 1).here.members ≠ [] ∧
      ∀ sl ∈ (privState 1).here.members, (privState 1).here.sreg sl 4 = (privState 1).here.uniformS 4) ∧
    (plainTakes 2 1 ∧ plainTakes 6 0x7777 ∧ ¬ plainTakes 6 8 ∧ plainTakes 9 0x400 ∧ ¬ plainTakes 9 0x401 ∧ plainTakes 0xA (2 ^ 49 - 64) ∧ ¬ plainTakes 0xA 1 ∧
      plainTakes 0xB (2 ^ 32 - 1) ∧ ¬ plainTakes 0xB (2 ^ 32) ∧ plainTakes 0xC 0x4000000004 ∧ ¬ plainTakes 0xC 3 ∧ plainTakes 0xE (2 ^ 52 - 2 ^ 22) ∧
      plainTakes 0xF 0x100000C ∧ ¬ plainTakes 0xF 13 ∧ plainTakes 0x10 0x1000 ∧ ¬ plainTakes 0x11 0x10) ∧
    ((privState 0x101).preempt = none ∧ (0x101 : Nat) < 2 ^ 16 ∧ 0x101 / 2 ^ 5 % 2 ^ 3 = 0 ∧ 0x20 / 2 ^ 5 % 2 ^ 3 ≠ 0) ∧
    (let s := { privState 1 with mgmt := { (privState 1).mgmt with started := true } }
     s.coresRun = true ∧ s.writeOk (0x800 + 0x40 * 1 + 1) 1 = true ∧ s.resumeWaits (0x800 + 0x40 * 1 + 1) 1 = false ∧
      s.writeOk (0x800 + 0x40 * 1 + 7) 0x10000 = true ∧ s.writeOk (0x800 + 0x40 * 1) 0x2000 = true) :=
  ⟨by decide +kernel, by simp [plainTakes], by decide +kernel, by decide +kernel⟩

/-- A gang with the object at 0x40 in S4 and a value in S5. -/
def barGang (v : Word64) : Gang := { lastGang with s := [(4, 0x40), (5, v)] }
/-- Its machine, whose object stands in phase 3 and expects 2 arrivals and no bytes. -/
def barState (v : Word64) : State :=
  { user (barGang v) with blocks := [(1, { tenant := 1, launch := 1, scratchSize := 4096, live := 1, scratch := [(0x40, 3), (0x44, 2)] })] }

/-- Same, ObjectAt and WatchAt in forms that evaluate. -/
theorem same_of {g : Gang} {a : BitVec 6} {v : Nat} (h : (g.members.all (fun sl => (g.sreg sl a.toNat).toNat == v) && (g.uniformS a.toNat).toNat == v) = true) :
    Same g a v := by
  simp only [Bool.and_eq_true, List.all_eq_true, beq_iff_eq] at h
  exact h

theorem objectAt_of {s : State} {a : BitVec 6} {off : Nat} (rank key : Nat) (peer : Bool) (h1 : Same s.here a (off + if peer then 2 ^ 22 + 2 ^ 20 * rank else 0))
    (h2 : off % 16 = 0 ∧ off < 2 ^ 20 ∧ rank < 4 ∧ rank < (s.block s.here.block).ranks ∧
      (if peer then s.here.isSupervisor = false ∧ key = s.peerKey s.here rank else rank = 0 ∧ key = s.here.carveKey))
    (h3 : off + 16 ≤ s.carveSize (carveAt key) ∧ s.carveEnded (carveAt key) = false ∧
      s.objectPoisoned key off 16 = false ∧ s.scratchOps s.here.key = [] ∧ s.wordHeld = false ∧
      (peer = true → s.peerBusy s.here.key = false)) : ObjectAt s a off key peer := ⟨⟨rank, h1, h2⟩, h3⟩

/-- A gang with an address in S4 and the object at 0x40 in S5. -/
def watchGang (va : Word64) : Gang := { lastGang with s := [(4, va), (5, 0x40)] }

/-- `barState` with S4 naming the object at 0x40 of the peer of rank 1, which is there or has ended. -/
def peerState (v : Word64) (ended : Bool) : State :=
  { user { barGang v with s := [(4, 0x500040), (5, v)] } with
    blocks := [(1, { tenant := 1, launch := 1, scratchSize := 4096, live := 1, ranks := 2, peers := [(0, 1), (1, 2)] }),
      (2, { tenant := 1, launch := 1, core := 1, scratchSize := 4096, live := 1, ranks := 2, rank := 1, peers := [(0, 1), (1, 2)], ended := ended
            scratch := [(0x40, 3), (0x44, 2)] })] }

/-- An object in the carve-out, one of a peer, and one of a peer that has ended; expectations up to 2^48 − 1; scope 0 with nothing ahead;
an offset that is not aligned, a rank without PEER, and a rank that is not there. -/
theorem test_witness_barrierUpdates :
    (ObjectAt (barState 0xFFFFFFFFFFFF) 4 0x40 1 false ∧ Same (barState 0xFFFFFFFFFFFF).here 5 0xFFFFFFFFFFFF ∧ 0xFFFFFFFFFFFF < 2 ^ 48 ∧
      ScopeIs (barState 0).here 0 ∧ NothingAhead (barState 0)) ∧
    (ObjectAt (peerState 2 false) 4 0x40 2 true ∧ NothingAhead (peerState 2 false)) ∧ ObjectGone (peerState 2 true) 4 0x40 2 ∧
    (Same (watchGang 0x44) 4 0x44 ∧ 0x44 % 16 ≠ 0 ∧ Same (watchGang 0x100040) 4 0x100040 ∧ 0x100040 / 2 ^ 22 = 0 ∧ 0x100040 / 2 ^ 20 ≠ 0 ∧
      Same (watchGang 0x700040) 4 0x700040 ∧ ((barState 0).block 1).ranks = 1) :=
  ⟨⟨objectAt_of 0 1 false (same_of (by decide +kernel)) (by decide +kernel) (by decide +kernel), same_of (by decide +kernel), by decide,
      by unfold ScopeIs; decide +kernel, by unfold NothingAhead; decide +kernel⟩,
    ⟨objectAt_of 1 2 true (same_of (by decide +kernel)) (by decide +kernel) (by decide +kernel), by unfold NothingAhead; decide +kernel⟩,
    ⟨⟨1, same_of (by decide +kernel), by decide +kernel⟩, by decide +kernel⟩,
    same_of (by decide +kernel), by decide, same_of (by decide +kernel), by decide, by decide, same_of (by decide +kernel), by decide +kernel⟩

/-- Phase 3 stands where PHASE is 3 and phase 4 does not; a group that waits for each. -/
theorem test_witness_barrierWaits :
    (ScopeIs (barState 3).here 0 ∧ (barState 3).awaitsAck (barState 3).here.key = false ∧ InSlot (barState 3).here) ∧
    (ObjectAt (barState 3) 4 0x40 1 false ∧ Same (barState 3).here 5 3 ∧ Reached ((barState 3).barrier (carveAt 1) 0x40).phase 3) ∧
    (ObjectAt (barState 4) 4 0x40 1 false ∧ Same (barState 4).here 5 4 ∧ ¬ Reached ((barState 4).barrier (carveAt 1) 0x40).phase 4) ∧
    (LastWord (barState 4).here ∧ (barState 4).here.members ≠ [] ∧ (barState 4).here.halted = false ∧ ((barState 4).core 0).gated = false ∧
      ((barState 4).block 1).abandoned = false ∧ NothingAhead (barState 3) ∧ NothingAhead (barState 4) ∧ ¬ Reached 4 5 ∧ Reached 4 4) ∧
    ({ barGang 4 with grp := { lastGang.grp with wait := .barwait 1 0x40 4 0 } }.grp.wait = .barwait (barGang 4).carveKey 0x40 4 0 ∧
      (barState 4).carveEnded (carveAt 1) = false ∧ 0 ∈ (barGang 4).members) :=
  ⟨⟨by unfold ScopeIs; decide +kernel, by decide +kernel, by unfold InSlot; decide +kernel⟩,
    ⟨objectAt_of 0 1 false (same_of (by decide +kernel)) (by decide +kernel) (by decide +kernel), same_of (by decide +kernel), by unfold Reached; decide +kernel⟩, ⟨objectAt_of 0 1 false (same_of (by decide +kernel)) (by decide +kernel) (by decide +kernel), same_of (by decide +kernel), by unfold Reached; decide +kernel⟩,
    ⟨lastWord_of rfl rfl, by decide +kernel, rfl, by decide +kernel, by decide +kernel, by unfold NothingAhead; decide +kernel, by unfold NothingAhead; decide +kernel,
      by unfold Reached; decide, by unfold Reached; decide⟩, by decide +kernel⟩

/-- The descriptor of a kernel of one gang of 64 lanes that uses the grid barrier. -/
def gridDesc (phased : Bool) : Descriptor :=
  { entry := 0x4000001000, lanes := 64, gm1 := 0, phased := phased, gridbar := true, carry := 0, accs := 2, scratch := 4096, roles := [(0, 4)]
    eph := [], ephv := false }
/-- The machine with a launch of that kernel, of `n` blocks. -/
def gridState (phased : Bool) (w : Wait) (n : Nat := 1) : State :=
  { user { lastGang with exited := 0xFFFE, grp := { lastGang.grp with wait := w } } with
    launches := [(1, { tenant := 1, stage := .running, blocks := n, started := n, gridPhase := 2, desc := some (gridDesc phased) })] }

/-- Whether the arrival of the gang on the pipe completes the grid phase. -/
def gridFullAfter (s : State) : Bool :=
  let l := s.launch 1
  let k := { l with gridPts := max l.gridPts s.here.ptsNow, gridSlices := Table.set 0 l.gridSlices 0 s.here.grp.slices.toNat }
  ({ s with launches := s.launches.insert 1 k }).gridFull 1

/-- A grid of one block and of two, whose phase the gang's arrival completes or not; a kernel that is phased and one that is not; waits for a phase that is complete and for one that is not. -/
theorem test_witness_gridBarrier :
    (∀ w ∈ [Wait.ready, .grid 2, .grid 3], ((gridState false w).launches.find 1).map Launch.desc = some (some (gridDesc false)) ∧
      ((gridState false w).block 1).job = none ∧ (gridState false w).here.isSupervisor = false ∧ InSlot (gridState false w).here) ∧
    (∀ n ∈ [1, 2], let s := gridState false .ready n
      (s.launch 1).stage = .running ∧ (s.launch 1).blocks ≠ 0 ∧ s.here.grp.slices ≠ 0 ∧ s.here.ended = false ∧ (gridDesc false).phased = false ∧
      s.here.halted = false ∧ (gridDesc false).gridbar = true ∧ gridFullAfter s = decide (n = 1)) ∧
    ScopeIs (gridState false .ready).here 0 ∧
    ((gridState true .ready).launches.find 1).map Launch.desc = some (some (gridDesc true)) ∧ NothingAhead (gridState true .ready) ∧
    NothingAhead (gridState false (.grid 2)) ∧ LastWord (gridState true .ready).here ∧ (gridState false (.grid 2)).here.grp.wait = .grid 2 ∧
    ((gridState false (.grid 2)).launch 1).gridPhase = 2 ∧ (2 ≤ 2 ∧ 2 < 3) ∧ 0 ∈ (gridState false (.grid 2)).here.members := by
  unfold NothingAhead InSlot ScopeIs
  refine ⟨?_, by decide +kernel, by decide +kernel, by decide +kernel, by decide +kernel, by decide +kernel, lastWord_of rfl rfl, by decide +kernel, by decide +kernel, by decide,
    by decide +kernel⟩
  intro w hw
  rcases List.mem_cons.1 hw with rfl | hw
  · decide +kernel
  rcases List.mem_cons.1 hw with rfl | hw
  · decide +kernel
  rcases List.mem_cons.1 hw with rfl | hw
  · decide +kernel
  · cases hw

/-- Its machine, with one page of HBM and one of host memory. -/
def watchState (va : Word64) : State :=
  { user (watchGang va) with cores := [(0, { core1 with tlb := [page 0x4000000000 0x4000000000, page 0x4000080000 0x8000000000000] })] }

theorem watchAt_of {s : State} {a b : BitVec 6} {va pa off : Nat} (h1 : Same s.here a va) (h2 : Same s.here b off)
    (h3 : va % 64 = 0 ∧ off % 16 = 0 ∧ off < 2 ^ 20 ∧ off + 16 ≤ s.carveSize (carveAt s.here.carveKey) ∧ s.carveEnded (carveAt s.here.carveKey) = false ∧
      s.objectPoisoned s.here.carveKey off 16 = false ∧ s.wordHeld = false ∧ 1 ≤ (s.block s.here.block).ranks ∧ s.walkWaits s.here va = false)
    (h4 : okOf ((s.fillFor s.here va).translate s.here va .load) = some pa) : WatchAt s (s.fillFor s.here va) a b va pa off :=
  ⟨h1, h2, h3.1, h3.2.1, h3.2.2.1, h3.2.2.2.1, h3.2.2.2.2.1, h3.2.2.2.2.2.1, h3.2.2.2.2.2.2.1, h3.2.2.2.2.2.2.2.1, h3.2.2.2.2.2.2.2.2, rfl, ok_of h4⟩

theorem test_witness_watchForms :
    (WatchAt (watchState 0x4000000040) ((watchState 0x4000000040).fillFor (watchState 0x4000000040).here 0x4000000040) 4 5 0x4000000040 0x4000000040 0x40 ∧
      regionOf 0x4000000040 = .hbm ∧ ((watchState 0x4000000040).watches.filter (fun x => x.line == 0x4000000040 / 64)).length < 4 ∧
      ((watchState 0x4000000040).watches.filter (fun x => stopOf x.line == stopOf (0x4000000040 / 64))).length < 8192 ∧ ∀ x ∈ (watchState 0x4000000040).arrivals, ¬ (x.line = 0x4000000040 / 64 ∧ x.block = 1 ∧ x.offset = 0x40)) ∧
    (WatchAt (watchState 0x4000080000) ((watchState 0x4000080000).fillFor (watchState 0x4000080000).here 0x4000080000) 4 5 0x4000080000 0x8000000000000 0x40 ∧
      regionOf 0x8000000000000 ≠ .hbm ∧ regionOf 0x8000000000000 ≠ .tier) :=
  ⟨⟨watchAt_of (same_of (by decide +kernel)) (same_of (by decide +kernel)) (by decide +kernel) (by decide +kernel), by decide +kernel, by decide +kernel, by decide +kernel, by decide +kernel⟩,
    ⟨watchAt_of (same_of (by decide +kernel)) (same_of (by decide +kernel)) (by decide +kernel) (by decide +kernel), by decide +kernel, by decide +kernel⟩⟩

/-- The machine of a gang of four granules that asks for S5 granules, alone on its core or beside gangs that hold 248 of its 252. -/
def poolState (n : Word64) (w : Wait) (full : Bool) : State :=
  { user { barGang n with grp := { lastGang.grp with wait := w } } with
    gangs := if full then (List.range 8).map (fun i => (i + 1, { gang with slot := i + 1, granules := 31 })) else [] }

/-- No granules; one that makes 32; 27 that make 31, with the pool free and full; a claim that waits, and one that has waited too long; a give of all and of too many. -/
theorem test_witness_registerPool :
    (LastWord (poolState 0 .ready false).here ∧ Same (poolState 0 .ready false).here 5 0) ∧
    (LastWord (poolState 28 .ready false).here ∧ Same (poolState 28 .ready false).here 5 28 ∧ 31 < (poolState 28 .ready false).here.granules + 28) ∧
    (Same (poolState 27 .ready false).here 5 27 ∧ (poolState 27 .ready false).here.granules + 27 ≤ 31 ∧ InSlot (poolState 27 .ready false).here ∧
      (poolState 27 .ready false).claims 0 = [] ∧ (poolState 27 .ready false).mirrored 0 = [] ∧
      27 ≤ (poolState 27 .ready false).freeGranules 0 ∧ (poolState 27 .ready true).claims 0 = [] ∧ (poolState 27 .ready true).freeGranules 0 < 27) ∧
    ((poolState 27 (.claim 27 9) false).here.grp.wait = .claim 27 9 ∧ ((poolState 27 (.claim 27 9) false).claims 0).length = 1 ∧
      27 ≤ (poolState 27 (.claim 27 9) false).freeGranules 0 ∧ ((poolState 27 (.claim 27 9) true).claims 0).length = 1 ∧
      (poolState 27 (.claim 27 9) true).freeGranules 0 < 27 ∧ (poolState 27 (.claim 27 9) false).mirrored 0 = []) ∧
    ((poolState 28 (.claim 28 9) false).here.grp.wait = .claim 28 9 ∧ 31 < (poolState 28 (.claim 28 9) false).here.granules + 28 ∧
      ∀ p ∈ (poolState 28 (.claim 28 9) false).here.parted, p.slices.getLsbD 0 = false) ∧
    (Same (poolState 4 .ready false).here 5 4 ∧ 4 ≤ (poolState 4 .ready false).here.granules ∧ Same (poolState 5 .ready false).here 5 5 ∧
      (poolState 5 .ready false).here.granules < 5) := by
  refine ⟨⟨lastWord_of rfl rfl, same_of (by decide +kernel)⟩, ⟨lastWord_of rfl rfl, same_of (by decide +kernel), by decide⟩, ⟨same_of (by decide +kernel), by decide, ?_, ?_, ?_, ?_, ?_, ?_⟩,
    ⟨rfl, ?_, ?_, ?_, ?_, ?_⟩, ⟨rfl, by decide +kernel, by decide +kernel⟩, ⟨same_of (by decide +kernel), by decide, same_of (by decide +kernel), by decide⟩⟩ <;> first | decide +kernel | (unfold InSlot; decide +kernel)

/-! The walker, tasks, rings and messages -/

/-- The machine at WALK with a map, at the spot S4 of whose space COVQ looks, and where ticket 1 of generation 0 holds cells 0 and 1. -/
def walkState (b0 b1 : Byte) (x : Word64) : State :=
  let s := mapState 0x0001000100020004 b0 b1
  { s with here := { gang with s := [(4, x)] }, launches := [(1, { mapLaunch 0x0001000100020004 with tickets := [⟨1, 0, [0, 1], 1, 0⟩], nextTicket := 2 })] }

/-- The launch of that machine. -/
def walkLaunch : Launch := { mapLaunch 0x0001000100020004 with tickets := [⟨1, 0, [0, 1], 1, 0⟩], nextTicket := 2 }

/-- EPHRD and EPHWR of registers at the ends of their ranges; a commit that is legal and one that changes the extents. -/
theorem test_witness_ephemerisForms :
    let l : Launch := { mapLaunch 0x0001000100020004 with
      eph := [(0, 0x0001000100040008), (1, 0x11), (2, 0x0001000100020004), (3, 0xE4), (6, 0x4000000000), (8, 0x0001000100040008), (9, 0x11),
        (10, 0x0001000100040008), (11, 0xE4), (12, 1)] }
    let s := { user gang with priv := [(0x842, 1)] }
    { s with launches := [(1, l)] }.launches.find 1 = some l ∧
    (Table.get 0 l.eph 8).toNat = (Table.get 0 l.eph 0).toNat ∧ (Table.get 0 l.eph 9).toNat = (Table.get 0 l.eph 1).toNat ∧
    ephemerisOk (Table.get 0 l.eph 8).toNat (Table.get 0 l.eph 9).toNat (Table.get 0 l.eph 10).toNat (Table.get 0 l.eph 11).toNat (Table.get 0 l.eph 12).toNat
      ({ s with launches := [(1, l)] }.tenantClusters l.tenant) = true ∧
    (Table.get 0 walkLaunch.eph 8).toNat ≠ (Table.get 0 walkLaunch.eph 0).toNat ∧
    (15 : BitVec 6).toNat < 16 ∧ (15 : BitVec 6).toNat ≠ 7 ∧ 16 ≤ (16 : BitVec 6).toNat ∧ (7 : BitVec 6).toNat < 8 ∧ 8 ≤ (8 : BitVec 6).toNat := by
  decide +kernel

/-- A launch without a map, one whose map has no FREE cell, and one where cells 2 and 3 are FREE; an outstanding ticket and one that is none; a
point inside the space and one outside. -/
theorem test_witness_walkerForms :
    ((user gang).launches.find 1 = some { tenant := 1, stage := .running, lid := 7 } ∧ (user gang).awaitsAck gang.key = false ∧
      (user gang).wordHeld = false ∧ ScopeIs gang 0 ∧ (Table.get 0 ({ tenant := 1, stage := .running, lid := 7 } : Launch).eph 6).toNat = 0 ∧ (61 : BitVec 6).toNat ≤ 61 ∧ 61 < (62 : BitVec 6).toNat) ∧
    ((walkState 0x05 0 1).launches.find 1 = some walkLaunch ∧ (Table.get 0 walkLaunch.eph 6).toNat ≠ 0 ∧
      okOf ((walkState 0x55 0x55 1).walkChoice walkLaunch).2 = some none ∧
      okOf ((walkState 0x05 0 1).walkChoice walkLaunch).2 = some (some ⟨[2, 0, 0, 0], [2, 1, 1, 1]⟩) ∧
      (walkState 0x05 0 1).mapWaits walkLaunch (List.range walkLaunch.cellCount) = false ∧ NoAnswers (walkState 0x05 0 1) ∧
      (∀ n ∈ (walkState 0x05 0 1).mapLines walkLaunch (List.range walkLaunch.cellCount), SoundLine (walkState 0x05 0 1) n)) ∧
    (Same (walkState 0x05 0 1).here 4 1 ∧ NothingAhead (walkState 0x05 0 1) ∧ NothingAhead (walkState 0x05 0 9) ∧ ScopeIs (walkState 0x05 0 1).here 0 ∧
      walkLaunch.tickets.find? (fun t => t.num == 1 % 2 ^ 32 && t.gen == 1 / 2 ^ 32 % 2 ^ 32) = some ⟨1, 0, [0, 1], 1, 0⟩ ∧
      walkLaunch.tickets.find? (fun t => t.num == 9 % 2 ^ 32 && t.gen == 9 / 2 ^ 32 % 2 ^ 32) = none ∧
      ∀ n ∈ [0, 1], okOf ((walkState 0x05 0 1).cell walkLaunch n .atomic) = some 1) ∧
    (Same (walkState 0x05 0 0x30007).here 4 0x30007 ∧ (∀ i < 4, 0x30007 / 2 ^ (16 * i) % 2 ^ 16 < 0x0001000100040008 / 2 ^ (16 * i) % 2 ^ 16) ∧
      okOf ((walkState 0x05 0 0x30007).cell walkLaunch 7 .load) = some 0 ∧ ∃ i < 4, 0x0001000100040008 / 2 ^ (16 * i) % 2 ^ 16 ≤ 0x40000 / 2 ^ (16 * i) % 2 ^ 16) := by
  unfold NothingAhead ScopeIs SoundLine NoAnswers
  refine ⟨?_, ?_, ⟨same_of ?_, ?_, ?_, ?_, ?_, ?_, ?_⟩, ⟨same_of ?_, ?_, ?_, ?_⟩⟩ <;> decide +kernel

theorem recordAt_of {s : State} {a : BitVec 6} {kind : AccessKind} {va pa : Nat} (h1 : Same s.here a va)
    (h2 : va % 64 = 0 ∧ pa % 64 = 0 ∧ s.walkWaits s.here va = false)
    (h3 : okOf ((s.fillFor s.here va).translate s.here va kind) = some pa) : RecordAt s (s.fillFor s.here va) a kind va pa :=
  ⟨h1, h2.1, h2.2.2, rfl, ok_of h3, h2.2.1⟩

/-- The machine of a gang with a record at 0x40_0000_0000, whose words are `x` and whose S5 is `v`. -/
def recordState (v : Word64) (x : Nat) : State :=
  let s := user { gang with s := [(4, 0x4000000000), (5, v)] }
  s.setBytes 0x4000000000 (bytesOf 64 x)

/-- The state after the record's page is in the TLB. -/
def recordFilled (v : Word64) (x : Nat) : State := (recordState v x).fillFor (recordState v x).here 0x4000000000

/-- A card of one block for the gang's cluster, and for the cluster that it names; a gang that belongs to no launch. -/
theorem test_witness_postForms : let x := 0x4000002000 + 1 * 2 ^ 128
    RecordAt (recordState 0 x) (recordFilled 0 x) 4 .load 0x4000000000 0x4000000000 ∧ NothingAhead (recordState 0 x) ∧ ScopeIs (recordState 0 x).here 0 ∧
      Uncached (recordFilled 0 x) 0 (0x4000000000 / 64) ∧ cardOk ((recordState 0 x).read 0x4000000000 64) 4096 = true ∧
      ((recordState 0 x).block 1).launch ≠ 0 ∧ (recordState 0 x).ringed 0 = [] ∧ (recordState 0 x).ringWaits 1 = false ∧ (recordState 0 x).queued 0 < 512 ∧
      bitOf ({ recordState 0 x with priv := [(0x840, 0x4000100000), (0x841, 1), (0x842, 1)] }.tenantClusters 1) 0 = true ∧
      ({ recordState 0 x with blocks := [(1, { tenant := 1 })] }.block 1).launch = 0 := by
  refine ⟨recordAt_of (same_of ?_) ?_ ?_, ?_, ?_, ?_, ?_, ?_, ?_, ?_, ?_, ?_⟩ <;>
    first | decide +kernel | (unfold NothingAhead; decide +kernel) | (unfold Uncached; decide +kernel) | (unfold ScopeIs; decide +kernel)

/-- A ring header of 2 slots of 8 bytes: TICKET and HEAD, and the bitmap at 0x40_0000_0040. -/
def ringRecord (ticket head : Nat) : Nat := ticket + head * 2 ^ 64 + (1 + 3 * 2 ^ 8) * 2 ^ 128 + 0x4000001000 * 2 ^ 192 + 0x4000000040 * 2 ^ 256

/-- A ring with room, a full one, an empty one, and one whose head slot is full; tickets at both ends of those that are out. -/
theorem test_witness_reorderRings :
    (RecordAt (recordState 1 (ringRecord 2 1)) (recordFilled 1 (ringRecord 2 1)) 4 .atomic 0x4000000000 0x4000000000 ∧
      LineFree (recordState 1 (ringRecord 2 1)) (0x4000000000 / 64) ∧ ScopeIs (recordState 1 (ringRecord 2 1)).here 0 ∧
      parseRing ((recordState 1 (ringRecord 2 1)).read 0x4000000000 64) = some ⟨2, 1, 0x4000001000, 0x4000000040, 2⟩ ∧
      (⟨2, 1, 0x4000001000, 0x4000000040, 2⟩ : Ring).held < 2) ∧
    (parseRing ((recordState 1 (ringRecord 3 1)).read 0x4000000000 64) = some ⟨3, 1, 0x4000001000, 0x4000000040, 2⟩ ∧
      2 ≤ (⟨3, 1, 0x4000001000, 0x4000000040, 2⟩ : Ring).held) ∧
    (Same (recordState 1 (ringRecord 2 1)).here 5 1 ∧ NothingAhead (recordState 1 (ringRecord 2 1)) ∧ 1 ≤ 1 ∧ 1 < 2 ∧
      okOf ((recordFilled 1 (ringRecord 2 1)).translate (recordState 1 (ringRecord 2 1)).here (0x4000000040 + 1 % 2 / 8) .atomic) = some 0x4000000040 ∧
      SoundLine (recordState 1 (ringRecord 2 1)) (0x4000000040 / 64) ∧
      ((recordState 1 (ringRecord 2 1)).byte 0x4000000040).toNat.testBit (1 % 8 % 2) = false ∧
      (((recordState 1 (ringRecord 2 1)).setByte 0x4000000040 2).byte 0x4000000040).toNat.testBit (1 % 8 % 2) = true) ∧
    (parseRing ((recordState 0 (ringRecord 1 1)).read 0x4000000000 64) = some ⟨1, 1, 0x4000001000, 0x4000000040, 2⟩ ∧ Same (recordState 0 (ringRecord 1 1)).here 5 0) ∧
    (∀ e ∈ ([(0, 0), (2, 1), (3, 2)] : List (Nat × Nat)),
      let s := (recordState 1 (ringRecord 1 1)).setByte 0x4000000040 (BitVec.ofNat 8 e.1)
      let full := fun i => (s.byte 0x4000000040).toNat.testBit ((1 + i) % 2 ^ 64 % 8 % 2) = true
      parseRing (s.read 0x4000000000 64) = some ⟨1, 1, 0x4000001000, 0x4000000040, 2⟩ ∧ e.2 ≤ 2 ∧ (∀ i < e.2, full i) ∧ (e.2 < 2 → ¬ full e.2) ∧
      ∀ i < 2, s.walkWaits s.here (0x4000000040 + (1 + i) % 2 ^ 64 % 2 / 8) = false ∧
        okOf ((s.fillFor s.here 0x4000000000).translate s.here (0x4000000040 + (1 + i) % 2 ^ 64 % 2 / 8) .atomic) = some 0x4000000040) ∧
    (Same (recordState 3 (ringRecord 1 1)).here 5 3 ∧ 2 < 3 ∧ 0x4000000000 / 64 ≠ 0x4000000040 / 64) := by
  unfold NothingAhead LineFree SoundLine ScopeIs
  refine ⟨⟨recordAt_of (same_of ?_) ?_ ?_, ?_, ?_, ?_, ?_⟩, ?_, ⟨same_of ?_, ?_, ?_, ?_, ?_, ?_, ?_, ?_⟩, ⟨?_, same_of ?_⟩, ?_, same_of ?_, ?_, ?_⟩ <;> decide +kernel

/-- The machine of a gang at AMSG: the destination in S4, the payload of four bytes at offset 0 named in S5. -/
def amsgState (dest : Word64) : State := user { gang with s := [(4, dest), (5, 0x400000)] }
/-- A job card of tenant 1 at a place. -/
def jobAt (p : JobPlace) : Job :=
  { tenant := 1, cluster := 0, place := p, order := 1, descAddr := 0x4000002000, arg := 0, blocks := 1, ranks := 1, prio := 0, launch := some 1 }
/-- The machine of a gang at ABUMP: arena 0 of a table at 0x40_0000_0000, with START, END 0x1000, PTR 0xFC0 and VALID for launch 7; size S5. -/
def arenaState (size : Word64) : State :=
  { recordState size (0x1000 * 2 ^ 64 + 0xFC0 * 2 ^ 128 + (7 + 2 ^ 32) * 2 ^ 192) with
    here := { gang with s := [(5, size)] }, priv := [(0x840, 0x4000100000), (0x841, 1), (0x851, 0x4000000000)] }

/-- Tenant 1's machine with a handler table at 0x40_0000_0000, whose entry 0 names argument 7, priority 2 and a descriptor at
0x40_0000_0080 of a gang of 64 lanes with 4,096 bytes of scratchpad and four granules (R95, R386). -/
def handlerState : State :=
  { ((user gang).setBytes 0x4000000000 (bytesOf 24 (0x4000000080 + 7 * 2 ^ 64 + 2 * 2 ^ 128))).setBytes 0x4000000080
      (bytesOf 128 (0x4000001000 + 64 * 2 ^ 64 + 4096 * 2 ^ 96 + 4 * 2 ^ 132)) with
    priv := [(0x840, 0x4000100000), (0x841, 1), (0x842, 1), (0x850, 0x4000000000)] }

/-- The ring slot of a spilled card of tenant 1, at 0x40_0000_0000. -/
def ringState : State :=
  { user gang with jobs := [(9, jobAt .ring)], priv := [(0x840, 0x4000100000), (0x841, 1), (0x84A, 0x4000000000), (0x84B, 4)] }

/-- A message to another device, and to a tenant of this one that is OFF; a message that waits; a card in the ring; an arena with 64 bytes left. -/
theorem test_witness_messagesAndArenas :
    (Same (amsgState 0x50000).here 4 0x50000 ∧ Same (amsgState 0x50000).here 5 0x400000 ∧ NothingAhead (amsgState 0x50000) ∧ ScopeIs (amsgState 0x50000).here 0 ∧ 0x400000 % 2 ^ 20 % 4 = 0 ∧
      0x400000 < 2 ^ 29 ∧ 1 ≤ 0x400000 / 2 ^ 20 % 2 ^ 9 ∧ 0x400000 % 2 ^ 20 + 0x400000 / 2 ^ 20 % 2 ^ 9 ≤ (amsgState 0x50000).carveSize gang.carve ∧
      (amsgState 0x50000).objectPoisoned gang.carveKey 0 4 = false ∧ carveAt gang.carveKey = gang.carve ∧ 0x50000 / 2 ^ 16 ≠ 0xFFFF ∧
      0x50000 / 2 ^ 16 ≠ (amsgState 0x50000).barReg 0x14000 % 2 ^ 16) ∧
    (Same (amsgState 0xFFFF3000).here 4 0xFFFF3000 ∧ 0xFFFF3000 < 2 ^ 32 ∧ 0xFFFF3000 / 2 ^ 16 = 0xFFFF ∧
      (amsgState 0xFFFF3000).tenantState (0xFFFF3000 / 2 ^ 12 % 16) ∈ [0, 3]) ∧
    (let s := { user gang with jobs := [(9, jobAt .messages)] }
     s.jobs.find? (fun e => e.2.tenant == 1 && e.2.place == .messages) = some (9, jobAt .messages) ∧ s.tenantState 1 = 1 ∧
      (∀ w ∈ s.saved, w.block.tenant ≠ 1) ∧ s.queued (jobAt .messages).cluster < 512) ∧
    (let s := ringState
     s.ringed 0 = [(9, jobAt .ring)] ∧ s.jobs.find 9 = some (jobAt .ring) ∧ (jobAt .ring).tenant = 1 ∧ (jobAt .ring).place = .ring ∧ s.queued 0 < 512 ∧ s.counterWaits (jobAt .ring) = false ∧
      s.deviceHeld 1 ((s.privReg (0x800 + 0x40 * 1 + 0xA)).toNat + 64 * ((jobAt .ring).ringSlot % max 1 (s.privReg (0x800 + 0x40 * 1 + 0xB)).toNat)) 64 = false ∧
      okOf (s.ringSlotAddr 1 (jobAt .ring).ringSlot) = some 0x4000000000 ∧ SoundLine s (0x4000000000 / 64)) ∧
    ((match handlerState.handler 1 0 0 with
      | .found _ a p x => a == 7 && p == 2 && x == 0x4000000080
      | _ => false) = true ∧ handlerState.tenantState (1 % 16) = 1 ∧ (∀ w ∈ handlerState.saved, w.block.tenant ≠ 1) ∧
      (∀ e ∈ handlerState.jobs, e.2.tenant = 1 → e.2.place ≠ .messages) ∧ handlerState.queued 0 < 512) ∧
    (Same (arenaState 64).here 4 0 ∧ Same (arenaState 64).here 5 64 ∧ Same (arenaState 65).here 5 65 ∧ Same (arenaState 0).here 5 0 ∧
      okOf ((arenaState 64).deviceTranslate 1 (((arenaState 64).privReg (0x800 + 0x40 * 1 + 0x11)).toNat + 32 * 0) .atomic) = some 0x4000000000 ∧
      LineFree (arenaState 64) (0x4000000000 / 64) ∧ ((arenaState 64).block 1).launch ≠ 0 ∧
      ((arenaState 64).read (0x4000000000 + 24) 8).testBit 32 = true ∧ (arenaState 64).read (0x4000000000 + 24) 8 % 2 ^ 32 = ((arenaState 64).launch 1).lid ∧
      (arenaState 64).read (0x4000000000 + 16) 8 + (64 + 63) / 64 * 64 ≤ (arenaState 64).read (0x4000000000 + 8) 8 ∧
      (arenaState 65).read (0x4000000000 + 8) 8 < (arenaState 65).read (0x4000000000 + 16) 8 + (65 + 63) / 64 * 64) := by
  unfold NothingAhead LineFree SoundLine ScopeIs
  refine ⟨⟨same_of ?_, same_of ?_, ?_, ?_, ?_, ?_, ?_, ?_, ?_, ?_, ?_, ?_⟩, ⟨same_of ?_, ?_, ?_, ?_⟩, ?_, ?_, ?_,
    ⟨same_of ?_, same_of ?_, same_of ?_, same_of ?_, ?_, ?_, ?_, ?_, ?_, ?_, ?_⟩⟩ <;> decide +kernel

/-! Faults and the supervisor's forms -/

/-- A record whose fields are at the ends of their ranges; a gang that is not stopped in slots 0 and 48, and one that is. -/
theorem test_witness_faultRecordsAndEntry :
    (15 < 16 ∧ 63 < 64 ∧ 255 < 256 ∧ 31 < 32 ∧ 0xFFFFFFFF < 2 ^ 32 ∧ 0xFFFF < 2 ^ 16) ∧
    (gang.stop = .none ∧ gang.slot < 48 ∧ ((user gang).block 1).tenant < 16) ∧ (supGang.stop = .none ∧ supGang.slot = 48) ∧
    ({ gang with stop := .fault 0 .illegal 1 0 } : Gang).stop ≠ .none ∧
    (AllReleased (user gang) ∧ ¬ AllReleased { user gang with ops := [loadOp] } ∧ (user gang).work = [] ∧
      ((user gang).privReg (0x800 + 0x40 * 1 + 0xC)).toNat = 0 ∧
      (let s := { user gang with priv := [(0x84C, 0x4000000004)] }
       (s.logLine 1) = some 0x100000000 ∧ regionOf (64 * 0x100000000) ≠ .peer ∧ s.hostOwns 0x100000000 = false ∧
        { s with homes := [(0x100000000, { wts := 0, rts := 0, host := .owned })] }.hostOwns 0x100000000 = true)) := by
  unfold AllReleased
  decide +kernel

/-- The last word of a run, in the supervisor gang and in a user slot; codes of TRAP at both sides of 2^16; a request record. -/
theorem test_witness_supervisorCalls :
    LastWord supGang ∧ supGang.isSupervisor = true ∧ LastWord lastGang ∧ lastGang.slot < 48 ∧ lastGang.stop = .none ∧
    Same { lastGang with s := [(5, 0xFFFF)] } 5 0xFFFF ∧ 0xFFFF < 2 ^ 16 ∧ Same { lastGang with s := [(5, 0x10000)] } 5 0x10000 ∧ 2 ^ 16 ≤ 0x10000 ∧
    (let s := { recordState 0 1 with here := { lastGang with s := [(4, 0x4000000000)] } }
     LastWord s.here ∧ RecordAt s (s.fillFor s.here 0x4000000000) 4 .load 0x4000000000 0x4000000000 ∧ NothingAhead s ∧
      Uncached (s.fillFor s.here 0x4000000000) 0 (0x4000000000 / 64) ∧ (s.block 1).tenant < 16) := by
  refine ⟨lastWord_of rfl rfl, ?_, lastGang_last, ?_, ?_, same_of ?_, ?_, same_of ?_, ?_, lastWord_of rfl rfl, recordAt_of (same_of ?_) ?_ ?_, ?_, ?_, ?_⟩ <;>
    first | decide +kernel | (unfold NothingAhead; decide +kernel) | (unfold Uncached; decide +kernel)

/-- A user gang that stopped at the last word of its run for a reason of a kind. -/
def stoppedGang (kind : Nat) : Gang := { lastGang with stop := .fault kind .trap 1 8 }
/-- The supervisor's machine with that gang in slot 0, pending, and ERET's operand in S4. -/
def eretState (kind : Nat) (v : Word64) : State :=
  { sup { supGang with s := [(4, v)] } with gangs := [(0, stoppedGang kind)], cores := [(0, { core1 with supScratch := [(0x38, 1)] })] }

/-- Each mode of ERET with a gang stopped by a fault, an SVC and a TRAP; an entry that is not pending; slot 48 and mode 3. -/
theorem test_witness_returnFromFault :
    (∀ kind ∈ [0, 1, 2, 3], (eretState kind 0x40).isPending 0 0 = true ∧ (eretState kind 0x40).gangs.find (64 * 0 + 0) = some (stoppedGang kind) ∧
      (stoppedGang kind).core = 0 ∧ (stoppedGang kind).slot = 0 ∧ (stoppedGang kind).stop = .fault kind .trap 1 8 ∧ (stoppedGang kind).grp.slices = 1 ∧
      (stoppedGang kind).grp.run = some ⟨4, 3⟩ ∧ 3 + 1 = 4) ∧
    (LastWord (eretState 0 0x40).here ∧ (eretState 0 0x40).here.isSupervisor = true ∧ Same (eretState 0 0).here 4 0 ∧ Same (eretState 0 0x40).here 4 0x40 ∧
      Same (eretState 0 0x80).here 4 0x80 ∧ Same (eretState 0 0).here 5 (0 : Word64).toNat) ∧
    ((eretState 0 0).gangs.find (64 * 0 + 1) = none ∧ { eretState 0 1 with cores := [(0, { core1 with supScratch := [(0xB8, 1)] })] }.isPending 0 1 = true ∧
      (let t0 : Gang := { stoppedGang 0 with halted := true, parted := [{ slices := 2, pc := 0x4000002000, wait := .held }] }
       t0.grp.slices = 1 ∧ t0.grp.run ≠ none ∧ t0.grp.wait = .ready)) ∧
    (Same (eretState 0 1).here 4 1 ∧ (eretState 0 1).isPending 0 1 = false) ∧
    (Same (eretState 0 48).here 4 48 ∧ 48 % 64 = 48 ∧ Same (eretState 0 0xC0).here 4 0xC0 ∧ 0xC0 / 64 % 4 = 3 ∧ 2 ^ 8 ≤ 0x100) := by
  refine ⟨?_, ⟨lastWord_of rfl rfl, ?_, same_of ?_, same_of ?_, same_of ?_, same_of ?_⟩, ?_, ⟨same_of ?_, ?_⟩, ⟨same_of ?_, ?_, same_of ?_, ?_, ?_⟩⟩ <;> decide +kernel

/-- Values at the ends of their ranges for the privileged registers, in each state of the tenant. -/
theorem test_witness_privilegedRegistersAndForms :
    (15 < 16 ∧ 3 < 4 ∧ (sup supGang).here.isSupervisor = true ∧ { sup supGang with mgmt := { (sup supGang).mgmt with started := true } }.coresRun = true) ∧
    (((sup supGang).privReg (0x800 + 0x40 * 0 + 1)).toNat % 4 = 0 ∧ ((sup supGang).privReg (0x800 + 0x40 * 1 + 1)).toNat % 4 = 1 ∧
      ({ sup supGang with priv := [(0x881, 3)] }.privReg (0x800 + 0x40 * 2 + 1)).toNat % 4 = 3 ∧ (sup supGang).ringStopped.contains 1 = false) ∧
    (0xFFFFFFFFFE000 % 2 ^ 13 = 0 ∧ 0xFFFFFFFFFE000 < 2 ^ 52 ∧ 0xFFFFFFFFF0000 % 2 ^ 16 = 0 ∧ 0xFFFFFFFFF0000 < 2 ^ 52 ∧ 0xFFFFFFFF < 2 ^ 32) ∧
    (let s := { sup supGang with priv := (windowState 0).priv }
     s.here.isSupervisor = true ∧ s.windowOk 3 0 0x4000000001 = true ∧ s.windowOk 3 1 0x4000010006 = true ∧ s.windowOk 3 2 0x4100000000 = true ∧
      s.windowOk 3 3 0x1000 = true ∧ s.windowOk 3 0 0x4000000002 = false) ∧
    ((user lastGang).here.isSupervisor = false ∧ (user lastGang).here.grp.marker = none ∧ LastWord (user lastGang).here) :=
  ⟨by decide +kernel, by decide +kernel, by decide +kernel, by decide +kernel, by decide +kernel, by decide +kernel, lastGang_last⟩

/-- The supervisor's machine with nothing begun by tenant 1, and with a gang in slot 0 of core 0; S4 and S5. -/
def invState (x y : Word64) : State := { sup { supGang with s := [(4, x), (5, y)] } with gangs := [(0, gang)] }
/-- A deferred fault of a gang that stands between runs. -/
def deferredGang : Gang := { gang with deferred := [⟨3, false, .shape, 0x4000000010, 0xC0000000, 2, 0, 0, 0⟩], grp := { gang.grp with run := none } }

theorem test_witness_invalidationHaltsAndDeferredFaults :
    ((invState 0x4000000000 1).here.isSupervisor = true ∧ Same (invState 0x4000000000 1).here 4 0x4000000000 ∧ Same (invState 0x4000000000 1).here 5 1 ∧
      (invState 0x4000000000 1).here.grp.run ≠ none ∧ (invState 0x4000000000 1).here.grp.marker = none ∧ (invState 0x4000000000 1).ops = [] ∧
      (∀ e ∈ (invState 0x4000000000 1).cores, e.2.tenant = 1 → e.2.fifo = [] ∧ e.2.cmds = [] ∧ e.2.mq = [])) ∧
    (Same (invState 15 0).here 4 15 ∧ 15 < 16 ∧ Same (invState 16 0).here 4 16 ∧ Same (invState 0x2000000000000 1).here 4 (2 ^ 49)) ∧
    (Same (invState 0x205 0).here 4 0x205 ∧ 0x205 / 64 % 4 = 0 ∧ (invState 0x205 0).gang 2 5 = none ∧ Same (invState 0 0).here 4 0 ∧
      (invState 0 0).gangs.find (64 * 0 + 0) = some gang ∧ gang.halted = false ∧
      { invState 0 0 with gangs := [(0, { gang with halted := true })] }.gangs.find 0 = some { gang with halted := true } ∧ Same (invState 48 0).here 4 48 ∧ 48 % 64 = 48 ∧ 2 ^ 16 ≤ 0x10000) ∧
    (deferredGang.deferred ≠ [] ∧ deferredGang.grp.run = none ∧ deferredGang.parted = [] ∧ deferredGang.grp.slices ≠ 0 ∧ deferredGang.halted = false ∧
      deferredGang.stop = .none ∧ deferredGang.slot < 48 ∧ deferredGang.ended = false ∧ ((user deferredGang).block 1).tenant < 16) ∧
    ((gridState true (.grid 3)).phasedGang (gridState true (.grid 3)).here = true ∧ (gridState true (.grid 3)).here.grp.wait = .grid 3) := by
  refine ⟨⟨?_, same_of ?_, same_of ?_, ?_, ?_, ?_, ?_⟩, ⟨same_of ?_, ?_, same_of ?_, same_of ?_⟩, ⟨same_of ?_, ?_, ?_, same_of ?_, ?_, ?_, ?_, same_of ?_, ?_, ?_⟩, ?_, ?_⟩ <;>
    decide +kernel

/-! The engines -/

/-- The gang at a matrix word: a record of global memory, one of its carve-out, a slot list of one slot, a slot. -/
def matGang : Gang := { gang with s := [(4, 0x4000000040), (5, 0x80), (6, 127), (7, 0x8000000000000040)] }

/-- Records of both kinds, at the edges of their ranges; the largest slot; a flag at 62 and none; a tile of the block and none. -/
theorem test_witness_matrixWords :
    (Same matGang 4 0x4000000040 ∧ Same matGang 5 0x80 ∧ Same matGang 6 127 ∧ Same matGang 7 0x8000000000000040 ∧ slotList 0x80 8 = some [0] ∧ 127 < 128) ∧
    (1 < ((user matGang).block matGang.block).accCount ∧ ¬ 2 < ((user matGang).block matGang.block).accCount) ∧
    (RecordNamed (user matGang) 0x4000000040 ∧ RecordNamed (user matGang) 0x8000000000000040 ∧ RecordNamed (user matGang) (2 ^ 63 + 4096 - 64)) ∧
    (FlagReady { matGang with flags := [(3, 62)] } 3 ∧ FlagReady matGang 15) ∧
    ((user matGang).core matGang.core).admits (matOpOf (user matGang) (.mma false true true) 1 0x4000000040 0x80 3) = true ∧
    ((user matGang).core matGang.core).admits (matOpOf (user matGang) (.wload false) 127 0x4000000040 0 15) = true ∧
    ((user matGang).core matGang.core).admits (matOpOf (user matGang) (.dmma true) 1 0x4000000040 0x8000000000000040 15) = true ∧
    (∀ sl ∈ matGang.members, modeRnd (matGang.modeOf sl) = modeRnd matGang.firstMode) ∧ 0x80 < 2 ^ 11 := by
  refine ⟨⟨same_of ?_, same_of ?_, same_of ?_, same_of ?_, ?_, ?_⟩, ?_, ⟨?_, ?_, ?_⟩, ⟨?_, ?_⟩, ?_, ?_, ?_, ?_, ?_⟩ <;>
    first | decide +kernel | (unfold RecordNamed; decide +kernel) | (unfold FlagReady; decide +kernel)

/-- An Umbra entry of layer 5 and key 9 in the cache of core 0. -/
def umbraEntry : UmbraEntry := ⟨1, 5, 9, [], [], [0], [(0, 0)], 0, 1, 0, 32, 64, 3, 100, some 0⟩
/-- The machine with that entry and the generation of its source region; the gang's LAYER names layer 5 and REFRESH 4. -/
def umbraState (v : Word64) (gen : Nat) : State :=
  { user { gang with layer := 0x104000005, s := [(4, v), (5, 9)] } with umbra := [umbraEntry], wsGen := [(0, gen)] }

/-- A machine whose queue holds an operation on tile 1 of the gang's block, which ACCCHK waits for. -/
def busyTile : State := { user gang with cores := [(0, { core1 with mq := [{ id := 3, slot := 0, block := 1, gangId := 0, kind := .accz, target := 1 }] })] }

/-- A tile whose rows pass and one whose row 2 fails, with the queue empty and not, and after a fault of the gang; LAYER's values at their ends; each mode of DINVAL; entries absent, stale and current. -/
theorem test_witness_tileAndLayerForms :
    ((∀ s ∈ [user gang, busyTile], gang.grp.since = none ∧ InSlot gang ∧ GivenOut s gang.core ∧
        (s.core gang.core).admits (matOpOf s .accchk 1 0 0 15) = true) ∧
      (∀ o ∈ ((user gang).core gang.core).mq, o.tile ≠ some (gang.block, 1) ∧ (o.started = true ∨ o.kind = .accchk)) ∧ gang.deferred = [] ∧
      (∃ o ∈ (busyTile.core gang.core).mq, o.tile = some (gang.block, 1)) ∧
      ∃ d ∈ [(⟨3, false, .shape, 0, 0, 2, 0, 0, 0⟩ : Deferred)], d.engine = false ∧ d.op < (user gang).nextId) ∧
    (1 < ((user gang).block gang.block).accCount ∧
      ((user gang).accTile gang.block 1).failing (List.range 32) = none ∧
      ({ (user gang).accTile gang.block 1 with c := [(128, 0x3F800000)] } : AccTile).failing (List.range 32) = some 2) ∧
    (Same (umbraState 0x104000005 0).here 4 0x104000005 ∧ 0x104000005 < 2 ^ 33 ∧ 0x104000005 / 2 ^ 24 % 2 ^ 8 ≠ 0 ∧ 0xFFFFFFFF < 2 ^ 33 ∧
      Same (umbraState 0x100000005 0).here 4 0x100000005 ∧ 2 ^ 32 ≤ 0x100000005 ∧ 0x100000005 / 2 ^ 24 % 2 ^ 8 = 0) ∧
    (Same (umbraState 5 0).here 4 5 ∧ Same (umbraState 5 0).here 5 9 ∧ Same (umbraState 0x2FFFF 0).here 4 0x2FFFF ∧ 0x2FFFF < 2 ^ 18 ∧ 0x2FFFF / 2 ^ 16 % 4 = 2 ∧
      (∀ e ∈ (umbraState 5 0).cores, ∀ o ∈ e.2.mq, o.isDelta = false) ∧ (∀ o ∈ ((umbraState 5 0).core 0).mq, o.isDelta = false) ∧
      Same (umbraState 0x30000 0).here 4 0x30000 ∧ 0x30000 / 2 ^ 16 % 4 = 3 ∧ Same (umbraState 0x40000 0).here 4 0x40000) ∧
    (Same (umbraState 9 0).here 4 9 ∧
      (∀ o ∈ ((umbraState 9 0).core 0).mq, o.isDelta = true → (umbraState 9 0).here.grp.since.getD (umbraState 9 0).nextId ≤ o.id) ∧ (umbraState 8 0).umbra.find? (fun e => decide (e.tenant = 1 ∧ e.layer = 5 ∧ e.key = 8)) = none ∧
      (umbraState 9 0).umbra.find? (fun e => decide (e.tenant = 1 ∧ e.layer = 5 ∧ e.key = 9)) = some umbraEntry ∧
      (∃ p ∈ umbraEntry.sources, Table.get 0 (umbraState 9 1).wsGen p.1 ≠ p.2) ∧ (∀ p ∈ umbraEntry.sources, Table.get 0 (umbraState 9 0).wsGen p.1 = p.2) ∧
      umbraEntry.count < 0x104000005 / 2 ^ 24 % 2 ^ 8) := by
  unfold InSlot GivenOut
  refine ⟨?_, ?_, ⟨same_of ?_, ?_, ?_, ?_, same_of ?_, ?_, ?_⟩, ⟨same_of ?_, same_of ?_, same_of ?_, ?_, ?_, ?_, ?_, same_of ?_, ?_, same_of ?_⟩,
    ⟨same_of ?_, ?_, ?_, ?_, ?_, ?_, ?_⟩⟩ <;> decide +kernel

/-- A matrix operation of the gang on the pipe that has not started. -/
def matOp (kind : MatKind) (target : Nat) : MatOp := { id := 3, slot := 0, block := 1, gangId := 0, kind := kind, target := target, flag := some 2 }
/-- The machine with that operation in the queue of core 0, at cycle 100. -/
def matState (o : MatOp) : State := { user { gang with flags := [(2, 1)] } with cores := [(0, { core1 with mq := [o] })], cycle := 100 }
/-- A K-step, which takes 4 cycles to stage and 8 plane cycles. -/
def kStep : KStep := { desc := 0x80, tile := {}, staging := 4, cost := 8 }
/-- An MMA that has started and has one K-step left. -/
def mmaOp (k : KStep) : MatOp := { matOp (.mma false true false) 1 with started := true, steps := [k] }

/-- WCLR and ACCZ before they start; a K-step to be staged, staged, and with its planes run in time and not yet. -/
theorem test_witness_matrixQueueSteps :
    (∀ n < 2, let o := if n = 0 then matOp .wclr 127 else matOp .accz 1
      OwnedHere (matState o).here 0 o.slot o.block o.gangId ∧ ((matState o).core 0).mq.find? (fun p => p.id == 3) = some o ∧ (matState o).nextMat 0 = some o ∧
      (matState o).matDiscarded 0 o = false ∧ ((matState o).blocks.find o.block).isSome = true) ∧
    (OwnedHere (matState (mmaOp kStep)).here 0 0 1 0 ∧ ((matState (mmaOp kStep)).core 0).mq.head? = some (mmaOp kStep) ∧
      ((matState (mmaOp kStep)).core 0).rowBuffer = [] ∧ kStep.staged = none ∧ (mmaOp kStep).steps = [kStep] ∧
      (100 ≤ (matState (mmaOp kStep)).cycle ∧ (88 + 12 ≤ (matState (mmaOp kStep)).cycle ∧ (matState (mmaOp kStep)).cycle < 89 + 12)) ∧
      (mmaOp kStep).entry = none ∧ kStep.diff = none ∧ kStep.added = false ∧ (mmaOp kStep).mismatch = 0) ∧
    (31 < 32 ∧ 63 < 64) := by
  unfold OwnedHere
  refine ⟨?_, ?_, ?_⟩
  · decide +kernel
  · and_intros <;> decide +kernel
  · decide

/-- A computation that reads finds these parts. -/
theorem scan_of {ε α : Type} {r : Except ε (α × Scan)} {a : α} {s : State} {w : Nat} {b : Bool}
    (h : okOf (r.map (fun q => ((q.1, q.2.s), q.2.wts, (q.2.seen : List (Nat × Nat)).isEmpty, q.2.gone))) = some ((a, s), w, true, b)) :
    ∃ q, r = .ok q ∧ q = (a, ⟨s, w, [], b⟩) := by
  cases r with
  | error e => cases h
  | ok q =>
    obtain ⟨x, t, n, m, c⟩ := q
    simp only [okOf, Except.map, Option.some.injEq, Prod.mk.injEq, List.isEmpty_iff] at h
    obtain ⟨⟨rfl, rfl⟩, rfl, rfl, rfl⟩ := h
    exact ⟨_, rfl, rfl⟩

/-- A shape record of one byte at offset 0x100 of the carve-out, with its check. -/
def shapeRecord : Nat := let x := 0x100 + 2 ^ 64 + 2 ^ 80 + 13 * 2 ^ 96 + 1 * 2 ^ 104 + 2 ^ 160
  x + shapeCheck x * 2 ^ 448
/-- What it says. -/
def oneByte : Shape := ⟨0x100, 1, 1, 13, 1, false, 0, 0, 1, 0, 0, 0, 0, 0⟩
/-- AFILL of the value 7 into that shape, whose record is at offset 0x40 of the carve-out, on channel 7. -/
def fillCmd : CopyCmd :=
  { id := 4, slot := 0, block := 1, gangId := 0, kind := 3, ctl := 7, drec := 0x8000000000000040, srec := 7, flag := some 2, ats := 0, pts := 0, pc := 0, word := 0
    index := 0 }
/-- The command once it has started. -/
def fillStarted : CopyCmd := { fillCmd with started := true, dst := some oneByte }
/-- AGATH of the row that the index list at 0x300 names, from that shape into it. -/
def gatherCmd : CopyCmd := { fillCmd with kind := 1, ctl := 7 + 0x300 * 2 ^ 24, srec := 0x8000000000000040 }
/-- The command once it has started. -/
def gatherStarted : CopyCmd := { gatherCmd with started := true, dst := some oneByte, src := some oneByte, list := [0] }
/-- One byte of global memory, and the AFILL that writes it, which has started. -/
def globalByte : Shape := ⟨0x4000000100, 1, 1, 13, 0, false, 0, 0, 1, 0, 0, 0, 0, 0⟩
def globalStarted : CopyCmd := { fillStarted with dst := some globalByte, pages := [(0x4000000100 / 2 ^ 19, 0x4000000000)] }
/-- An AFILL that counts into the barrier object at 0x200 and arrives there. -/
def countingFill : CopyCmd := { fillStarted with ctl := 7 + 8 + 16 + 0x20 * 2 ^ 8 }
/-- The machine with a command in the engine of core 0, and the record in the block's carve-out; S4 and S5 are a gang's operands. -/
def copyState (k : CopyCmd) (x y : Word64) : State :=
  let s := user { gang with flags := [(2, 1)], s := [(4, x), (5, y), (6, 7), (7, 0x4000000001)] }
  { s with cores := [(0, { core1 with cmds := [k] })]
           blocks := [(1, { s.block 1 with scratch := (bytesOf 64 shapeRecord).mapIdx (fun i b => (0x40 + i, b)) })] }

/-- Control words with a barrier object at the end of the carve-out, with an index list there, with none, and one that no command takes; a
record address that is not aligned; the engine with room. -/
theorem test_witness_copyEngineForms :
    (let s := copyState fillCmd 0x8000000000000040 (8 + 255 * 2 ^ 8)
     Same s.here 4 0x8000000000000040 ∧ Same s.here 5 (8 + 255 * 2 ^ 8) ∧ Same s.here 7 0x4000000001 ∧ ControlWord s (8 + 255 * 2 ^ 8) 0 ∧
      ControlWord s (4092 * 2 ^ 24) 1 ∧ ControlWord s (4092 * 2 ^ 24) 2 ∧ ControlWord s 7 3 ∧ ¬ ControlWord s (8 + 256 * 2 ^ 8) 0 ∧
      ¬ ControlWord s (1 * 2 ^ 24) 3 ∧ RecordNamed s 0x8000000000000040 ∧ FlagReady s.here 2 ∧
      (s.core s.here.core).cmds.length < 64 ∧ (0x4000000001 : Nat) < 2 ^ 49 ∧ 0x4000000001 % 64 ≠ 0 ∧
      s.scratchOps s.here.key = [] ∧ (s.copyLocks s.here.core { fillCmd with id := s.nextId }).map (fun l => decide ((s.core s.here.core).locks.length + l.length ≤ 64)) =
        some true) ∧
    (let s := copyState fillCmd 0 0
     OwnedHere s.here 0 fillCmd.slot fillCmd.block fillCmd.gangId ∧ (s.core 0).cmds.find? (fun p => p.id == 4) = some fillCmd ∧ fillCmd.stopping = false ∧
      s.here.deferred = [] ∧ fillCmd.started = false ∧ s.cmdHeld 0 fillCmd = false ∧ fillCmd.gathers = false ∧ fillStarted.id = 4 ∧
      ∃ q, (s.recordReader 0 fillCmd).startCopy { s.copyReader 0 fillCmd with weak := fillCmd.gathers } s fillCmd = .ok q ∧ q = ((fillStarted, []), ⟨s, 0, [], false⟩)) ∧
    (let s := copyState fillStarted 0 0
     fillStarted.started = true ∧ fillStarted.sent = false ∧ s.enginesHeld fillStarted.block = false ∧
      fillStarted.dst.bind (s.sideOf 0 fillStarted) = some ⟨oneByte, some (.block 1), false⟩ ∧ fillStarted.src = none ∧
      (∃ q, { s.copyReader 0 fillStarted with weak := fillStarted.gathers }.granuleWrites fillStarted ⟨oneByte, some (.block 1), false⟩ none { s := s } 0 = .ok q ∧
        q = ([⟨0x100, 255, 7⟩], ⟨s, 0, [], false⟩)) ∧
      fillStarted.total ≤ (0 + 1) * fillStarted.perGranule ∧ fillStarted.arrives = false ∧ fillStarted.counts = false ∧ s.here.slot ≠ 48 ∧
      (s.blocks.find fillStarted.block).isSome = true ∧ fillStarted.chan < 8 ∧ ([⟨0x100, 255, 7⟩].map ByteWrite.addr).Nodup) ∧
    (let s := copyState gatherCmd 0 0
     s.cmdHeld 0 gatherCmd = false ∧ gatherCmd.gathers = true ∧
      ∃ q, (s.recordReader 0 gatherCmd).startCopy { s.copyReader 0 gatherCmd with weak := gatherCmd.gathers } s gatherCmd = .ok q ∧ q = ((gatherStarted, []), ⟨s, 0, [], false⟩)) ∧
    (let s := copyState globalStarted 0 0
     s.enginesHeld globalStarted.block = false ∧ globalStarted.dst.bind (s.sideOf 0 globalStarted) = some ⟨globalByte, none, false⟩ ∧
      (∃ q, { s.copyReader 0 globalStarted with weak := globalStarted.gathers }.granuleWrites globalStarted ⟨globalByte, none, false⟩ none { s := s } 0 = .ok q ∧
        q = ([⟨0x4000000100, 255, 7⟩], ⟨s, 0, [], false⟩)) ∧
      regionOf (64 * (0x4000000100 / 64)) ≠ .peer ∧ s.hostOwns (0x4000000100 / 64) = false ∧ { globalStarted with sent := true }.peerAcks = [] ∧
      ∀ e ∈ (s.core 0).fifo, 4 ∉ e.engines) ∧
    (countingFill.counts = true ∧ countingFill.arrives = true ∧ countingFill.barrier = 0x200 ∧ ∀ b ∈ [(⟨0x100, 255, 7⟩ : ByteWrite)], b.addr < 0x200) := by
  refine ⟨?_, ?_, ?_, ?_, ?_, ?_⟩
  · dsimp only
    refine ⟨same_of ?_, same_of ?_, same_of ?_, ?_, ?_, ?_, ?_, ?_, ?_, ?_, ?_, ?_, ?_, ?_, ?_, ?_⟩ <;>
      first | decide +kernel | (unfold ControlWord; decide +kernel) | (unfold RecordNamed; decide +kernel) | (unfold FlagReady; decide +kernel)
  · dsimp only
    refine ⟨?_, ?_, ?_, ?_, ?_, ?_, ?_, ?_, scan_of ?_⟩ <;> first | decide +kernel | (unfold OwnedHere; decide +kernel)
  · dsimp only
    refine ⟨?_, ?_, ?_, ?_, ?_, scan_of ?_, ?_, ?_, ?_, ?_, ?_, ?_, ?_⟩ <;> decide +kernel
  · exact ⟨by decide +kernel, by decide +kernel, scan_of (by decide +kernel)⟩
  · exact ⟨by decide +kernel, by decide +kernel, scan_of (by decide +kernel), by decide +kernel, by decide +kernel, by decide +kernel, by decide +kernel⟩
  · decide +kernel

/-- A delta operation of the gang whose shape is that byte and whose slot is 0, with LAYER.EN and layer 5. -/
def dmmaOp : MatOp := { matOp (.dmma false) 1 with record := 0x8000000000000040, list := 0x8000000000000080, layer := 0x104000005 }
/-- The machine with it at the head of core 0's queue, its slot loaded from the weight store, and its entry in the cache of a core. -/
def dmmaState (holder : Option Nat) : State :=
  let s := copyState fillCmd 0 0
  { s with cores := [(0, { core1 with mq := [dmmaOp], slots := [(0, { clearedSlot with src := 1, fmt := 13 })] }), (1, core1)]
           blocks := [(1, { s.block 1 with scratch := (s.block 1).scratch ++ [(0x80, 0x80)] })]
           umbra := [{ umbraEntry with key := 0, cachedBy := holder }] }

/-- R194: an entry that core 1 holds and core 0 needs, and one that no core holds; a tile with an add in this cycle. -/
theorem test_witness_umbraAndAdds :
    ((dmmaState (some 1)).umbra.find? (fun e => decide (e.tenant = 1 ∧ e.layer = 5 ∧ e.key = 0)) = some { umbraEntry with key := 0, cachedBy := some 1 } ∧
      0 ∈ (dmmaState (some 1)).cores.keys ∧ (dmmaState (some 1)).needsEntry 0 1 5 0 = true) ∧
    after (exec (.umbraEntryTransfer 1 5 0) (dmmaState (some 1))) (fun t => t.umbra.map UmbraEntry.cachedBy) = some [none] ∧
    after (exec (.umbraEntryTransfer 1 5 0) (dmmaState (some 0))) (fun t => t.umbra.map UmbraEntry.cachedBy) = some [some 0] ∧
    (let c : Core := { core1 with adds := [(100, 1, 1)] }
     (100, 1, 1) ∈ c.adds) := by
  decide +kernel

/-- A shape of one f16 element. -/
def oneHalf : Shape := { oneByte with fmt := 1 }

/-- R167, R168: 3 times 5 is 15, ∞ times 1 is ∞, ∞ times 0 and a NaN are invalid; 15 lies below 2^4 and reaches 2^3. -/
theorem test_witness_kStep :
    (let total := fun (sh : Shape) (x y : Nat) =>
      kstepTotal (alignA sh false [(0, 0, ⟨x, 0⟩)]) { clearedSlot with fmt := sh.fmt, data := denseB sh [(0, 0, ⟨y, 0⟩)] } 0 0
     finite (total oneByte 3 5) = some 15 ∧ total oneHalf 0x7C00 0x3C00 = .inf false ∧ total oneHalf 0x7C00 0 = .nan ∧ total oneHalf 0x7F80 0x3C00 = .nan) ∧
    ((alignA oneHalf false [(0, 0, ⟨0x7C00, 0⟩)]).mark 0 0 = 1 ∧ (alignA oneHalf false [(0, 0, ⟨0x7F80, 0⟩)]).mark 0 0 = 3 ∧
      (alignA oneByte false [(0, 0, ⟨3, 0⟩)]).mark 0 0 = 0) ∧
    ((∀ v ∈ [(15 : Rat), 0], v < 2 ^ ((3 : Int) + 1) ∧ -v < 2 ^ ((3 : Int) + 1)) ∧ ∃ v ∈ [(15 : Rat), 0], 2 ^ (3 : Int) ≤ v ∨ 2 ^ (3 : Int) ≤ -v) ∧
    ((planesOf 13).isSome = true ∧ ([(0, 0, (⟨3, 0⟩ : Elem))].map (fun e => (e.1, e.2.1))).Nodup) := by
  decide +kernel

/-! Launches, dispatch and the ends of blocks -/

/-- What a read finds, or zero in an empty machine. -/
def readOf {ε : Type} (r : Except ε (Nat × Nat × State)) : Nat × Nat × State := (okOf r).getD (0, 0, user gang)

theorem read_of {ε : Type} {r : Except ε (Nat × Nat × State)} (h : (okOf r).isSome = true) : r = .ok (readOf r) := by
  cases r with
  | error e => cases h
  | ok a => rfl

/-- The kernel of one gang of 16 lanes with 4 granules and a carve-out of 4 KiB. -/
def kernel : Descriptor :=
  { entry := 0x4000010000, lanes := 16, gm1 := 0, phased := false, gridbar := false, carry := 0, accs := 0, scratch := 4096, roles := [(0, 4)]
    eph := [0, 0, 0, 0, 0], ephv := false }
/-- Its descriptor in memory, and the record of a launch of two blocks of it, with ARG 5, LID 7 and a completion record at 0x40_0000_4000. -/
def kernelBytes : Nat := 0x4000010000 + 16 * 2 ^ 64 + 4096 * 2 ^ 96 + 0x40 * 2 ^ 128
def launchBytes : Nat := 0x4000002000 + 5 * 2 ^ 64 + (2 + 2 ^ 16 + 2 ^ 32) * 2 ^ 128 + 2 ^ 192 + 7 * 2 ^ 224 + 0x4000004000 * 2 ^ 320 +
  (0x0001000100010001 + 0x0001000100010001 * 2 ^ 128 + 0xE4 * 2 ^ 192 + 2 ^ 256) * 2 ^ 512
/-- The machine with a queued launch of that record, in queue 2 of tenant 1, whose core mask is core 0; `y` stands at the descriptor. -/
def launching (y : Nat) : State :=
  let s := ((user gang).setBytes 0x4000000000 (bytesOf 128 launchBytes)).setBytes 0x4000002000 (bytesOf 128 y)
  { s with blocks := [], launches := [(6, { tenant := 1, queue := 2, order := 6, record := 0x4000000000 })]
           priv := [(0x840, 0x4000100000), (0x841, 1), (0x842, 1)] }

/-- Addresses at both ends; a tenant that is ACTIVE and one that is OFF; a queue with room; a record that passes every check, and one whose
descriptor is malformed. -/
theorem test_witness_launchWindows :
    (1 < 16 ∧ 2 < 4 ∧ ((0x4000000000 % 128 = 0 ∧ 0x4000000000 < 2 ^ 49) ∧ ¬ (0x4000000040 % 128 = 0 ∧ 0x4000000040 < 2 ^ 49)) ∧ (user gang).tenantState 1 = 1 ∧
      (user gang).tenantState 0 = 0 ∧ (user gang).depth 1 2 < 256 ∧ (launching kernelBytes).arenaOwned 1 = false) ∧
    (∀ n < 2, let y := if n = 0 then kernelBytes else 0
      let s := launching y
      let q1 := readOf (s.readTenant 1 0 0x4000000000 64)
      let q2 := readOf (q1.2.2.readTenant 1 0 0x4000000040 64)
      let q3 := readOf (q2.2.2.readTenant 1 0 (q1.1 % 2 ^ 64) 128)
      s.launches.find? (fun e => e.2.tenant == 1 && e.2.queue == 2 && e.2.stage == .queued) = some (6, s.launch 6) ∧ s.tenantState 1 = 1 ∧ s.mgmt.error = none ∧
        (okOf (s.readTenant 1 0 0x4000000000 64)).isSome = true ∧ q1.2.2.walkHeld 1 (q1.1 / 2 ^ 320 % 2 ^ 64) = false ∧ q1.2.2.walkHeld 1 (q1.1 % 2 ^ 64 + 127) = false ∧
        okOf (q1.2.2.deviceTranslate 1 (q1.1 / 2 ^ 320 % 2 ^ 64) .store) = some 0x4000004000 ∧ (okOf (q1.2.2.readTenant 1 0 0x4000000040 64)).isSome = true ∧
        okOf (q2.2.2.deviceTranslate 1 (q1.1 % 2 ^ 64 + 127) .load) = some 0x400000207F ∧ (okOf (q2.2.2.readTenant 1 0 (q1.1 % 2 ^ 64) 128)).isSome = true ∧
        parseDescriptor q3.1 = (if n = 0 then some kernel else none) ∧
        (let x := q1.1 + q2.1 * 2 ^ 512
         x % 2 ^ 64 % 128 = 0 ∧ launchRecordOk x kernel (q3.2.2.tenantClusters 1) = true ∧ kernel.granules ≤ 252 ∧ kernel.scratch ≤ 131072 * (q1.1 / 2 ^ 192 % 8) ∧
          q3.2.2.allowedCores 1 (x / 2 ^ 768 % 2 ^ 64) (q1.1 / 2 ^ 196 % 4 + 1) = [0] ∧ (kernel.gridbar = false ∨ kernel.phased = true))) := by
  refine ⟨?_, ?_⟩ <;> decide +kernel

/-- A running launch of two blocks of the kernel on core 0, in a phase. -/
def running (phase : Nat) : Launch :=
  { tenant := 1, queue := 2, order := 6, stage := .running, lid := 7, arg := 5, blocks := 2, split := 1, desc := some { kernel with phased := phase != 0 }
    phase := phase, phbase := 0x4000008000, eph := [(4, 1)], cpl := 0x4000004000 }
/-- The machine with that launch under key 6, and no block. -/
def dispatching (phase : Nat) : State :=
  { user gang with blocks := [], launches := [(6, running phase)], priv := [(0x840, 0x4000100000), (0x841, 1), (0x842, 1)] }
/-- A card of one block for cluster 0, of a task or of a handler. -/
def card (launch : Option Nat) : Job :=
  { tenant := 1, cluster := 0, place := .queue, order := 8, descAddr := 0x4000002000, arg := 9, blocks := 1, ranks := 1, prio := 0, launch := launch
    desc := if launch = none then some kernel else none }
/-- The machine with that card under key 8. -/
def tasking (launch : Option Nat) : State :=
  { launching kernelBytes with launches := [(6, { running 0 with started := 2 })], jobs := [(8, card launch)] }

/-- A launch of the kernel as one cluster of two blocks. -/
def clustered : Launch := { running 0 with ranks := 2 }
/-- The machine with it, and cores 0 and 1 for tenant 1. -/
def clustering : State := { dispatching 0 with launches := [(6, clustered)], priv := [(0x840, 0x4000100000), (0x841, 1), (0x842, 3)] }

/-- The launch at phase 1, and the machine with its first block's record: zero but for its check (R49). -/
def rephased : Launch := { running 1 with blockKeys := [(0, 9)] }
def rephasing : State :=
  { (dispatching 1).setBytes 0x400000803E [0xD2, 0xD2] with launches := [(6, rephased)] }
/-- A kernel's launch whose records do not translate. -/
def lostRecords : Launch := { rephased with phbase := 0x4020000000 }

/-- A grid's next block, or cluster; a task's, a handler's, and that of a later phase, each with core 0 free; a task whose descriptor is malformed. -/
theorem test_witness_blocksAndTasksStart :
    ((running 0).desc = some kernel ∧ (running 0).phase = 0 ∧ (running 0).atOnce = false ∧ (running 0).nextUnit = some (0, [0]) ∧
      (dispatching 0).launches.find 6 = some (running 0) ∧ (dispatching 0).launchReady 6 (running 0) = true ∧ (dispatching 0).unitFits (running 0) 0 = true ∧
      (dispatching 0).outranked ((dispatching 0).launchRank (running 0)) (unitCores (running 0).ranks [0]) = false) ∧
    (clustered.desc = some kernel ∧ clustered.phase = 0 ∧ clustered.atOnce = false ∧ clustered.nextUnit = some (0, [0, 1]) ∧ clustering.launches.find 6 = some clustered ∧
      clustering.launchReady 6 clustered = true ∧ clustering.unitFits clustered 0 = true ∧
      clustering.outranked (clustering.launchRank clustered) (unitCores clustered.ranks [0]) = false) ∧
    (∀ n < 2, let launch := if n = 0 then some 6 else none
      let s := tasking launch
      s.jobs.find 8 = some (card launch) ∧ (card launch).place = .queue ∧ s.dependence (card launch) = some 0 ∧ (card launch).ranks = 1 ∧ s.jobReady 8 (card launch) = true ∧
        s.jobDescriptor (card launch) = some (kernel, 1) ∧ s.jobFits (card launch) 0 = true ∧ s.outranked (card launch).rank (unitCores 1 [0]) = false) ∧
    (let s := { launching 0 with launches := [(6, running 0)], jobs := [(8, card (some 6))] }
     s.jobs.find 8 = some (card (some 6)) ∧ s.jobReady 8 (card (some 6)) = true ∧ s.jobDescriptor (card (some 6)) = none) ∧
    (let s := rephasing
     s.launches.find 6 = some rephased ∧ rephased.phase ≠ 0 ∧ s.launchReady 6 rephased = true ∧ s.unitFits rephased 0 = true ∧
      s.outranked (s.launchRank rephased) (unitCores 1 [0]) = false ∧ rephased.nextUnit = some (0, [0]) ∧
      okOf (s.deviceTranslate 1 0x4000008000 .load) = some 0x4000008000 ∧ s.walkHeld 1 0x4000008000 = false ∧
      ∀ x ∈ List.range' (0x4000008000 / 64) ((0x4000008000 + phaseBytes 0 + 63) / 64 - 0x4000008000 / 64), SoundLine s x) ∧
    (let s := { rephasing with launches := [(6, lostRecords)] }
     s.launches.find 6 = some lostRecords ∧ s.launchReady 6 lostRecords = true ∧ s.unitFits lostRecords 0 = true ∧
      (match s.resumeUnit 6 0 with
        | .error c => c == .xlate
        | .ok _ => false) = true) := by
  unfold SoundLine
  refine ⟨?_, ?_, ?_, ?_, ?_, ?_⟩ <;> decide +kernel

/-- The check of that record, over the bytes that stand in memory. -/
theorem test_witness_phaseRecord : let x := 0xD2D2 * 2 ^ 496
    rephasing.read 0x4000008000 (phaseBytes 0) = x ∧ recordCheck x (checkedHalves 0) = x / 2 ^ 496 % 2 ^ 16 ∧ x / 2 ^ 39 % 2 ^ 16 ≠ 0xFFFF := by
  decide +kernel

/-- A gang whose slices have all exited, in slot 3; its block, which has no other. -/
def exitedGang : Gang := { gang with slot := 3, block := 9, exited := BitVec.allOnes 16 }
/-- A block of the launch under key 6. -/
def blockOf6 (live : Nat) : Block := { tenant := 1, launch := 6, live := live, scratchSize := 4096 }
/-- A gang of block 9 that stands whole in BARWAIT.GRID of phase 1. -/
def phaseGang : Gang := { gang with block := 9, slot := 3, grp := { gang.grp with wait := .grid 2, run := some ⟨4, 3⟩ } }
/-- The machine with block 9 in the launch, and its gang in slot 3. -/
def endingState (phase live : Nat) (g : Gang) : State := { dispatching phase with blocks := [(9, blockOf6 live)], gangs := [(3, g)] }

/-- A gang that may end, a block that may, a block at its phase boundary, and a launch whose blocks have ended. -/
theorem test_witness_gangsAndBlocksEnd :
    (let s := endingState 0 1 exitedGang
     s.gang 0 3 = some exitedGang ∧ exitedGang.core = 0 ∧ exitedGang.slot = 3 ∧ exitedGang.exited = BitVec.allOnes 16 ∧ exitedGang.deferred = [] ∧
      exitedGang.stop = .none ∧ (∀ o ∈ s.ops, o.gang ≠ exitedGang.key) ∧ s.engineWork 0 9 0 = false ∧ s.blocks.find 9 = some (blockOf6 1) ∧
      s.launches.find 6 = some (running 0)) ∧
    (let s := { endingState 0 0 exitedGang with gangs := [] }
     s.blocks.find 9 = some (blockOf6 0) ∧ (blockOf6 0).ended = false ∧ (blockOf6 0).live = 0 ∧ (∀ k ∈ (s.core 0).cmds, k.block ≠ 9) ∧
      (∀ o ∈ (s.core 0).mq, o.block ≠ 9) ∧ (blockOf6 0).job = none ∧ s.launches.find 6 = some (running 0) ∧ (blockOf6 0).causes = []) ∧
    (let s := endingState 1 1 phaseGang
     s.blocks.find 9 = some (blockOf6 1) ∧ s.launches.find 6 = some (running 1) ∧ (running 1).desc = some { kernel with phased := true } ∧
      s.gangsOf 9 = [phaseGang] ∧ phaseGang.remaining ≠ 0 ∧ s.atPhaseEnd phaseGang 1 = true ∧ s.recordsHeld (running 1) (blockOf6 1) = false ∧ (blockOf6 1).causes = [] ∧ phaseGang.lcause = 0 ∧ (∀ k ∈ (s.core 0).cmds, k.block ≠ 9) ∧ (∀ o ∈ (s.core 0).mq, o.block ≠ 9) ∧
      (okOf (s.writeRecords (running 1) (blockOf6 1) kernel.carry (s.gangsOf 9))).isSome = true) ∧
    (let b := { blockOf6 0 with job := some 8 }
     let s := { tasking (some 6) with blocks := [(9, b)], jobs := [(8, { card (some 6) with place := .running, started := 1 })] }
     s.blocks.find 9 = some b ∧ (∀ k ∈ (s.core 0).cmds, k.block ≠ 9) ∧ (∀ o ∈ (s.core 0).mq, o.block ≠ 9) ∧
      s.jobs.find 8 = some { card (some 6) with place := .running, started := 1 } ∧ b.causes = []) ∧
    (let b := { blockOf6 0 with job := some 8, ended := true }
     let j := { card (some 6) with place := .running, started := 1, ended := 1, doneMark := some 11, donectr := 0x4000005000 }
     let s := { tasking (some 6) with blocks := [(9, b)], jobs := [(8, j)] }
     s.blocks.find 9 = some b ∧ s.jobs.find 8 = some j ∧ s.counterWaits j = false ∧ (∀ e ∈ s.cores, ∀ it ∈ e.2.fifo, 11 ≤ it.id ∨ 6 ∉ it.launches) ∧
      okOf (s.deviceTranslate 1 0x4000005000 .atomic) = some 0x4000005000) ∧
    (let l := { running 0 with started := 2, ended := 2 }
     let s := { dispatching 0 with launches := [(6, l)] }
     s.launches.find 6 = some l ∧ l.stage = .running ∧ l.aborted = false ∧ l.stopping = none ∧ l.fault = none ∧ s.mgmt.error = none ∧ l.ended = l.blocks ∧
      s.hasBlocks 6 = false ∧ (∀ e ∈ s.jobs, e.2.launch ≠ some 6) ∧ s.storesDone 6 = true ∧ s.arenaOwned 1 = false ∧ l.ephReg 6 = 0 ∧ s.clearArenas l = s ∧ s.walkHeld l.tenant l.cpl = false ∧ SoundLine s (0x4000004000 / 64) ∧
      okOf (s.deviceTranslate l.tenant l.cpl .store) = some 0x4000004000) := by
  unfold SoundLine
  refine ⟨?_, ?_, ?_, ?_, ?_, ?_⟩
  all_goals dsimp only
  all_goals and_intros <;> decide +kernel

/-- The machine that saves core 0 of tenant 1, or restores it. -/
def preempting (restore : Bool) (g : Gang) : State :=
  { endingState 0 1 g with preempt := some ⟨1, 0, restore, 0, [9]⟩, launches := [(6, { running 0 with started := 2 })] }
/-- A saved block. -/
def savedBlock : SavedBlock :=
  { key := 9, area := 0, block := blockOf6 1, gangs := [{ gang with block := 9 }], cmds := [], locks := [], slots := [], mailbox := [], watches := [] }
/-- A gang of block 9 between runs. -/
def betweenGang : Gang := { gang with block := 9, slot := 3, grp := { gang.grp with run := none } }

/-- A save of one block, a restore of one, and a tenant in TEARDOWN with no work left. -/
theorem test_witness_preemptionAndTeardown :
    (let s := preempting false betweenGang
     s.preempt = some ⟨1, 0, false, 0, [9]⟩ ∧ s.blocks.filter (fun e => !e.2.ended && s.inSet e.1) = [(9, blockOf6 1)] ∧ s.blocks.find 9 = some (blockOf6 1) ∧
      (∀ g ∈ s.gangsOf 9, s.quiet g = true) ∧ (∀ o ∈ (s.core 0).mq, o.block ≠ 9) ∧ ∀ k ∈ (s.core 0).cmds, k.block = 9 → k.sent = false) ∧
    (let s := { preempting true betweenGang with gangs := [], blocks := [], saved := [savedBlock] }
     s.preempt = some ⟨1, 0, true, 0, [9]⟩ ∧ s.saved = [savedBlock] ∧ s.savedFits savedBlock 0 = true ∧ savedBlock.block.ranks = 1 ∧ savedBlock.area = 0 ∧
      savedBlock.block.tenant = 1 ∧ (s.launch 6).stopping = none ∧ savedBlock.lost = []) ∧
    (let s := { dispatching 0 with launches := [], priv := [(0x881, 3)] }
     2 < 16 ∧ s.tenantState 2 = 3 ∧ s.mgmt.error = none ∧ s.teardownWaits 2 = false ∧ (∀ e ∈ s.blocks, e.2.tenant = 2 → e.2.ended = true) ∧
      ∀ e ∈ s.launches, e.2.tenant = 2 → e.2.stage = .complete) := by
  refine ⟨?_, ?_, ?_⟩ <;> decide +kernel

/-- A stalled word; packets at a port, of which one goes before the others; flits sent again, fewer times than 64 and more. -/
theorem test_witness_retriesAndArbitration : let g : Gang := { gang with grp := { gang.grp with wait := .stalled } }
    (g.ended = false ∧ 0 ∈ g.members ∧ g.grp.wait = .stalled ∧ ∀ p ∈ g.parted, p.slices.getLsbD 0 = false) ∧
    (∀ n < 2, let p : Packet := { stop := 0, input := 1, path := [0], cls := 2, age := if n = 0 then 255 else 4 }
      let q : Packet := { stop := 0, input := 0, path := [0], cls := 2, age := if n = 0 then 7 else 4 }
      let w := if n = 0 then p else q
      w ∈ [p, q] ∧ competes { State.reset with packets := [p, q] } 0 w = true ∧ (p ≠ w → GoesBefore w p) ∧ (q ≠ w → GoesBefore w q)) ∧
    (∀ input < 2, let p : Packet := { stop := 7, input := input, path := [1, 3, 0], cls := 3, age := 0 }
      p ∈ [p] ∧ competes { State.reset with packets := [p] } 57 p = true) ∧ 63 < 64 ∧ 64 ≤ 65 := by
  unfold GoesBefore
  refine ⟨?_, ?_, ?_, ?_, ?_⟩
  · decide +kernel
  · intro n hn
    dsimp only
    obtain rfl | rfl : n = 0 ∨ n = 1 := by omega
    all_goals and_intros <;> decide +kernel
  · intro input hi
    obtain rfl | rfl : input = 0 ∨ input = 1 := by omega
    all_goals simp [competes, StopAfter, Config.ringBuffers]
  · decide
  · decide

/-! The host, other devices, and the management controller -/

/-- The machine with one line at its home in the hands of the host, and the page of another of device bias. -/
def hosting (h : HostState) : State :=
  { user gang with homes := [(0x100000000, { wts := 1, rts := 2, host := h, hostRts := 40 })], deviceBias := [0x4000001] }

/-- Lines of host bias and of device bias; every state of the host's copy; flips both ways, running, drained and not begun. -/
theorem test_witness_hostAccesses :
    HostMay (hosting .shared) 0x100000000 ∧ LeasesLast (hosting .shared) 0x100000001 40 ∧ LeasesLast (hosting .shared) 0x100000000 41 ∧
    LeasesLast (hosting .owned) 0x100000000 41 ∧ (regionOf (64 * 0x200000000000) = .host ∧ HostMay (hosting .shared) 0x200000000000 ∧
      ∀ e ∈ (hosting .shared).cores, ∀ x ∈ e.2.fifo, x.line ≠ 0x200000000000) ∧ ((hosting .shared).home 0x100000000).host = .shared ∧ ((hosting .owned).home 0x100000000).host = .owned ∧
    ((hosting .invalid).home 0x100000000).host = .invalid ∧ (1 : LaneMask) ≠ 0 ∧
    (HostReaches (hosting .invalid) 0x100000040 ∧ (hosting .invalid).flip = none ∧ 0x100000040 / 64 ∈ (hosting .invalid).deviceBias) ∧
    (let v := 0x4000001 * 2 ^ 12 + 1
     v < 2 ^ 52 ∧ v / 2 % 2 ^ 11 = 0 ∧ v / 2 ^ 12 % 2 ^ 40 = 0x4000001 ∧ regionOf (4096 * 0x4000001) = .hbm ∧ v % 2 = 1 ∧ (v - 1) % 2 = 0 ∧
      0x4000001 ∈ (hosting .invalid).deviceBias ∧ 0x4000002 ∉ (hosting .invalid).deviceBias ∧ regionOf (4096 * 0x4000002) = .hbm) ∧
    (let f : Flip := ⟨0x4000000, true, false, 9⟩
     let s := { hosting .shared with flip := some f }
     let t := { hosting .invalid with flip := some { f with host := false } }
     s.flip ≠ none ∧ s.flip = some f ∧ f.host = true ∧ (∀ e ∈ s.cores, ∀ x ∈ e.2.fifo, x.line / 64 = f.page → f.marker ≤ x.id) ∧ s.heldHost = [] ∧
      HostReaches s 0x100000000 ∧ f.page = 0x100000000 / 64 ∧ (∀ e ∈ t.homes, e.1 / 64 = f.page → e.2.host = .invalid) ∧ t.heldHost = []) ∧
    (let r : HostRequest := { line := 0x100000000, write := false }
     let s := { hosting .invalid with flip := some ⟨0x4000000, true, true, 9⟩, heldHost := [r], bar := [(0x12000, 0x4001000000)] }
     s.heldHost = [r] ∧ r.line / 64 = 0x4000000 ∧ (s.home r.line).host = .invalid ∧ biasByte s 0x4000000 / 64 ≠ r.line ∧ regionOf (64 * r.line) = .hbm ∧
      regionOf (biasByte s 0x4000000) = .hbm) := by
  dsimp only
  refine ⟨⟨⟨rfl, .inl ?_⟩, ?_, nofun⟩, ?_, ?_, ?_, ⟨?_, ⟨⟨rfl, .inr (.inl ?_)⟩, ?_, nofun⟩, ?_⟩, ?_, ?_, ?_, ?_, ⟨⟨rfl, .inl ?_⟩, ?_, ?_⟩, ?_,
    ⟨?_, ?_, ?_, ?_, ?_, ⟨rfl, .inl ?_⟩, ?_, ?_, ?_⟩, ?_⟩
  all_goals first | decide +kernel | (unfold LeasesLast; decide +kernel)

/-- A window that lies in the second tier, and meets no window that is enabled, fits. -/
theorem windowFits_of {s : State} {port base size : Nat} (h :
    let lo := fun b => b / 2 ^ 30 % 2 ^ 22 * 2 ^ 30
    let hi := fun b z => lo b + z % 2 ^ 22 * 2 ^ 30
    regionOf (lo base) = .tier ∧ (size % 2 ^ 22 ≠ 0 → regionOf (hi base size - 1) = .tier) ∧
      ∀ p < 12, 2 ≤ p → p ≠ port → s.barReg (0x13000 + 16 * (p - 2)) % 2 = 1 → hi base size ≤ lo (s.barReg (0x13000 + 16 * (p - 2))) ∨
        hi (s.barReg (0x13000 + 16 * (p - 2))) (s.barReg (0x13000 + 16 * (p - 2) + 8)) ≤ lo base) : WindowFits s port base size := by
  intro _
  refine ⟨h.1, h.2.1, fun p h2 h11 hp he a h1 h3 => ?_⟩
  rcases h.2.2 p (by omega) h2 hp he with h4 | h4
  · exact .inl (Nat.lt_of_lt_of_le h3 h4)
  · exact .inr (Nat.le_trans h4 h1)

/-- Registers of every kind at the ends of their values; ports 2 and 11; a weight-store command that passes, with each check failing in
another, and one that runs. -/
theorem test_witness_hostRegistersAndWeightStore :
    (255 < 256 ∧ (user gang).mgmt.recovery = false ∧ 2 ≤ 11 ∧ 11 ≤ 11 ∧ 0xFFFFFC0000001 < 2 ^ 52 ∧ 0xFFFFFC0000001 / 2 % 2 ^ 29 = 0 ∧ 0x3FFFFF < 2 ^ 22 ∧ 2 ^ 22 ≤ 0x400000) ∧
    (let s := { user gang with bar := [(0x13000, 0x4000000000001), (0x13008, 1), (0x13090, 0x4000040000001), (0x13098, 0)] }
     WindowFits s 11 0x4000040000001 (s.barReg (0x13000 + 16 * (11 - 2) + 8)) ∧ WindowFits s 11 (s.barReg (0x13000 + 16 * (11 - 2))) 2 ∧
        (s.barReg (0x13000 + 16 * (11 - 2)) % 2 = 1 ∧ regionOf 0x4000040000000 = .tier)) ∧
    (BarValue 0x10000 0xFFFFFFFFFFFFF ∧ BarValue 0x10008 0x7FFFFFFF ∧ BarValue 0x10010 0xFFFFFFFF ∧ (0x4000000000 % 2 ^ 23 = 0 ∧ 0x4000000000 < 2 ^ 52 ∧ regionOf 0x4000000000 = .hbm) ∧ BarValue 0x14000 0xFFFE ∧
      BarValue (0x18000 + 32 * 63) 0xC000000000001 ∧ regionOf 0xC000000000000 = .peer ∧ BarValue (0x18000 + 32 * 63 + 8) 0xFFFFFC0000000 ∧ BarValue (0x18000 + 16) 0xFFFFFFFFFF000 ∧
      BarValue (0x18000 + 24) 0x2EFFFE ∧ BarValue (0x18800 + 32 * 63) 0xFFFFFFFFFF001 ∧ BarValue (0x18800 + 8) 0x1000 ∧ BarValue (0x18800 + 16) 0x1FFFF) ∧
    ((user gang).mgmt.busy = none ∧ ({ busy := some (0, 4096) } : Management).busy ≠ none ∧ 0x0E < 0x0F ∧ 1 ≤ 0x0E ∧ 0x100 ≤ 0x7FF8 ∧ 0x7FF8 + 8 ≤ 0x8000 ∧ 2 / 2 % 2 = 1) ∧
    (let s := { user gang with bar := [(0x10000, 0x4000000000), (0x10008, 0x4000000), (0x10010, 64)], priv := [(0x849, 1 + 1 * 2 ^ 5)] }
     s.barReg 0x10000 % 64 = 0 ∧ s.barReg 0x10008 % 64 = 0 ∧ s.barReg 0x10010 % 64 = 0 ∧ s.barReg 0x10010 ≠ 0 ∧ s.wsBusy = none ∧ 1 < 16 ∧
      regionOf (s.barReg 0x10000) = .hbm ∧ regionOf (s.barReg 0x10000 + s.barReg 0x10010 - 1) = .hbm ∧ s.inPartition 1 (s.barReg 0x10008) = true ∧
      s.inPartition 1 ((s.barReg 0x10008 + s.barReg 0x10010 - 1 : Nat) : Int) = true ∧ s.inPartition 2 (s.barReg 0x10008) = false ∧ s.blockStarted 1 = true ∧
      { s with blocks := [] }.blockStarted 1 = false ∧ (user gang).barReg 0x10010 = 0 ∧ regionOf 0 ≠ .hbm ∧ regionOf 0 ≠ .host) ∧
    (let w : WsCommand := ⟨1, 0x4000000000, 0x4000000, 64⟩
     w.src % 64 = 0 ∧ w.dst % 64 = 0 ∧ w.len % 64 = 0 ∧ 0 < w.len ∧ (user gang).hostOwnsRange w.src w.len = false ∧
      (hosting .owned).hostOwnsRange w.src w.len = true) := by
  refine ⟨?_, ⟨windowFits_of ?_, windowFits_of ?_, ?_, ?_⟩, ⟨?_, ?_, ?_, ?_, ?_, ?_, ?_, ?_, ?_, ?_, ?_, ?_, ?_⟩, ?_, ?_, ?_⟩
  all_goals first | (unfold BarValue; decide +kernel) | decide +kernel

/-- An export of one page to device 5 for loads, and to every device for both; the last atomic; a fire-and-forget store of a launch. -/
theorem test_witness_devicesAnswer :
    (let s := { user gang with bar := [(0x18800, 0x4000000001), (0x18808, 0x4000001000), (0x18810, 5)] }
     let t := { s with bar := [(0x18800, 0x4000000001), (0x18808, 0x4000001000), (0x18810, 0x1FFFF)] }
     0 < 64 ∧ 0x4000000FC0 % 64 + 64 ≤ 64 ∧ s.mgmt.recovery = false ∧ s.exported 5 0x4000000FC0 64 false = true ∧ s.exported 5 0x4000000FC0 64 true = false ∧
      s.exported 6 0x4000000FC0 64 false = false ∧ t.exported 6 0x4000000FC0 64 true = true ∧ (t.home (0x4000000FC0 / 64)).poison = false ∧ (s.home (0x4000000FC0 / 64)).host ≠ .owned ∧
      ({ t with homes := [(0x4000000FC0 / 64, { wts := 0, rts := 0, host := .owned })] }.home (0x4000000FC0 / 64)).host = .owned ∧
      peerAtomic 13 = some .inc) ∧
    (let f : FfStore := ⟨9, some 1⟩
     let s := { user gang with ff := [f] }
     s.opAt 9 = none ∧ 9 ≠ 0 ∧ s.registers 9 = false ∧ s.isEngine 9 = false ∧ s.ff.find? (fun x => x.id == 9) = some f ∧ f.launch = some 1 ∧ s.launches.find 1 = some (s.launch 1)) := by
  refine ⟨?_, ?_⟩ <;> decide +kernel

/-- A word that waits for another device's answer, with its request on the way. -/
theorem test_witness_wordAsks :
    let s := { user { gang with grp := { gang.grp with wait := .stalled, since := some 9 } } with
      bar := [(0x18000, 0xC000000000001), (0x18008, 0xC000040000000), (0x18018, 2)], sent := [] }
    let t := s.sendPeer 9 (0xC000000000000 / 64) 0 0 0
    t.opAt 9 = none ∧ t.isEngine 9 = false ∧ t.registers 9 = true ∧ regionOf (64 * (0xC000000000000 / 64)) = .peer ∧ t.peerData = [] ∧
      (t.sent.any (fun r => r.op == 9 && t.peerTarget (64 * (0xC000000000000 / 64)) == some (r.device, r.cxl, r.port, r.addr))) = true := by
  decide +kernel

/-- The machine with `v` in the argument area of the mailbox, and `x` after it. -/
def mailing (v x : Nat) : State :=
  { user gang with mgmt := { args := (bytesOf 8 v ++ bytesOf 8 x).mapIdx (fun i b => (i, b)) } }

/-- A controller that answers, with arguments at both ends of what the commands take, and past them. -/
theorem test_witness_mailboxCommands :
    (user gang).mgmt.recovery = false ∧ (∀ v ∈ [0, 1, 299, 300, 1800, 1801, 2399999, 2400000, 0x10F3F01, 0x10F3F02, 0x1100000, 0x2000000],
      (mailing v 0).mgmt.recovery = false ∧ arg0 (mailing v 0).mgmt = v) ∧
    (0x10F3F02 / 2 % 2 ^ 7 ≠ 0 ∧ 0x10F3F01 / 2 % 2 ^ 7 = 0 ∧ 0x10F3F01 / 2 ^ 14 % 4 = 0 ∧ 0x10F3F01 / 2 ^ 16 % 2 ^ 8 ≤ 15 ∧ 0x10F3F01 < 2 ^ 25 ∧ 2 ^ 25 ≤ 0x2000000) := by
  refine ⟨?_, ?_, ?_⟩ <;> decide +kernel

/-- An image of 4 KiB in HBM; an address that is not aligned; a log that is full; GETLOG's arguments; a module in recovery. -/
theorem test_witness_measurementCommands :
    (let m := (mailing 0x4000000000 4096).mgmt
     arg0 m = 0x4000000000 ∧ ofBytes ((List.range 8).map (fun k => Table.get 0 m.args (8 + k))) = 4096 ∧ 0x4000000000 % 4096 = 0 ∧ 0x4000000000 < 2 ^ 52 ∧
      regionOf 0x4000000000 = .hbm ∧ 4096 ≤ 4096 ∧ 4096 ≤ 2 ^ 26 ∧ 4096 % 4096 = 0 ∧ regionOf (0x4000000000 + 4096 - 1) = .hbm ∧ m.log.length < 1024) ∧
    ((user gang).hostOwnsRange 0x4000000000 4096 = false ∧ (hosting .owned).hostOwnsRange 0x4000000000 4096 = true) ∧ (arg0 (mailing 0x4000000040 4096).mgmt % 4096 ≠ 0) ∧ (List.replicate 1024 (0 : BitVec 1024)).length = 1024 ∧
    (0x10003FF % 2 ^ 16 ≤ 1023 ∧ 1 ≤ 0x10003FF / 2 ^ 16 % 2 ^ 9 ∧ 0x10003FF / 2 ^ 16 % 2 ^ 9 ≤ 256 ∧ 0x10003FF < 2 ^ 25 ∧ 0x10400 % 2 ^ 16 > 1023 ∧
      0x3FF / 2 ^ 16 % 2 ^ 9 = 0) ∧
    ({ user gang with mgmt := { recovery := true } }.mgmt.recovery = true) := by
  refine ⟨?_, ?_, ?_, ?_, ?_, ?_⟩ <;> decide +kernel

/-- FIPS 180-4's example: the digest of "abc" begins with the bytes DD AF 35 A1. -/
theorem test_sha512 : sha512 [0x61, 0x62, 0x63] = 0x9fa44ca54fc99a2a0ee83c6423444d45bdebfea3233cba36a8c14f272a9992219ad3554be6ee9e0aa27ea9894efae612314120ae497341ccba7a6193a135afdd := by decide +kernel

/-- The machine in which every supervisor gang is parked in BARWAIT at its doorbell. -/
def parkedState : State :=
  { user gang with priv := [], gangs := (List.range 256).map (fun c => (64 * c + 48, { Gang.supervisor c with
      grp := { (Gang.supervisor c).grp with run := some ⟨1, 0⟩, wait := .barwait 0 0x1800 0 0 } })) }

/-- Each of its supervisor gangs waits. -/
theorem test_witness_parked : ∀ c < 256, ∃ g, parkedState.gang c 48 = some g ∧ g.stop = .none ∧
    ∀ p ∈ g.groups, ∃ block off phase sc, p.wait = .barwait block off phase sc := by
  intro c hc
  have h : (List.range 256).all (fun c => match parkedState.gang c 48 with
    | some g => g.stop == .none && g.groups.all (fun p => p.wait == .barwait 0 0x1800 0 0)
    | none => false) = true := by decide +kernel
  have := List.all_eq_true.1 h c (List.mem_range.2 hc)
  split at this
  · rename_i g hg
    simp only [Bool.and_eq_true, beq_iff_eq, List.all_eq_true] at this
    exact ⟨g, hg, this.1, fun p hp => ⟨_, _, _, _, this.2 p hp⟩⟩
  · cases this

/-- Every tenant OFF and one not; every state of power; times at both sides of the limits; clock steps up, down and in a surge. -/
theorem test_witness_powerAndResetForms :
    ((∀ t < 16, { user gang with priv := [] }.tenantState t = 0) ∧ (∃ t < 16, (user gang).tenantState t ≠ 0)) ∧
    (let m : Management := { step := 3, stepAt := 0, time := 21 * 240000 }
     (4 ≤ 4 ∧ 4 = m.step + 1 ∧ m.stepAt + 21 * 240000 ≤ m.time ∧ m.power = .active) ∧ { m with time := 21 * 240000 - 1 }.time < m.stepAt + 21 * 240000 ∧
      m.step < 4 ∧ ({ m with power := .idle } : Management).power = .idle ∧ ({ m with power := .standby } : Management).power ≠ .active) ∧
    (let m : Management := { time := 21 * 24000000 }
     m.offSince + 21 * 2400000 ≤ m.time ∧ m.idleSince + 21 * 24000000 ≤ m.time ∧ { m with time := 0 }.time < m.offSince + 21 * 2400000) ∧
    (user gang).mgmt.recovery = false := by
  refine ⟨?_, ?_, ?_, ?_⟩ <;> decide +kernel

/-- A supervisor gang that has stopped and one that has not; an entry that has been pending too long; no module error, and one. -/
theorem test_witness_supervisorRecovery : let g : Gang := { supGang with stop := .fault 0 .illegal 1 0 }
    (let s := { sup g with mgmt := { started := true } }
     255 < 256 ∧ s.mgmt.started = true ∧ s.gang 0 48 = some g ∧ g.stop ≠ .none ∧ (sup supGang).gang 0 48 = some supGang ∧ supGang.stop = .none) ∧
    (let s := { eretState 0 0 with mgmt := { started := true, time := 21 * 2400000000 + 1 }
                                   cores := [(0, { core1 with supScratch := [(0x38, 1)], pendingSince := [(0, 0)] })] }
     s.mgmt.watchdog ≠ 0 ∧ s.overdue 0 = [0]) ∧
    (({ watchdog := 0 } : Management).watchdog = 0 ∧ ({} : Management).error = none ∧ ({ error := some (2, 0, 0, 0) } : Management).error ≠ none) := by
  refine ⟨?_, ?_, ?_⟩ <;> decide +kernel

/-! The whole machine -/

/-- The machine whose gang stands at `w`: in its run, or at a run boundary with no work of the device left; the supervisor's image begins with it then. -/
def atWord (w : Word) : State := (user gang).setBytes gang.wordPc.toNat (bytesOf 4 w.toNat)
def atHeader (w : Word) : State :=
  { ((user { gang with grp := { gang.grp with run := none, age := some 0 } }).setBytes 0x4000001000 (bytesOf 4 w.toNat)).setBytes 0x4000000000
      (bytesOf 4 w.toNat) with launches := [] }

/-- A word of a run, a word that decodes to none, a header at a run boundary, a turn that names an event, and no power. -/
theorem test_witness_stepRunsDecodedWord :
    (∀ n < 2, let w : Word := if n = 0 then 0x20518700 else 0xD00000CA
      let s := atWord w
      let u := s.upkeep.pick.getD s
      s.agenda = [] ∧ s.mgmt.power ≠ .off ∧ s.upkeep.here.grp.bound = false ∧ s.upkeep.mayIssue = true ∧ s.upkeep.here.grp.run ≠ none ∧
        s.upkeep.pick.isSome = true ∧ u.here.grp.run ≠ none ∧ u.here.badRegs = [] ∧ u.here.mismatch = 0 ∧
        okOf u.filled.fetch = some (some w) ∧ w.toNat / 2 ^ 26 ≠ 0 ∧ runEnding w = false) ∧
    (let g : Gang := { gang with grp := { gang.grp with bound := true } }
     let s := (user g).setBytes gang.wordPc.toNat (bytesOf 4 0x20518700)
     s.upkeep.here.grp.bound = true ∧ s.upkeep.mayIssue = true ∧ s.upkeep.here.grp.run ≠ none ∧ okOf s.upkeep.filled.fetch = some (some 0x20518700)) ∧
    decode 0x20518700 = .ok (.sadd 5 6 7) ∧ (∀ x, decode 0xD00000CA ≠ .ok x) ∧
    (∀ n < 2, let w : Word := 0x00600B00
     let s := if n = 0 then atHeader w else { atHeader w with used := [0, 1] }
     let u := (if n = 0 then s.upkeep else s.upkeep.newCycle).pick.getD s
     s.agenda = [] ∧ s.mgmt.power ≠ .off ∧ s.upkeep.here.grp.bound = false ∧ s.upkeep.firstMove s.upkeep.ownSteps = none ∧ s.upkeep.pick.isSome = decide (n = 0) ∧
      s.upkeep.newCycle.pick.isSome = true ∧ u.here.grp.run = none ∧
      u.here.owedRebases = 0 ∧ u.here.deferred = [] ∧ u.here.badRegs = [] ∧ u.here.mismatch = 0 ∧ okOf u.filled.fetch = some (some w) ∧
      w.toNat / 2 ^ 26 = 0 ∧ 1 ≤ w.toNat / 2 ^ 21 % 2 ^ 5 ∧ w.toNat / 2 ^ 21 % 2 ^ 5 ≤ 24 ∧ w.toNat % 2 ^ 8 = 0) ∧
    decode 0x00600B00 = .ok (.hdr 3 5 1) ∧ encode (.coldReset 0 0) = none ∧
    ({ user gang with agenda := [.event (.coldReset 0 0)] }.agenda = .event (.coldReset 0 0) :: []) ∧
    { user gang with mgmt := { power := .off } }.mgmt.power = .off := by
  refine ⟨?_, ?_, rfl, test_word_flagcode.2, ?_, rfl, rfl, rfl, rfl⟩ <;> decide +kernel

/-- An instruction whose operands are at the ends of their ranges has a word. -/
theorem test_witness_decodeOfEncode : wellFormed (.sadd 63 63 63) = true ∧ encode (.sadd 63 63 63) = some 0x23FFFF00 := ⟨by decide, rfl⟩

/-- A memory that has the canonical form, and a step that stores. -/
theorem test_witness_memory : Memory.wf (user gang).mem = true ∧
    (after (step (State.reset.withFetchWord 32 0x2C807C15)) (fun t => Memory.wf t.mem)) = some true ∧ Memory.wf (State.reset.withFetchWord 32 0x2C807C15).mem = true := by
  refine ⟨?_, ?_, ?_⟩ <;> decide +kernel
end Sys2Proof.Tests
end

section
/-! Memory: what a read finds after a write (R6, R228). -/

namespace Sys2Proof.Machine

/-- A byte reads what the table of memory holds, and nothing else of the state. -/
theorem State.byte_congr {s t : State} (h : t.mem = s.mem) (x : Nat) : t.byte x = s.byte x :=
  congrArg (Table.get Memory.blank · x) h

theorem State.byte_setBytes (s : State) (a x : Nat) (l : List Byte) :
    (s.setBytes a l).byte x = if a ≤ x ∧ x < a + l.length then l.getD (x - a) 0 else s.byte x := by
  induction l generalizing s a with
  | nil => rw [if_neg (by simp only [List.length_nil]; omega)]; rfl
  | cons b rest ih =>
    rw [State.setBytes, ih, State.byte_setByte, List.length_cons]
    by_cases hx : x = a
    · subst hx
      rw [if_neg (by omega), if_pos rfl, if_pos (by omega), Nat.sub_self, List.getD_cons_zero]
    · by_cases hin : a + 1 ≤ x ∧ x < a + 1 + rest.length
      · have hsub : x - a = (x - (a + 1)) + 1 := by omega
        rw [if_pos hin, if_pos (by omega), hsub, List.getD_cons_succ]
      · rw [if_neg hin, if_neg hx, if_neg (by omega)]

/-- Bytes written at listed offsets from a base, in any order: an offset that stands twice takes the same byte. -/
theorem State.byte_foldl_setByte (s : State) (base x : Nat) (v : Nat → Byte) (l : List Nat) :
    (l.foldl (fun acc i => acc.setByte (base + i) (v i)) s).byte x =
      if base ≤ x ∧ x - base ∈ l then v (x - base) else s.byte x := by
  induction l generalizing s with
  | nil => simp
  | cons i rest ih =>
    rw [List.foldl_cons, ih, State.byte_setByte]
    by_cases hx : x = base + i
    · subst hx; simp
    · have hi : base ≤ x → x - base ≠ i := by omega
      by_cases hb : base ≤ x <;> simp [hb, hx, hi]

/-- The listed bits of a bit vector are its bits. -/
theorem mem_bitsSet_toNat {n : Nat} (m : BitVec n) (i : Nat) : i ∈ bitsSet n m.toNat ↔ m.getLsbD i = true := by
  rw [mem_bitsSet, BitVec.testBit_toNat]
  exact ⟨And.right, fun h => ⟨BitVec.lt_of_getLsbD h, h⟩⟩

theorem State.byte_storeLine (s : State) (line x : Nat) (mask : LaneMask) (data : Line) :
    (s.storeLine line mask data).byte x =
      if x / 64 = line ∧ mask.getLsbD (x % 64) = true then BitVec.ofNat 8 (lineField data (x % 64) 1) else s.byte x := by
  rw [State.storeLine, State.byte_foldl_setByte (v := fun i => BitVec.ofNat 8 (lineField data i 1))]
  simp only [mem_bitsSet_toNat]
  by_cases hline : x / 64 = line
  · have hoff : x - 64 * line = x % 64 := by omega
    have hle : 64 * line ≤ x := by omega
    simp [hline, hoff, hle]
  · have hout : ¬ (64 * line ≤ x ∧ mask.getLsbD (x - 64 * line) = true) := fun ⟨hle, hbit⟩ => by
      have hlt := BitVec.lt_of_getLsbD hbit
      omega
    rw [if_neg hout, if_neg (fun h => hline h.1)]

theorem State.byte_homeStore (s : State) (line t x : Nat) (mask : LaneMask) (data : Line) (poison : Bool) :
    (s.homeStore line t mask data poison).byte x = (s.storeLine line mask data).byte x :=
  State.byte_congr (s.homeStore_mem line t mask data poison) x

/-- Settles O58: reads after a byte, a list and a line, and the three operations keep the canonical form. -/
theorem memoryReadsBack : Obligations.MemoryReadsBack := by
  intro s a x line pts b l mask data poison
  refine ⟨s.byte_setByte a x b, s.byte_setBytes a x l, ?_, fun h => ?_⟩
  · rw [State.byte_homeStore, State.byte_storeLine]
    rfl
  · exact ⟨State.wf_setByte a b h, State.wf_setBytes a l h, State.wf_homeStore line pts mask data poison h⟩

end Sys2Proof.Machine
end

section
/-! Vector words: the active lanes (R9, R71), and the order of the faults that a vector word meets (R81). -/

namespace Sys2Proof.Machine

open Sys2Proof.Claims

/-! ## Fields of MODE and the active lanes -/

theorem field_toNat {n : Nat} (x : BitVec n) (lo len : Nat) : field x.toNat lo len = (x.extractLsb' lo len).toNat := by
  rw [field, BitVec.extractLsb'_toNat, Nat.shiftRight_eq_div_pow]

theorem bitOf_toNat {n : Nat} (x : BitVec n) (i : Nat) : bitOf x.toNat i = x.getLsbD i := by
  rw [bitOf, ← BitVec.testBit_toNat, Nat.testBit_eq_decide_div_mod_eq, Bool.beq_eq_decide_eq]

theorem Gang.guardSelects_iff (g : Gang) (l : Nat) :
    g.guardSelects l = true ↔
      modeGuard (g.modeOf (l / 4)) = 0 ∨
        (g.mask (modeGuard (g.modeOf (l / 4)))).getLsbD l ≠ modeGinv (g.modeOf (l / 4)) := by
  simp [Gang.guardSelects]

theorem activeLanes : Claims.ActiveLanes := by
  intro g l mode guard
  have hguard : modeGuard mode = guard := field_toNat mode 4 3
  have hginv : modeGinv mode = mode.getLsbD 7 := bitOf_toNat mode 7
  rw [Gang.mem_active, Gang.guardSelects_iff, hguard, hginv, and_assoc]

/-! ## What a vector form demands of its slices and registers -/

theorem Gang.anyWide_iff (g : Gang) : g.anyWide = true ↔ Wide g := by
  simp [Gang.anyWide, Wide, wideEtype, or_assoc]

theorem Gang.mem_spans (g : Gang) (c k : Nat) : k ∈ g.spans c ↔ Names g c k := by
  unfold Gang.spans Names
  rw [← Gang.anyWide_iff]
  split <;> simp [*]

theorem Gang.oddPair_iff (g : Gang) (c : Nat) : g.oddPair c = true ↔ Wide g ∧ c % 2 = 1 := by
  simp [Gang.oddPair, Gang.anyWide_iff]

theorem Gang.unwrittenT_iff (g : Gang) (k : Nat) :
    g.unwrittenT k = true ↔ 248 ≤ k ∧ g.grp.tw.getLsbD (k - 248) = false := by
  simp [Gang.unwrittenT, isT]

theorem Gang.aboveClaim_iff (g : Gang) (k : Nat) : g.aboveClaim k = true ↔ k < 248 ∧ 8 * g.granules ≤ k := by
  simp [Gang.aboveClaim, isT]

/-- Some register that the operands name has the property `p`. -/
def NamesSome (g : Gang) (codes : List (BitVec 8)) (p : Nat → Prop) : Prop :=
  ∃ c ∈ codes, ∃ k, Names g c.toNat k ∧ p k

/-- The ILLEGAL condition of a vector form: an element type that is not among the form's, or an odd operand where operands are
pairs (R60, R130). -/
def IllegalVector (g : Gang) (types : List Nat) (codes : List (BitVec 8)) : Prop :=
  (∃ sl ∈ g.members, modeEtype (g.modeOf sl) ∉ types) ∨ (Wide g ∧ ∃ c ∈ codes, c.toNat % 2 = 1)

/-- A class of element types accepts just the listed ones among the defined types. -/
def Accepts.Lists (acc : Accepts) (types : List Nat) : Prop := ∀ e ∈ anyTypes, acc.ok e = true ↔ e ∈ types

theorem Accepts.any_lists : Accepts.any.Lists anyTypes := fun _ he => ⟨fun _ => he, fun _ => rfl⟩

theorem Accepts.int_lists : Accepts.int.Lists intTypes := by
  unfold Accepts.Lists; decide

/-- A test over the registers that a list of operands spans. -/
theorem Gang.any_spans_iff (g : Gang) (codes : List (BitVec 8)) {test : Nat → Bool} {p : Nat → Prop}
    (h : ∀ k, test k = true ↔ p k) :
    ((codes.map BitVec.toNat).flatMap g.spans).any test = true ↔ NamesSome g codes p := by
  simp only [List.any_eq_true, List.mem_flatMap, List.mem_map, Gang.mem_spans, h, NamesSome]
  constructor
  · rintro ⟨k, ⟨_, ⟨c, hc, rfl⟩, hk⟩, hp⟩
    exact ⟨c, hc, k, hk, hp⟩
  · rintro ⟨c, hc, k, hk, hp⟩
    exact ⟨k, ⟨_, ⟨c, hc, rfl⟩, hk⟩, hp⟩

theorem Gang.vectorDemand_illegal_iff (g : Gang) {acc : Accepts} {types : List Nat} (reads writes : List (BitVec 8))
    (hacc : acc.Lists types) (hdef : ∀ sl ∈ g.members, modeEtype (g.modeOf sl) ∈ anyTypes) :
    (g.vectorDemand acc reads writes).illegal = true ↔ IllegalVector g types (reads ++ writes) := by
  have hetype : (∃ sl ∈ g.members, acc.ok (modeEtype (g.modeOf sl)) = false) ↔
      ∃ sl ∈ g.members, modeEtype (g.modeOf sl) ∉ types :=
    exists_congr fun sl => and_congr_right fun hsl => by rw [← Bool.not_eq_true, hacc _ (hdef sl hsl)]
  have hodd : (∃ c ∈ reads ++ writes, g.oddPair c.toNat = true) ↔ Wide g ∧ ∃ c ∈ reads ++ writes, c.toNat % 2 = 1 := by
    simp only [Gang.oddPair_iff]
    exact ⟨fun ⟨c, hc, hw, hp⟩ => ⟨hw, c, hc, hp⟩, fun ⟨hw, c, hc, hp⟩ => ⟨c, hc, hw, hp⟩⟩
  rw [IllegalVector, ← hetype, ← hodd]
  simp only [Gang.vectorDemand, ← List.map_append, List.any_map, Bool.or_eq_true, List.any_eq_true, Bool.not_eq_true',
    Function.comp_apply]

theorem Gang.vectorDemand_reads_any_iff (g : Gang) (acc : Accepts) (reads writes : List (BitVec 8)) :
    (g.vectorDemand acc reads writes).reads.any g.unwrittenT = true ↔
      NamesSome g reads (fun k => 248 ≤ k ∧ g.grp.tw.getLsbD (k - 248) = false) :=
  g.any_spans_iff reads g.unwrittenT_iff

theorem Gang.vectorDemand_registers_any_iff (g : Gang) (acc : Accepts) (reads writes : List (BitVec 8)) :
    ((g.vectorDemand acc reads writes).reads ++ (g.vectorDemand acc reads writes).writes).any g.aboveClaim = true ↔
      NamesSome g (reads ++ writes) (fun k => k < 248 ∧ 8 * g.granules ≤ k) := by
  rw [← g.any_spans_iff (reads ++ writes) g.aboveClaim_iff]
  simp only [Gang.vectorDemand, List.map_append, List.flatMap_append]

/-! ## The order of the faults (R81) -/

/-- A vector form names no flag, ends no run, needs no supervisor and has no uniform operand: three conditions are left. -/
theorem State.firstFault_vectorDemand (s : State) (acc : Accepts) (reads writes : List (BitVec 8)) :
    let dem := s.here.vectorDemand acc reads writes
    s.firstFault dem =
      if dem.illegal then some .illegal
      else if dem.reads.any s.here.unwrittenT then some .runtemp
      else if (dem.reads ++ dem.writes).any s.here.aboveClaim then some .claim
      else none := rfl

/-- The three faults of an element-wise vector form, in their order. -/
theorem faultOrder_of_vectorOp {i : Instr} {s : State} {acc : Accepts} {types : List Nat} {reads : List (BitVec 8)} {d : BitVec 8}
    {f : Gang → Word → Nat → Nat} (hexec : exec i s = s.vectorOp acc reads d f) (hacc : acc.Lists types)
    (hdef : ∀ sl ∈ s.here.members, modeEtype (s.here.modeOf sl) ∈ anyTypes) :
    let illegal := IllegalVector s.here types (reads ++ [d])
    let unwritten := NamesSome s.here reads (fun k => 248 ≤ k ∧ s.here.grp.tw.getLsbD (k - 248) = false)
    let above := NamesSome s.here (reads ++ [d]) (fun k => k < 248 ∧ 8 * s.here.granules ≤ k)
    (illegal → Faults i s .illegal) ∧ (¬ illegal → unwritten → Faults i s .runtemp) ∧
      (¬ illegal → ¬ unwritten → above → Faults i s .claim) := by
  intro illegal unwritten above
  have hillegal := s.here.vectorDemand_illegal_iff reads [d] hacc hdef
  have hunwritten := s.here.vectorDemand_reads_any_iff acc reads [d]
  have habove := s.here.vectorDemand_registers_any_iff acc reads [d]
  have faults_of : ∀ {c : Cause}, s.firstFault (s.here.vectorDemand acc reads [d]) = some c → Faults i s c :=
    fun h => by rw [Faults, hexec, State.vectorOp, State.issueGang, State.issue_of_some h]
  have hfirst := s.firstFault_vectorDemand acc reads [d]
  refine ⟨fun h => ?_, fun hi h => ?_, fun hi hu h => ?_⟩
  · exact faults_of (by rw [hfirst, if_pos (hillegal.2 h)])
  · exact faults_of (by rw [hfirst, if_neg (mt hillegal.1 hi), if_pos (hunwritten.2 h)])
  · exact faults_of (by
      rw [hfirst, if_neg (mt hillegal.1 hi), if_neg (mt hunwritten.1 hu), if_pos (habove.2 h)])

/-! The five forms as element-wise forms of their operands (R132, R133, R142, R157). -/

theorem exec_vadd (s : State) (d a b : BitVec 8) : exec (.vadd d a b) s = s.elementwise2 .any d a b EType.add := rfl

theorem exec_vmulh (s : State) (d a b : BitVec 8) :
    exec (.vmulh d a b) s = s.elementwise2 .int d a b (fun t _ => t.mulHigh) := rfl

theorem exec_vfma (s : State) (d a b : BitVec 8) :
    exec (.vfma d a b) s = s.elementwise3 .any d a b (fun t => t.fused false false) := rfl

theorem exec_vmov (s : State) (d a : BitVec 8) : exec (.vmov d a) s = s.vectorOp .any [a] d (fun g _ l => g.src a l) := rfl

theorem exec_vlane (s : State) (d : BitVec 8) : exec (.vlane d) s = s.vectorOp .any [] d (fun _ _ l => l) := rfl

theorem vectorFaultOrder : Claims.VectorFaultOrder := by
  intro s d a b g order hdef
  refine ⟨?vadd, ?vmulh, ?vfma, ?vmov, ?vlane⟩
  case vadd => exact faultOrder_of_vectorOp (exec_vadd s d a b) Accepts.any_lists hdef
  case vmulh => exact faultOrder_of_vectorOp (exec_vmulh s d a b) Accepts.int_lists hdef
  case vfma => exact faultOrder_of_vectorOp (exec_vfma s d a b) Accepts.any_lists hdef
  case vmov => exact faultOrder_of_vectorOp (exec_vmov s d a) Accepts.any_lists hdef
  case vlane => exact faultOrder_of_vectorOp (exec_vlane s d) Accepts.any_lists hdef

/-- Settles O9: the lanes of active() under the guard, and the fault order of the five forms. -/
theorem activeLanesAndFaultOrder : Obligations.ActiveLanesAndFaultOrder := ⟨activeLanes, vectorFaultOrder⟩

end Sys2Proof.Machine
end

section
/-! Stalled words, the network's ports and the links (R19, R65, R319, R397). -/

namespace Sys2Proof.Machine

open Sys2Proof.Claims

/-! ## The gang on the pipe and its groups -/

theorem State.gang_here {s : State} (h : s.here.ended = false) : s.gang s.here.core s.here.slot = some s.here := by
  simp [State.gang, h]

theorem Gang.groupOf_member {g : Gang} {sl : Nat} (h : sl ∈ g.members) : g.groupOf sl = some g.grp :=
  List.find?_cons_of_pos (Gang.mem_members.1 h)

theorem Gang.turnTo_of_not_parted {g : Gang} {sl : Nat} (h : ∀ p ∈ g.parted, p.slices.getLsbD sl = false) :
    g.turnTo sl = g := by
  have hnone : g.parted.find? (fun p => p.slices.getLsbD sl) = none := by simpa using h
  rw [Gang.turnTo, hnone]

/-- The gang on the pipe stays there with its group when it is brought there. -/
theorem State.focus_here {s : State} {sl : Nat} (hend : s.here.ended = false)
    (hparted : ∀ p ∈ s.here.parted, p.slices.getLsbD sl = false) : s.focus s.here.core s.here.slot sl = s := by
  simp only [State.focus, State.gang_here hend, and_self, if_true, Gang.turnTo_of_not_parted hparted]

theorem execStalledWordIssue_here {s : State} {sl : Nat} (hend : s.here.ended = false) (hmem : sl ∈ s.here.members)
    (hwait : s.here.grp.wait = .stalled) (hparted : ∀ p ∈ s.here.parted, p.slices.getLsbD sl = false) :
    execStalledWordIssue s.here.core s.here.slot sl s = .next (s.onHere (fun g => g.waitFor .ready)) := by
  simp only [execStalledWordIssue, State.gang_here hend, Gang.groupOf_member hmem, Option.map_some, hwait,
    State.focus_here hend hparted]

/-! ## The rings, and who competes at a port -/

/-- The torus by row and column, and by the number of the stop (R18). -/
theorem nextStop_eq_stopAfter (stop dir : Nat) : nextStop stop dir = StopAfter stop dir := by
  unfold nextStop StopAfter
  dsimp only
  split
  · rw [if_pos rfl]
    omega
  · rw [if_neg (by decide), if_pos rfl]
    omega
  · rw [if_neg (by decide), if_neg (by decide), if_pos rfl]
    omega
  next h1 h2 h3 =>
    rw [if_neg h1, if_neg h2, if_neg h3]
    omega

theorem length_le_one_of_ne_cons_cons {α : Type} {l : List α} (h : ∀ a b rest, l ≠ a :: b :: rest) : l.length ≤ 1 := by
  match l with
  | [] | [_] => simp
  | a :: b :: rest => exact absurd rfl (h a b rest)

theorem State.mayAdvance_iff (s : State) (p : Packet) :
    s.mayAdvance p = true ↔ p.path.length ≤ 1 ∨
      (1 ≤ s.freeBuffers (StopAfter p.stop (p.path.headD 0)) (p.path.headD 0) ∧
        (p.input = p.path.headD 0 ∨ 2 ≤ s.freeBuffers p.stop (p.path.headD 0))) := by
  unfold State.mayAdvance
  split
  next d e rest hpath =>
    by_cases hring : p.input = d
    · simp [hpath, hring, nextStop_eq_stopAfter]
    · simp [hpath, hring, nextStop_eq_stopAfter, and_comm]
  next hpath =>
    simp [length_le_one_of_ne_cons_cons hpath]

/-- A packet competes where it wants the port and may advance. -/
theorem competes_eq (s : State) (port : Nat) :
    competes s port = fun p => p.port == port && s.mayAdvance p := by
  funext p
  rw [Bool.eq_iff_iff, Bool.and_eq_true, State.mayAdvance_iff]
  simp only [competes, Packet.port, State.freeBuffers, Bool.and_eq_true, Bool.or_eq_true, decide_eq_true_eq]

/-! ## The order of packets at a port (R319) -/

theorem Packet.beats_iff (p q : Packet) : p.beats q = true ↔ GoesBefore p q := by
  unfold Packet.beats GoesBefore
  by_cases hold : p.age = 255 ∨ q.age = 255
  · simp [hold]
  · simp [hold]

theorem Packet.beats_self (p : Packet) : p.beats p = false := by
  by_cases hold : p.age = 255 <;> simp [Packet.beats, hold]

/-- Of two packets at most one goes before the other: the one of full age, of the higher class, of the greater age, or of the
lower input port, in this order. -/
theorem not_goesBefore_of_goesBefore {p q : Packet} (h : GoesBefore p q) : ¬ GoesBefore q p := by
  unfold GoesBefore at *
  by_cases hold : p.age = 255 ∨ q.age = 255
  · rw [if_pos hold] at h
    rw [if_pos hold.symm]
    omega
  · rw [if_neg hold] at h
    rw [if_neg (mt Or.symm hold)]
    omega

/-- The packet that goes before all others at a port is the one that none there beats. -/
theorem find?_unbeaten {here : List Packet} {w : Packet} (hw : w ∈ here) (hfirst : ∀ q ∈ here, q ≠ w → GoesBefore w q) :
    here.find? (fun p => here.all (fun q => !q.beats p)) = some w := by
  have hunbeaten : here.all (fun q => !q.beats w) = true := by
    refine List.all_eq_true.2 fun q hq => ?_
    by_cases heq : q = w
    · rw [heq, Packet.beats_self, Bool.not_false]
    · rw [Bool.not_eq_true', Bool.eq_false_iff, ne_eq, Packet.beats_iff]
      exact not_goesBefore_of_goesBefore (hfirst q hq heq)
  obtain ⟨p, hp⟩ := Option.isSome_iff_exists.1
    (List.find?_isSome (p := fun p => here.all (fun q => !q.beats p)).2 ⟨w, hw, hunbeaten⟩)
  have hnone : ∀ q ∈ here, ¬ GoesBefore q p := by
    simpa only [List.all_eq_true, Bool.not_eq_true', Bool.eq_false_iff, ne_eq, Packet.beats_iff] using List.find?_some hp
  have hpw : p = w := Decidable.byContradiction fun hne => hnone w hw (hfirst p (List.mem_of_find?_eq_some hp) hne)
  rw [hp, hpw]

/-- The winner leaves the network, or stands at the next stop of its way. -/
theorem Packet.onward_eq (w : Packet) :
    w.onward = if w.path.length ≤ 1 then [] else
      [{ w with stop := StopAfter w.stop (w.path.headD 0), input := w.path.headD 0, path := w.path.tail }] := by
  unfold Packet.onward
  split
  next d e rest hpath => simp [hpath, nextStop_eq_stopAfter]
  next hpath =>
    rw [if_pos (length_le_one_of_ne_cons_cons hpath)]

theorem execNetworkArbitration_of_winner {s : State} {port : Nat} {w : Packet} (hw : w ∈ s.packets)
    (hcompetes : competes s port w = true)
    (hfirst : ∀ q ∈ s.packets, competes s port q = true → q ≠ w → GoesBefore w q) :
    execNetworkArbitration port s = .next { s with
      packets := (s.packets.erase w).map (fun p => if competes s port p then { p with age := min 255 (p.age + 1) } else p) ++
        w.onward } := by
  have hfind := find?_unbeaten (List.mem_filter.2 ⟨hw, hcompetes⟩) fun q hq =>
    hfirst q (List.mem_filter.1 hq).1 (List.mem_filter.1 hq).2
  simp only [competes_eq] at hfind ⊢
  simp only [execNetworkArbitration, hfind]

/-! ## Flits sent again, and module errors (R397, R408) -/

theorem State.moduleError_of_some {s : State} {e : Nat × Nat × Nat × Nat} (h : s.mgmt.error = some e) (kind die unit : Nat) :
    s.moduleError kind die unit = s := by
  rw [State.moduleError, h]

theorem State.moduleError_of_none {s : State} (h : s.mgmt.error = none) (kind die unit : Nat) :
    s.moduleError kind die unit =
      { s with mgmt := { s.mgmt with error := some (kind, die % 2, unit % 128, s.mgmt.time / 21) } } := by
  rw [State.moduleError, h]
  rfl

/-- A module error changes the record of the error, and nothing else. -/
theorem State.moduleError_frame (s : State) (kind die unit : Nat) :
    s.moduleError kind die unit = { s with mgmt := { s.mgmt with error := (s.moduleError kind die unit).mgmt.error } } := by
  cases h : s.mgmt.error with
  | none => rw [State.moduleError_of_none h]
  | some e => rw [State.moduleError_of_some h]

/-- The counters after a flit of a die was sent again `n` times (R416, R417). -/
def State.resent (s : State) (die n : Nat) : State :=
  { s with mgmt := { s.mgmt with resend := s.mgmt.resend + n } }.countDie (die % 2) 11 n

theorem State.resent_frame (s : State) (die n : Nat) : s.resent die n = { s with mgmt := (s.resent die n).mgmt } := rfl
@[simp] theorem State.resent_resend (s : State) (die n : Nat) : (s.resent die n).mgmt.resend = s.mgmt.resend + n := rfl
@[simp] theorem State.resent_error (s : State) (die n : Nat) : (s.resent die n).mgmt.error = s.mgmt.error := rfl
@[simp] theorem State.resent_time (s : State) (die n : Nat) : (s.resent die n).mgmt.time = s.mgmt.time := rfl

theorem execLinkResend_of_lt (s : State) (die stop : Nat) {times : Nat} (h : times < 64) :
    execLinkResend die stop times s = .next (s.resent die (min times 64)) := by
  rw [execLinkResend, if_neg (Nat.not_le.2 h), State.resent]

theorem execLinkResend_of_le (s : State) (die stop : Nat) {times : Nat} (h : 64 ≤ times) :
    execLinkResend die stop times s = .next ((s.resent die (min times 64)).moduleError 2 die stop) := by
  rw [execLinkResend, if_pos h, State.resent]

theorem execLinkResend_next (s : State) (die stop times : Nat) :
    ∃ t, execLinkResend die stop times s = .next t ∧ t = { s with mgmt := t.mgmt } ∧
      t.mgmt.resend = s.mgmt.resend + min times 64 ∧ (times < 64 → t.mgmt.error = s.mgmt.error) ∧
      (64 ≤ times → s.mgmt.error = none → t.mgmt.error = some (2, die % 2, stop % 128, s.mgmt.time / 21)) := by
  rcases Nat.lt_or_ge times 64 with h | h
  · exact ⟨_, execLinkResend_of_lt s die stop h, s.resent_frame .., s.resent_resend .., fun _ => s.resent_error ..,
      fun hle => absurd h (Nat.not_lt.2 hle)⟩
  · refine ⟨_, execLinkResend_of_le s die stop h, ?_, ?_, fun hlt => absurd h (Nat.not_le.2 hlt), fun _ hnone => ?_⟩
    · rw [State.moduleError_frame, State.resent_frame]
    · rw [State.moduleError_frame, State.resent_resend]
    · rw [State.moduleError_of_none ((s.resent_error ..).trans hnone), State.resent_time]

/-- Settles O47: the stalled group is ready again (log entry 19), the packet before all others wins its port (log entry 49 for the
buffers and the numbers of ports and stops), and a flit is sent again at most 64 times. -/
theorem retriesAndArbitration : Obligations.RetriesAndArbitration := by
  intro s slice port die stop times w g rest
  refine ⟨fun hend hmem hwait hparted => ?_, fun hw hcompetes hfirst => ?_, execLinkResend_next s die stop times⟩
  · exact execStalledWordIssue_here hend hmem hwait hparted
  · show execNetworkArbitration port s = _
    rw [execNetworkArbitration_of_winner hw hcompetes hfirst, Packet.onward_eq]

end Sys2Proof.Machine
end

section
/-! Formatted loads of the own scratchpad (R263): a pair of elements at the end of the 64-bit addresses. -/

namespace Sys2Proof.Machine

open Sys2Proof.Claims

/-- The tag that a header of format sq8 with SCALE 1.0 gives (R104, R117). -/
def unitSq8Tag : Tag := ⟨0x3F800000, 7, 0, 0, 0⟩

/-- A gang whose lane 0 is active, with 2^63 + 65 in S3 and -66 in V5: its pair of elements, -66 and -65, has the offsets
65 - 66 = -1 and 0 in the scratchpad, modulo 2^64. -/
def pairAtEndGang : Gang :=
  { block := 1, granules := 1, m := [(0, 1)], s := [(3, 0x8000000000000041)], v := [(64 * 5, 0xFFFFFFBE)]
    grp := { slices := 1, run := some ⟨4, 1⟩ } }

/-- The carve-out of its block has 2^64 + 1 bytes, more than offsets of 64 bits reach: the header of `unitSq8Tag` from byte 1 on,
and 0x38, the code of 1.0, in the last byte. -/
def pairAtEnd : State :=
  { here := pairAtEndGang
    blocks := [(1, { scratchSize := 2 ^ 64 + 1, scratch := [(3, 0x80), (4, 0x3F), (9, 0x47), (2 ^ 64, 0x38)] })] }

theorem narrowReady_pairAtEnd : NarrowReady pairAtEnd.here true 15 0 5 := by
  unfold NarrowReady FlagReady RegistersReady Wide
  decide +kernel

/-- The model takes the offset of each element modulo 2^64 (`elemByte`), so LDF2 reads the bytes at 2^64 - 1 and at 0, both of them 0. -/
theorem exec_ldf2_pairAtEnd : ∃ t, exec (.ldf2 0 5 3 15) pairAtEnd = .next t ∧ t.here.vword 0 0 = 0 :=
  ⟨_, rfl, by decide +kernel⟩

/-- Refutes O15: its clause for LDF2 of the own scratchpad takes the second element of a pair of sq8 from the byte after that of the
first, without the wrap modulo 2^64.  The two differ where the first stands at 2^64 - 1.  No carve-out of the device is that large
(R215), but no hypothesis of the clause bounds its size. -/
theorem not_scratchpadAndFormattedForms : ¬ Obligations.ScratchpadAndFormattedForms := by
  rintro ⟨-, hformatted⟩
  obtain ⟨-, ⟨hown, -⟩, -⟩ := hformatted pairAtEnd 0 5 3 15 narrowReady_pairAtEnd
  obtain ⟨t, hstated, -, hword⟩ := hown (fun _ => unitSq8Tag) (by decide +kernel) rfl rfl (by decide +kernel)
  obtain ⟨u, hmodel, hzero⟩ := exec_ldf2_pairAtEnd
  have hsame : t = u := Host.Outcome.next.inj (hstated.symm.trans hmodel)
  -- 1.0 of the byte at 2^64, narrowed to f16, in the upper half of the word
  have hone : t.here.vword 0 0 = 0x3C000000 := (hword 0 0 (by decide)).trans (by decide +kernel)
  rw [hsame, hzero] at hone
  exact absurd hone (by decide)

end Sys2Proof.Machine
end

section
/-! The supervisor's writes of privileged registers (R354): a group that stands between runs. -/

namespace Sys2Proof.Machine

open Sys2Proof.Claims

/-- A group between runs has no word to move past. -/
theorem Gang.advance_of_run_none {g : Gang} (h : g.grp.run = none) : g.advance = g := by
  rw [Gang.advance, h]

theorem State.done_of_run_none {s : State} (h : s.here.grp.run = none) : s.done = s := by
  rw [State.done, State.onHere, Gang.markT_nil, Gang.advance_of_run_none h]

/-- The supervisor gang of core 0 as it starts, before the header of its first run (R359). -/
def supervisorAtStart : State := { here := Gang.supervisor 0 }

/-- That machine after a write of 0 to TROOT of tenant 0 (R354). -/
def trootCleared : State := (supervisorAtStart.setPriv 0x800 0).dropTenantTlb 0

theorem exec_trootWrite_atStart : exec (.trootWrite 0 0) supervisorAtStart = .next trootCleared := rfl

theorem trootCleared_done : trootCleared.tenantDone 0 trootCleared.nextId = true := rfl

/-- SWR of S0 to TROOT of tenant 0 does what the event does, and finds nothing in progress; its marker stays, as there is no word
to move past. -/
theorem exec_swr_atStart : exec (.swr 0 0x800) supervisorAtStart = .next trootCleared.markNow :=
  congrArg Host.Outcome.next (State.done_of_run_none (s := trootCleared.markNow) rfl)

/-- Refutes O37: its clause for SWR of TROOT, complete at once, leaves the group no marker.  Only a group within a run loses the marker
as it moves past the word.  A word issues only within a run (R61), but no hypothesis of the clause says that the group on the pipe is
in one. -/
theorem not_privilegedRegistersAndForms : ¬ Obligations.PrivilegedRegistersAndForms := by
  rintro ⟨hwrites, -, -⟩
  obtain ⟨-, -, hevents⟩ := hwrites supervisorAtStart 0 0 0 2 0 0 (by decide) (by decide) (by decide) rfl rfl (by decide)
    (fun _ _ => rfl)
  obtain ⟨-, -, -, -, -, -, -, -, htroot⟩ := hevents rfl
  obtain ⟨hdone, -⟩ := htroot rfl trootCleared exec_trootWrite_atStart
  have hstates := Host.Outcome.next.inj (exec_swr_atStart.symm.trans (hdone trootCleared_done))
  have hmarkers : some trootCleared.nextId = none := congrArg (fun t => t.here.grp.marker) hstates
  exact Option.some_ne_none _ hmarkers

end Sys2Proof.Machine
end
